-- ==== Sys2Proof/Word.lean ====
section
/-! DEFINITION. The word types of the VLS-9420 model and their plainest arithmetic (R7, R8, R9).
A register is 64 bits (R9), memory is addressed in bytes (R8), an fp32 value is its 32 bits (R36). -/
namespace Sys2Proof

/-- One byte of memory, of a descriptor, of a record or of a packet (R8). -/
abbrev Byte := BitVec 8

/-- One register, or one aligned 64-bit value in memory (R9). -/
abbrev Word := BitVec 64

/-- An fp32 value as its IEEE 754 bits (R36, code 0x0). -/
abbrev F32 := BitVec 32

/-- A string of bytes, lowest address (or first sent) first (R8). -/
abbrev Bytes := List Byte

end Sys2Proof
end

