-- ==== Sys2Proof/Syntax.lean ====
section
/-! DEFINITION. The commands of the node: one constructor of `Instr` per row of the opcode table, with the row's
operands. A command is a write or read of a register, a packet, flit or frame that arrives, an event on a pin, a
timer that expires, or the end of a piece of work of the node's own. -/
namespace Sys2Proof

/-- The sources of register accesses, in the order of R522. -/
inductive Src where
  | mgmt | nahel0 | nahel1 | jtag
deriving DecidableEq, Repr, Inhabited

/-- A Nahel packet at the transaction layer (R418); the row that carries it gives its TYPE. -/
structure Packet where
  win   : BitVec 4
  np    : Bool
  rsvd  : BitVec 3
  len   : BitVec 16
  tag   : BitVec 16
  gen   : BitVec 16
  arg   : BitVec 64
  body  : Bytes
deriving DecidableEq, Repr, Inhabited

/-- The MACsec tag of a frame as it arrived (R381). -/
structure SecTag where
  an     : BitVec 2
  pn     : BitVec 32
  sciOk  : Bool
  sealed : Bytes
deriving DecidableEq, Repr, Inhabited

/-- A frame as it arrives at a fabric port (R373, R374); the row that carries it gives its TYPE. `rsvd` tells that a
reserved field is not 0, `lenOk` that the frame's own length agrees with LENGTH. -/
structure Frame where
  etherType : BitVec 16
  ipv6      : Bool
  nextHdr   : Byte
  udpPort   : BitVec 16
  udpOk     : Bool
  srcMac    : BitVec 48
  srcIp     : BitVec 128
  sec       : Option SecTag
  ver       : BitVec 4
  rsvd      : Bool
  lenOk     : Bool
  src       : BitVec 16
  dst       : BitVec 16
  comp      : BitVec 16
  epoch     : BitVec 32
  queue     : BitVec 5
  retx      : Bool
  more      : Bool
  seq       : BitVec 32
  ack       : BitVec 32
  tag       : BitVec 32
  rank      : BitVec 16
  gen       : BitVec 16
  payload   : Bytes
deriving DecidableEq, Repr, Inhabited

/-- What a flash target reports of itself when its channel starts (R239). -/
structure TargetReport where
  answered   : Bool
  pageCrcOk  : Bool
  lpddr4     : Bool
  dataBytes  : Nat
  spareBytes : Nat
  planes     : Nat
  luns       : Nat
  blocks     : Nat
  pages      : Nat
  badBlocks  : List (Nat × Nat × Nat)
deriving DecidableEq, Repr, Inhabited

/-- The stage of the decode ladder in which a frame decoded, or that none did (R258). -/
inductive DecodeOut where
  | hard | retry (step : BitVec 4) | soft | parity | failed
deriving DecidableEq, Repr, Inhabited

/-- An agent's answer to a snoop (R291, R292). -/
inductive SnoopAns where
  | withLine (line : Bytes) | without | notHeld
deriving DecidableEq, Repr, Inhabited

/-- A reset domain of the ladder (R437). -/
inductive Domain where
  | engine (target : BitVec 7) | part (n : BitVec 3) | chip
deriving DecidableEq, Repr, Inhabited

/-- What starts a chip reset that no other row carries (R433, R437). -/
inductive ChipCause where
  | register (src : Src) | ctlState
deriving DecidableEq, Repr, Inhabited

/-- What starts an engine reset or a partition reset (R437); `stage`: uncorrectable data in a tile's own SRAM during an operation
of a request, which ends in a context reset (R433; the table has no row of its own for it, log entry 219). -/
inductive ResetCause where
  | register (src : Src) | trunc | unitOut | stage (c : BitVec 12) (q : BitVec 16)
deriving DecidableEq, Repr, Inhabited

/-- The transports of the SPDM responder (R490). -/
inductive Transport where
  | nahel (port : Bool) | i3c
deriving DecidableEq, Repr, Inhabited

/-- The reference clocks whose loss the node handles apart from AON_CLK (R543). -/
inductive RefClk where
  | core | sdsA | sdsB
deriving DecidableEq, Repr, Inhabited

/-- How a peer comes to be lost (R393). -/
inductive LostCause where
  | register (src : Src) | silence
deriving DecidableEq, Repr, Inhabited

/-- The registers of the interrupt summary row (R425, R427). -/
inductive SumReg where
  | intStat | intEn | idxPend (j : BitVec 6)
deriving DecidableEq, Repr, Inhabited

/-- A list position: list, chain word, block. -/
structure BlockAt where
  list  : BitVec 24
  chain : BitVec 3
  block : BitVec 24
deriving DecidableEq, Repr, Inhabited

/-- The commands, in the order of the opcode table. -/
inductive Instr where
  -- queue pairs
  | takeDescriptor (c : BitVec 12)
  | writeCompletion (c : BitVec 12)
  -- submitted commands: context and ring slot of the taken descriptor
  | insert (c : BitVec 12) (q : BitVec 16)
  | delete (c : BitVec 12) (q : BitVec 16)
  | batch (c : BitVec 12) (q : BitVec 16)
  | pin (c : BitVec 12) (q : BitVec 16)
  | unpin (c : BitVec 12) (q : BitVec 16)
  | search (c : BitVec 12) (q : BitVec 16)
  | searchGraph (c : BitVec 12) (q : BitVec 16)
  | searchDelete (c : BitVec 12) (q : BitVec 16)
  | select (c : BitVec 12) (q : BitVec 16)
  | attend (c : BitVec 12) (q : BitVec 16)
  | attendBwd (c : BitVec 12) (q : BitVec 16)
  | gather (c : BitVec 12) (q : BitVec 16)
  | scatter (c : BitVec 12) (q : BitVec 16)
  | rowWrite (c : BitVec 12) (q : BitVec 16)
  | publish (c : BitVec 12) (q : BitVec 16)
  | cellarRead (c : BitVec 12) (q : BitVec 16)
  | cellarWrite (c : BitVec 12) (q : BitVec 16)
  | cellarDiscard (c : BitVec 12) (q : BitVec 16)
  | caskHint (c : BitVec 12) (q : BitVec 16)
  | caskFlush (c : BitVec 12) (q : BitVec 16)
  | caskLend (c : BitVec 12) (q : BitVec 16)
  | caskReclaim (c : BitVec 12) (q : BitVec 16)
  | caskWithdraw (c : BitVec 12) (q : BitVec 16)
  | syncArm (c : BitVec 12) (q : BitVec 16)
  | syncArrive (c : BitVec 12) (q : BitVec 16)
  | syncWait (c : BitVec 12) (q : BitVec 16)
  | syncDisarm (c : BitVec 12) (q : BitVec 16)
  | syncPost (c : BitVec 12) (q : BitVec 16)
  | syncTake (c : BitVec 12) (q : BitVec 16)
  | broadcast (c : BitVec 12) (q : BitVec 16)
  -- press units
  | passGroupTimeout (c : BitVec 12) (q : BitVec 16)
  | scan (t : BitVec 6) (u : BitVec 9) (cmd : Bytes)
  | attn (t : BitVec 6) (u : BitVec 9) (cmd : Bytes)
  | qk (t : BitVec 6) (u : BitVec 9) (cmd : Bytes)
  | write (t : BitVec 6) (u : BitVec 9) (cmd : Bytes) (data : Bytes) (enables : List Bool)
  | rack (t : BitVec 6) (u : BitVec 9) (cmd : Bytes)
  | lutLoad (t : BitVec 6) (st : BitVec 3) (cmd : Bytes) (data : Bytes)
  | discard (t : BitVec 6) (u : BitVec 9) (cmd : Bytes)
  | windowGrant (u : BitVec 9)
  | windowEnd (u : BitVec 9)
  | accountingPeriod (st : BitVec 3)
  | refresh (u : BitVec 9) (bank : BitVec 4)
  | correctedRewrite (u : BitVec 9)
  -- indexes and vintages
  | indexEnable (src : Src) (i : BitVec 12) (v : Word)
  | indexDisable (src : Src) (i : BitVec 12) (v : Word)
  | vintClose (src : Src) (v : Word)
  | closeInterval (i : BitVec 12)
  | close (i : BitVec 12)
  | vintagePublish (i : BitVec 12)
  | vintageDurable (i : BitVec 12)
  | pinRevoke (i : BitVec 12) (h : BitVec 16)
  | requestRevoke (c : BitVec 12) (q : BitVec 16)
  | racking (i : BitVec 12) (at_ : BlockAt)
  | ageRebase (i : BitVec 12) (at_ : BlockAt)
  | spillMove (i : BitVec 12) (at_ : BlockAt) (slot : BitVec 8)
  | blockFree (u : BitVec 9) (b : BitVec 24)
  | blockRepair (i : BitVec 12) (at_ : BlockAt)
  | spillWaitTimeout (c : BitVec 12) (q : BitVec 16)
  | logWaitTimeout (c : BitVec 12) (q : BitVec 16)
  | logFlush
  -- cellar
  | channelStart (src : Src) (c : BitVec 6) (v : Word)
  | channelTrainingEnd (c : BitVec 6) (targets : List TargetReport) (trained : Bool)
  | channelStop (src : Src) (c : BitVec 6) (v : Word)
  | failedRun (c : BitVec 6)
  | cellarStart (src : Src) (v : Word)
  | cellarStartEnd
  | namespaceEnable (src : Src) (n : BitVec 12)
  | namespaceDisable (src : Src) (n : BitVec 12)
  | lunDispatch (c : BitVec 6) (tg : BitVec 3) (lun : BitVec 2)
  | frameReadDone (c : BitVec 6) (tg : BitVec 3) (lun : BitVec 2) (o : DecodeOut)
  | readDeadline (id : Nat)
  | programDone (c : BitVec 6) (tg : BitVec 3) (lun : BitVec 2)
  | programFailure (c : BitVec 6) (tg : BitVec 3) (lun : BitVec 2)
  | eraseDone (c : BitVec 6) (tg : BitVec 3) (lun : BitVec 2) (ok : Bool)
  | garbageCollection
  | wearLevelling
  | superblockVerify (sb : Nat) (reads : List (Nat × Bool × Nat))
  | mapSegmentFlush
  | zqShortCalibration (c : BitVec 6)
  | temperatureSample (temps : List (Nat × Int))
  | debugWindowAccess (src : Src) (addr : BitVec 52) (len : BitVec 13) (wr : Bool)
  | logTrimWrite (src : Src) (v : Word)
  -- coherence
  | rdS (agent : BitVec 18) (cask : BitVec 32) (line : BitVec 24) (gen : BitVec 16)
  | rdM (agent : BitVec 18) (cask : BitVec 32) (line : BitVec 24) (gen : BitVec 16)
  | rdNc (agent : BitVec 18) (cask : BitVec 32) (line : BitVec 24) (gen : BitVec 16)
  | wrNc (agent : BitVec 18) (cask : BitVec 32) (line : BitVec 24) (gen : BitVec 16) (mask : Word) (data : Bytes)
  | wb (agent : BitVec 18) (cask : BitVec 32) (line : BitVec 24) (gen : BitVec 16) (data : Bytes)
  | drop (agent : BitVec 18) (cask : BitVec 32) (line : BitVec 24) (gen : BitVec 16)
  | snpInv (lender : BitVec 16) (cask : BitVec 32) (line : BitVec 24)
  | snpData (lender : BitVec 16) (cask : BitVec 32) (line : BitVec 24)
  | snpAck (agent : BitVec 18) (cask : BitVec 32) (line : BitVec 24) (gen : BitVec 16) (ans : SnoopAns)
  | data (cask : BitVec 32) (line : BitVec 24) (status : Byte) (bytes : Bytes)
  | cmp (cask : BitVec 32) (line : BitVec 24) (status : Byte)
  | recallTimeout (agent : BitVec 18) (cask : BitVec 10) (line : BitVec 24)
  | agentLost (src : Src) (agent : BitVec 18)
  | poolCatInval (src : Src) (v : Word)
  | pageFetch (cask : BitVec 10) (page : BitVec 14)
  | pageFetchDone (cask : BitVec 10) (page : BitVec 14)
  | pageEviction
  | counterHalving
  | fetchTimeout (cask : BitVec 10) (page : BitVec 14)
  | drainTimeout (cask : BitVec 10)
  -- trellis
  | trellisLoad (src : Src) (n : BitVec 3) (v : Word)
  | trellisUnload (src : Src) (n : BitVec 3) (v : Word)
  | verifyDone (n : BitVec 3)
  | drainEnd (n : BitVec 3)
  | programEnd (n : BitVec 3)
  -- contexts
  | contextEnable (src : Src) (c : BitVec 12) (v : Word)
  | contextDisable (src : Src) (c : BitVec 12) (v : Word)
  | preempt (src : Src) (c : BitVec 12)
  | suspendDone (c : BitVec 12)
  | resume (src : Src) (c : BitVec 12)
  | abort (src : Src) (c : BitVec 12)
  | contextReset (src : Src) (c : BitVec 12)
  | doorbell (src : Src) (c : BitVec 12) (v : Word)
  | ctxTlbInval (src : Src) (v : Word)
  | slowdownLatch
  | requestTimeout (c : BitVec 12) (q : BitVec 16)
  | syncTimeout (c : BitVec 12) (q : BitVec 16)
  -- fabric frames
  | subreq (p : BitVec 4) (f : Frame)
  | reply (p : BitVec 4) (f : Frame)
  | moved (p : BitVec 4) (f : Frame)
  | coherenceFrame (p : BitVec 4) (f : Frame)
  | globalArrive (p : BitVec 4) (f : Frame)
  | globalRelease (p : BitVec 4) (f : Frame)
  | closeTrigger (p : BitVec 4) (f : Frame)
  | prepare (p : BitVec 4) (f : Frame)
  | prepared (p : BitVec 4) (f : Frame)
  | commit (p : BitVec 4) (f : Frame)
  | globalReset (p : BitVec 4) (f : Frame)
  | resetDone (p : BitVec 4) (f : Frame)
  | bcastData (p : BitVec 4) (f : Frame)
  | bcastDone (p : BitVec 4) (f : Frame)
  | ack (p : BitVec 4) (f : Frame)
  | nak (p : BitVec 4) (f : Frame)
  | keepalive (p : BitVec 4) (f : Frame)
  | admitHello (p : BitVec 4) (f : Frame)
  | admitCert (p : BitVec 4) (f : Frame)
  | admitProof (p : BitVec 4) (f : Frame)
  -- fabric timers and control
  | frameTransmit (p : BitVec 4)
  | retransmitTimeout (peer : BitVec 16) (queue : BitVec 5)
  | ackTimer (peer : BitVec 16) (queue : BitVec 5)
  | keepaliveTimer (peer : BitVec 16) (p : BitVec 4)
  | subreqTimeout (tag : BitVec 32)
  | admitPeer (src : Src) (node : BitVec 16)
  | admitTimeout (node : BitVec 16)
  | lost (cause : LostCause) (node : BitVec 16)
  | fabricPortEnable (src : Src) (p : BitVec 4) (v : Word)
  | fabricPortFailed (p : BitVec 4)
  | fabQueueWrite (src : Src) (i : BitVec 9) (v : Word)
  | fabShapeWrite (src : Src) (i : BitVec 5) (v : Word)
  | fabPoliceWrite (src : Src) (i : BitVec 5) (v : Word)
  | install (src : Src) (n : BitVec 6)
  | remove (src : Src) (n : BitVec 6)
  | compositionReset (src : Src) (n : BitVec 6)
  | epochDrainEnd (n : BitVec 6)
  | heldMessageTimeout (id : Nat)
  -- Nahel
  | nahelPortEnable (src : Src) (p : BitVec 1) (v : Word)
  | nahelPortDisable (src : Src) (p : BitVec 1) (v : Word)
  | trainingStateEnd (p : BitVec 1) (reversed : Bool) (polarity : BitVec 4)
  | trainingTimeout (p : BitVec 1)
  | dataFlit (p : BitVec 1) (flit : Bytes)
  | idleFlit (p : BitVec 1) (flit : Bytes)
  | nakFlit (p : BitVec 1) (flit : Bytes)
  | replayTimeout (p : BitVec 1)
  | rdPacket (p : BitVec 1) (k : Packet)
  | wrPacket (p : BitVec 1) (k : Packet)
  | cohPacket (p : BitVec 1) (k : Packet)
  | mgmtPacket (p : BitVec 1) (k : Packet)
  | credit (p : BitVec 1) (k : Packet)
  | intrReceived (p : BitVec 1) (k : Packet)
  | moderationTimer (p : BitVec 1) (vec : BitVec 16)
  -- recovery, attestation, I3C
  | status (p : BitVec 1) (tag : BitVec 16)
  | recoveryWrite (p : BitVec 1) (tag : BitVec 16) (offset : BitVec 32) (bytes : Bytes)
  | run (p : BitVec 1) (tag : BitVec 16) (persist : Bool)
  | getVersion (t : Transport) (tag : BitVec 16) (body : Bytes)
  | getCapabilities (t : Transport) (tag : BitVec 16) (body : Bytes)
  | negotiateAlgorithms (t : Transport) (tag : BitVec 16) (body : Bytes)
  | getDigests (t : Transport) (tag : BitVec 16) (body : Bytes)
  | getCertificate (t : Transport) (tag : BitVec 16) (slot : BitVec 4) (offset len : BitVec 16)
  | challenge (t : Transport) (tag : BitVec 16) (body : Bytes)
  | getMeasurements (t : Transport) (tag : BitVec 16) (index : Byte) (body : Bytes)
  | entdaa (addr : BitVec 7)
  | setEndpointId (eid : Byte)
  | getEndpointId
  | getMctpVersionSupport (mtype : Byte)
  | getMessageTypeSupport
  -- watchdogs and resets
  | contextWatchdog (c : BitVec 12)
  | tileWatchdog (cell : BitVec 9)
  | partitionWatchdog (n : BitVec 3)
  | chipWatchdog
  | kick (src : Src)
  | engine (cause : ResetCause) (target : BitVec 7)
  | part (cause : ResetCause) (n : BitVec 3)
  | chip (cause : ChipCause)
  | pcyc (src : Src)
  | selftest (src : Src)
  | fenceDrainEnd (d : Domain)
  | stackRetrain (st : BitVec 3)
  | injection (j : BitVec 3)
  | checkpoint (src : Src) (i : BitVec 12) (ns : BitVec 12)
  | restore (src : Src) (i : BitVec 12) (ns : BitVec 12)
  | restoreReplay (src : Src) (i : BitVec 12) (ns : BitVec 12)
  | checkpointRunEnd
  | hold (src : Src) (n : BitVec 6) (v : Word)
  | holdTimeout (id : Nat)
  | tableEnable (src : Src) (t : BitVec 10)
  -- pins, boot, fuses
  | resetNAssert
  | resetNRelease (forceRcv : Bool)
  | pwrGoodFall
  | pwrGoodRise
  | powerRemoved
  | advance (src : Src) (target : BitVec 7)
  | revoke (src : Src) (mask : BitVec 4)
  | fuseBurnEnd
  -- clocks, power
  | clkWake (src : Src) (v : Word)
  | domainGate (d : BitVec 6)
  | domainStop (d : BitVec 6)
  | wakeStart
  | wakeEnd (d : BitVec 6)
  | temperatureReading (r : BitVec 4) (t : Int)
  | throttleStep
  | thermalTrip (r : BitVec 4)
  | aonClkLoss
  | referenceLoss (r : RefClk)
  -- registers
  | interruptSummaryWrite (src : Src) (reg : SumReg) (v : Word)
  | rcRead (src : Src) (addr : BitVec 52) (wide : Bool)
  | registerWrite (src : Src) (addr : BitVec 52) (wide : Bool) (v : Word)
  | alignmentBlock (p : BitVec 1) (lane : BitVec 2) (number : Byte)
  | unfence (d : Domain)
  | resetBoundPassed (d : Domain)
  | selftestEnd (tiles : Word) (press : List Nat)
  | stackRetrainEnd (st : BitVec 3) (ok : Bool)
  | aonClkReturn
  | referenceReturn (r : RefClk)
  | aonSupplyOn
  | currentEstimate (amps : BitVec 12)
  | clkTimeTick
  | jtagInstruction (ir : BitVec 8)
  | pllLockLoss
deriving DecidableEq, Repr, Inhabited

end Sys2Proof
end

