-- ==== Sys2Proof/WellFormed.lean ====
section
/-! DEFINITION. Well-formed commands: operands that the hardware's own carriers can hold. A malformed packet or frame is well
formed as a command: what it does is the machine's business. -/
namespace Sys2Proof

/-- R418: LEN has 13 bits, so a packet's body has fewer than 8,192 bytes. -/
def Packet.wf (k : Packet) : Bool := decide (k.body.length < 8192)

/-- R374: LENGTH has 16 bits. -/
def Frame.wf (f : Frame) : Bool := decide (f.payload.length < 65536)

/-- R415: a flit has 256 bytes. -/
def flitWf (b : Bytes) : Bool := decide (b.length = 256)

/-- R106: a press command has 64 bytes. -/
def pressWf (b : Bytes) : Bool := decide (b.length = 64)

/-- R291: a line has 64 bytes. -/
def lineWf (b : Bytes) : Bool := decide (b.length = 64)

/-- R498: there are 44 clock domains. -/
def domainWf (d : BitVec 6) : Bool := decide (d.toNat < 44)

/-- R516: there are 15 temperature regions. -/
def regionWf (r : BitVec 4) : Bool := decide (r.toNat < 15)

/-- True of a command whose operands the hardware can carry. -/
def Instr.wf (i : Instr) : Bool :=
  match i with
  | .scan _ _ cmd | .attn _ _ cmd | .qk _ _ cmd | .rack _ _ cmd | .discard _ _ cmd => pressWf cmd
  | .write _ _ cmd d en => pressWf cmd && decide (d.length ≤ 4096) && decide (en.length ≤ 4096)
  | .lutLoad _ _ cmd d => pressWf cmd && decide (d.length ≤ 65536)
  | .wrNc _ _ _ _ _ d | .wb _ _ _ _ d => lineWf d
  | .snpAck _ _ _ _ (.withLine d) => lineWf d
  | .subreq _ f | .reply _ f | .moved _ f | .coherenceFrame _ f | .globalArrive _ f | .globalRelease _ f | .closeTrigger _ f
  | .prepare _ f | .prepared _ f | .commit _ f | .globalReset _ f | .resetDone _ f | .bcastData _ f | .bcastDone _ f
  | .ack _ f | .nak _ f | .keepalive _ f | .admitHello _ f | .admitCert _ f | .admitProof _ f => f.wf
  | .dataFlit _ b | .idleFlit _ b | .nakFlit _ b => flitWf b
  | .rdPacket _ k | .wrPacket _ k | .cohPacket _ k | .mgmtPacket _ k | .credit _ k | .intrReceived _ k => k.wf
  | .domainGate d | .domainStop d | .wakeEnd d => domainWf d
  | .temperatureReading r _ | .thermalTrip r => regionWf r
  | .selftestEnd _ l => l.all fun u => decide (u < 512)
  | _ => true

end Sys2Proof
end

