-- ==== Sys2Proof/Decode.lean ====
section
/-! DEFINITION. Commands from bits. The opcode table gives no row any bits: a command reaches the block as an access, a packet, a
frame or an event, never as a word that is decoded. -/
namespace Sys2Proof

/-- The command that a word spells by the table's bits: none, for no row of the table has bits. -/
def decodeTableWord (_nbits _w : Nat) : Option Instr := none

end Sys2Proof
end

