-- ==== Sys2Proof/Config.lean ====
section
/-! DEFINITION. What one implementation of the VLS-9420 fixes and its manual leaves open: free values (opaque,
no body), and the sizes that the manual states once. -/
namespace Sys2Proof.Config

/-- R127: where the shared exponential unit's result for a finite argument lies among the fp32 values within 2 ulp of the
exact exponential (mod 4; 0 is one below the exact value truncated toward zero). The manual gives only the bound and that every
unit gives the same bits; log entry 10. -/
opaque expStep : F32 → Nat

/-- R177: among candidates of equal score, which comes first. The manual gives no rule, only that the choice is
repeatable; arguments: number of candidates, places asked, item, position in merge order. Log entry 11. -/
opaque tieRank : Nat → Nat → BitVec 64 → Nat → Nat

/-- R127: of several kept shortlist entries with the lowest score, the position of the one replaced; arguments:
how many entries share the score, how many entries were offered so far. Log entry 12. -/
opaque evictPick : Nat → Nat → Nat

/-- R243, R278: byte k of the LDPC base matrix in the node's ROM, whose contents the manual does not print.
Log entry 13. -/
opaque ldpcBaseByte : Nat → Byte

/-- R243: byte i of the parity of a whitened frame, read only for bits that the code of the ROM's base matrix leaves open.
Log entry 13. -/
opaque ldpcParityByte : Bytes → Nat → Byte

/-- R320, R329: whether a personality's microcode variant is in the microcode set of the running firmware image
(image version, personality code, variant). The set is the firmware's. Log entry 14. -/
opaque microcodeHas : Nat → Nat → Nat → Bool

/-- R379, R479: whether a DER certificate chain verifies to the root key of the given hash. X.509 is a standard the
manual names and does not restate. Log entry 15. -/
opaque chainVerifies : Bytes → Bytes → Bool

/-- R379: the DER public key of the leaf of a chain (X.509). Log entry 15. -/
opaque leafKey : Bytes → Bytes

/-- R379: modulus and exponent of the leaf key of a chain (X.509). Log entry 15. -/
opaque leafModulus : Bytes → Nat
opaque leafExponent : Bytes → Nat

/-- R479: the leaf certificate's serial number (X.509). Log entry 15. -/
opaque leafSerial : Bytes → Nat

/-- R479: the public DER key of the private key that the wrapping key unwraps (RFC 5649), none when the unwrap
fails. Log entry 15. -/
opaque unwrapKey : Bytes → Option Bytes

/-- R379, R491: a signature by the device key over a message. The key never leaves the security engine.
Log entry 15. -/
opaque deviceSign : Bytes → Bytes

/-- R489: the digest of the mask ROM's contents. Log entry 16. -/
opaque romDigestByte : Nat → Byte

/-- R356: the calibrated solo estimate E of a request: a fresh number, opcode, CAL_CELLAR_US and CAL_FABRIC_NS. The manual
defines it by the rates of every chapter and the work actually done, and gives no one formula. Log entry 17. -/
opaque soloEstimate : Nat → Nat → Nat → Nat → Nat

/-- R356: the tile cycles of a request's time that lie between two µs counts. Log entry 17. -/
opaque subMicrosecond : Nat → Nat

/-- R491: the bytes of an SPDM or MCTP answer that its standard fixes and the manual does not restate: request
code, request body, byte index. Log entry 18. -/
opaque spdmByte : Nat → Bytes → Nat → Byte

/-- R491: how many bytes that answer has. Log entry 18. -/
opaque spdmLen : Nat → Bytes → Nat

/-- R379: byte i of the k-th fresh nonce the node draws. Log entry 19. -/
opaque nonceByte : Nat → Nat → Byte

/-- R300: which of several equally good choices the node's arbiter takes when no rule orders them; a plain
counter of the state is its argument. Log entry 20. -/
opaque arbiterPick : Nat → Nat → Nat

/-- R264: a 64-byte unit left by TIMEOUT or UNCORRECTABLE holds old contents (false) or the data read (true).
Log entry 21. -/
opaque unitDelivered : Nat → Bool

/-- R111, R444: how far an operation had come when its window was cut off: a fresh number; the model takes it modulo the number
of ways in which the operation can stand unfinished. Log entry 22. -/
opaque windowCut : Nat → Nat

/-- R444: whether a RACK window cut short by a press-block reset had rewritten its predecessor. Log entry 22. -/
opaque rackCutLinked : Nat → Bool

/-- R506: the issue duty that the governor applies for a given estimate and limit. The manual gives the bound it
keeps, not the duty. Log entry 23. -/
opaque governorDuty : Nat → Nat → Nat → Nat

/-- R507: the energy, in µJ, that a wake of a domain from STOP adds to the node's draw within 10 µs: a fresh number, the domain.
The manual gives none. Log entry 23. -/
opaque wakeUj : Nat → Nat → Nat

/-- R487: whether a fuse bit whose burn a chip reset cut short reads as burned. Log entry 24. -/
opaque cutBurn : Nat → Nat → Bool

/-- R540: whether a NAND page program that a reset or a power loss cut short left its page readable. Log entry 24. -/
opaque cutProgram : Nat → Bool

/-- R381: the integrity check of a MACsec frame under an association's key (GCM-AES-256, IEEE 802.1AE): key, packet
number, frame. Log entry 25. -/
opaque macsecVerifies : Bytes → Nat → Bytes → Bool

/-- R350: byte k of the save area as the n-th pre-emption writes it: a header and live state whose layout the manual
does not give. Log entry 41. -/
opaque saveByte : Nat → Nat → Byte

/-- R133: press cycles of a window that have passed when ELAPSED is read; the model counts no press cycles. Log entry 48. -/
opaque pressElapsed : Nat → Nat → Nat

/-- R142: the centroid score of a binary query: the rows are bf16, and Hamming mode accepts only binary elements. Log
entry 49. -/
opaque hammingCentroid : Bytes → Bytes → F32

/-- R142, R143: a score that is NaN, where the manual orders or bounds scores: the value it counts as. Log entry 49. -/
opaque nanAs : Nat → F32

/-- R144, R165: how many of the press commands of a pass stand in its unit's queue at once: a fresh number; the model takes it modulo
what the pass issues. Log entry 51. -/
opaque queuePeak : Nat → Nat

/-- R158: the rank in the frontier of an item that has no score. Log entry 50. -/
opaque graphRank : Nat → F32

/-- R226: byte k of an output row of a GATHER that names a damaged row. Log entry 55. -/
opaque damagedRowByte : Nat → Nat → Byte

/-- R258: the stage in which a frame that the node reads for itself decodes: 0 is hard decoding, k + 1 retry step k, 17 soft
decoding, 18 the rebuilding from parity, any other number none. Log entry 56. -/
opaque ladderOut : Nat → Nat

/-- R223: whether no command at its owner has written a row of another node since a copy of it was prefetched. Log entry 309. -/
opaque copyFresh : Nat → Bool

/-- R250: whether a lookup finds its map segment in the cache. Log entry 307. -/
opaque mapCached : Nat → Bool

/-! Sizes that the manual states. -/

def nTiles : Nat := 64          -- R18
def nPress : Nat := 512         -- R19
def nStacks : Nat := 8          -- R18
def nContexts : Nat := 4096     -- R341
def nTenants : Nat := 256       -- R341
def nIndexes : Nat := 4096      -- R55
def nTables : Nat := 1024       -- R213
def nNamespaces : Nat := 4096   -- R247
def nChannels : Nat := 48       -- R237
def nPartitions : Nat := 8      -- R315
def nSlots : Nat := 64          -- R386
def nPorts : Nat := 16          -- R371
def blocksPerUnit : Nat := 393216       -- R59
def hbmBase : Nat := 0x001000000000     -- R518
def hbmSize : Nat := 0xC000000000       -- R518: 768 GiB
def caskBase : Nat := 0x010000000000    -- R518
def cellarWinBase : Nat := 0x080000000000  -- R518
def caskSlots : Nat := 7168             -- R281
def vintageGap : Nat := 1073741824      -- R80, R81: 2^30
def offsetMax : Nat := 0x7FFFFFFF       -- R62
def noBlock : Nat := 0xFFFFFF           -- R58, R60
def noItem : Nat := 0xFFFFFFFFFFFFFFFF  -- R69

end Sys2Proof.Config
end

