-- ==== Sys2Proof/Machine/Regs.lean ====
section
/-! DEFINITION. The register map (R518, R520, R531) and the fields of every register, one definition per field, from the
register tables of every chapter: its bits, access type (R10), reset value and the values a write may give it (R14). -/
namespace Sys2Proof.Machine

/-- The registers of the index (R531). -/
inductive Reg where
  | topId | topSerial | topStrap | topIntStat | topIntEn | topErrSum
  | topErrCnt | topErrFirst | topIdxPend | topScratch | topPersist | clkDom
  | clkIdle | clkWake | clkTime | pwrGov | pwrGovStat | pwrThermCfg
  | pwrThermStat | pwrTemp | secBootStat | secFwVer | secFuseCfg | secFuseProg
  | secLogStat | secLogSel | secFuseHash | secLogData | secLogChain | fltCfg
  | fltWdog | fltKick | fltReset | fltStat | fltOutTile | fltCkpt
  | fltCkptStat | fltCkptVint | fltOutPress | fltInj | fltLog | fltAdmit
  | trlStore | trlLimits | trlSrc | trlCtl | trlStat | trlBuild
  | trlDigest | trlKeyCfg | trlKeyHash | trlTileOwn | trlPressOwn | mergeCfg
  | mergeScratch | mergeStat | dirStore | dirRec | dirCfg | dirStat
  | poolCfg | poolCat | poolCatInval | poolAgentLost | poolStat | poolFrames
  | poolLent | nlPortCfg | nlPortStat | nlLinkErr | nlTxnErr | nlWinBase
  | nlWinCfg | nlCtxVec | cellarCfg | cellarNsDesc | cellarMapCache | cellarParity
  | cellarLogTrim | cellarCap | cellarHealth | cellarDebug | cellarErrA | cellarErrB
  | cellarRetry | cellarChCfg | cellarChStat | cellarNsEn | cellarTempHist | cellarLdpcBase
  | vintClose | vintRackCfg | vintSpillCfg | vintFreeMap | vintIdxCfg | vintIdxLists
  | vintIdxLoc | vintTrig | vintCur | vintDurable | vintHorizon | vintStat
  | vintIdxRoute | vintIdxBook | vintIdxQcfg | vintIdxGraph | pressGroup | pressShare
  | pressErr | pressWinLen | pressWinStat | pressEccCnt | pressEccLog | pressNumStat
  | pressLoad | fabNode | fabPeerTab | fabPeerCtl | fabTimers | fabGlbStat
  | fabPortCfg | fabPortStat | fabDrop | fabShape | fabPolice | fabMacsecSa
  | fabQueue | fabMacsecKey | fabCompMap | fabCompBcast | fabCompCtl | fabCompStat
  | fabCtxComp | syncStat | syncObj | syncCnt | ctxTlbInval | ctxSlowCfg
  | ctxTenant | ctxSlow | ctxCfg | ctxSq | ctxCq | ctxPt
  | ctxSave | ctxDb | ctxCtl | ctxStat | ctxFault | tileEmbDesc
  | tileEmbEn | tileDispatch | tileAttnCfg | tileEmbCfg | tileNumStat | tileAttnStat
  | tileEmbStat | tileEmbVer | tileScale
deriving DecidableEq, Repr, Inhabited

/-- Access types (R10). -/
inductive Access where
  | ro | rw | wo | w1c | rc | rw1s
deriving DecidableEq, Repr, Inhabited

/-- What a write may give a field (R14): anything that fits, or only a listed range, other values leaving it unchanged. -/
inductive ValueRule where
  | any | upTo (least greatest : Nat)
deriving DecidableEq, Repr, Inhabited

/-- A register field. -/
structure Fld where
  reg   : Reg
  hi    : Nat
  lo    : Nat
  acc   : Access
  reset : Nat
  rule  : ValueRule
deriving DecidableEq, Repr, Inhabited

/-- R531: first address and number of instances. -/
def Reg.place : Reg → Nat × Nat
  | .topId => (0x00000000, 1)
  | .topSerial => (0x00000008, 1)
  | .topStrap => (0x00000010, 1)
  | .topIntStat => (0x00000040, 1)
  | .topIntEn => (0x00000048, 1)
  | .topErrSum => (0x00000080, 1)
  | .topErrCnt => (0x00000088, 1)
  | .topErrFirst => (0x00000090, 1)
  | .topIdxPend => (0x00000100, 64)
  | .topScratch => (0x00000400, 8)
  | .topPersist => (0x00000440, 4)
  | .clkDom => (0x00010000, 44)
  | .clkIdle => (0x00010200, 1)
  | .clkWake => (0x00010208, 1)
  | .clkTime => (0x00010210, 1)
  | .pwrGov => (0x00020000, 1)
  | .pwrGovStat => (0x00020008, 1)
  | .pwrThermCfg => (0x00020010, 1)
  | .pwrThermStat => (0x00020018, 1)
  | .pwrTemp => (0x00020100, 15)
  | .secBootStat => (0x00030000, 1)
  | .secFwVer => (0x00030008, 1)
  | .secFuseCfg => (0x00030010, 1)
  | .secFuseProg => (0x00030018, 1)
  | .secLogStat => (0x00030020, 1)
  | .secLogSel => (0x00030028, 1)
  | .secFuseHash => (0x00030100, 20)
  | .secLogData => (0x00030200, 8)
  | .secLogChain => (0x00030240, 4)
  | .fltCfg => (0x00040000, 1)
  | .fltWdog => (0x00040008, 1)
  | .fltKick => (0x00040010, 1)
  | .fltReset => (0x00040018, 1)
  | .fltStat => (0x00040020, 1)
  | .fltOutTile => (0x00040028, 1)
  | .fltCkpt => (0x00040030, 1)
  | .fltCkptStat => (0x00040038, 1)
  | .fltCkptVint => (0x00040040, 1)
  | .fltOutPress => (0x00040100, 8)
  | .fltInj => (0x00040140, 8)
  | .fltLog => (0x00040200, 64)
  | .fltAdmit => (0x00040400, 64)
  | .trlStore => (0x00050000, 1)
  | .trlLimits => (0x00050008, 1)
  | .trlSrc => (0x00050100, 8)
  | .trlCtl => (0x00050140, 8)
  | .trlStat => (0x00050180, 8)
  | .trlBuild => (0x000501C0, 8)
  | .trlDigest => (0x00050200, 32)
  | .trlKeyCfg => (0x00050300, 8)
  | .trlKeyHash => (0x00050400, 32)
  | .trlTileOwn => (0x00050500, 4)
  | .trlPressOwn => (0x00050600, 32)
  | .mergeCfg => (0x00060000, 8)
  | .mergeScratch => (0x00060040, 8)
  | .mergeStat => (0x00060100, 64)
  | .dirStore => (0x00070000, 1)
  | .dirRec => (0x00070008, 1)
  | .dirCfg => (0x00070010, 1)
  | .dirStat => (0x00070018, 1)
  | .poolCfg => (0x00080000, 1)
  | .poolCat => (0x00080008, 1)
  | .poolCatInval => (0x00080010, 1)
  | .poolAgentLost => (0x00080018, 1)
  | .poolStat => (0x00080020, 1)
  | .poolFrames => (0x00080100, 12)
  | .poolLent => (0x00080180, 12)
  | .nlPortCfg => (0x00100000, 2)
  | .nlPortStat => (0x00100010, 2)
  | .nlLinkErr => (0x00100020, 2)
  | .nlTxnErr => (0x00100030, 2)
  | .nlWinBase => (0x00100100, 32)
  | .nlWinCfg => (0x00100200, 32)
  | .nlCtxVec => (0x00108000, 4096)
  | .cellarCfg => (0x00200000, 1)
  | .cellarNsDesc => (0x00200008, 1)
  | .cellarMapCache => (0x00200010, 1)
  | .cellarParity => (0x00200018, 1)
  | .cellarLogTrim => (0x00200020, 1)
  | .cellarCap => (0x00200028, 1)
  | .cellarHealth => (0x00200030, 1)
  | .cellarDebug => (0x00200038, 1)
  | .cellarErrA => (0x00200040, 4)
  | .cellarErrB => (0x00200060, 4)
  | .cellarRetry => (0x00200080, 16)
  | .cellarChCfg => (0x00200100, 48)
  | .cellarChStat => (0x00200300, 48)
  | .cellarNsEn => (0x00200500, 64)
  | .cellarTempHist => (0x00200800, 128)
  | .cellarLdpcBase => (0x00201000, 1160)
  | .vintClose => (0x00400000, 1)
  | .vintRackCfg => (0x00400008, 1)
  | .vintSpillCfg => (0x00400010, 1)
  | .vintFreeMap => (0x00400018, 1)
  | .vintIdxCfg => (0x00408000, 4096)
  | .vintIdxLists => (0x00410000, 4096)
  | .vintIdxLoc => (0x00418000, 4096)
  | .vintTrig => (0x00420000, 4096)
  | .vintCur => (0x00428000, 4096)
  | .vintDurable => (0x00430000, 4096)
  | .vintHorizon => (0x00438000, 4096)
  | .vintStat => (0x00440000, 4096)
  | .vintIdxRoute => (0x00448000, 4096)
  | .vintIdxBook => (0x00450000, 4096)
  | .vintIdxQcfg => (0x00458000, 4096)
  | .vintIdxGraph => (0x00460000, 4096)
  | .pressGroup => (0x00600000, 12)
  | .pressShare => (0x00600080, 8)
  | .pressErr => (0x006000C0, 8)
  | .pressWinLen => (0x00601000, 512)
  | .pressWinStat => (0x00602000, 512)
  | .pressEccCnt => (0x00603000, 512)
  | .pressEccLog => (0x00604000, 512)
  | .pressNumStat => (0x00605000, 512)
  | .pressLoad => (0x00606000, 512)
  | .fabNode => (0x00800000, 1)
  | .fabPeerTab => (0x00800008, 1)
  | .fabPeerCtl => (0x00800010, 1)
  | .fabTimers => (0x00800018, 1)
  | .fabGlbStat => (0x00800020, 1)
  | .fabPortCfg => (0x00800100, 16)
  | .fabPortStat => (0x00800180, 16)
  | .fabDrop => (0x00800200, 16)
  | .fabShape => (0x00800300, 32)
  | .fabPolice => (0x00800400, 32)
  | .fabMacsecSa => (0x00800800, 128)
  | .fabQueue => (0x00801000, 512)
  | .fabMacsecKey => (0x00802000, 512)
  | .fabCompMap => (0x00803000, 64)
  | .fabCompBcast => (0x00803200, 64)
  | .fabCompCtl => (0x00803400, 64)
  | .fabCompStat => (0x00803600, 64)
  | .fabCtxComp => (0x00808000, 4096)
  | .syncStat => (0x00A00000, 8)
  | .syncObj => (0x00A10000, 8192)
  | .syncCnt => (0x00A20000, 8192)
  | .ctxTlbInval => (0x00C00000, 1)
  | .ctxSlowCfg => (0x00C00008, 1)
  | .ctxTenant => (0x00C01000, 256)
  | .ctxSlow => (0x00C01800, 256)
  | .ctxCfg => (0x00C08000, 4096)
  | .ctxSq => (0x00C10000, 4096)
  | .ctxCq => (0x00C18000, 4096)
  | .ctxPt => (0x00C20000, 4096)
  | .ctxSave => (0x00C28000, 4096)
  | .ctxDb => (0x00C30000, 4096)
  | .ctxCtl => (0x00C38000, 4096)
  | .ctxStat => (0x00C40000, 4096)
  | .ctxFault => (0x00C48000, 4096)
  | .tileEmbDesc => (0x01000000, 1)
  | .tileEmbEn => (0x01000100, 16)
  | .tileDispatch => (0x01000200, 8)
  | .tileAttnCfg => (0x01000240, 8)
  | .tileEmbCfg => (0x01000280, 8)
  | .tileNumStat => (0x01000400, 64)
  | .tileAttnStat => (0x01000600, 64)
  | .tileEmbStat => (0x01000800, 64)
  | .tileEmbVer => (0x01002000, 1024)
  | .tileScale => (0x01200000, 262144)

/-- R531: the address of instance `i`. -/
def Reg.addr (r : Reg) (i : Nat) : Nat := r.place.1 + 8 * i

/-- R531: how many instances a register has. -/
def Reg.count (r : Reg) : Nat := r.place.2

/-- Every register of the index, in its order. -/
def Reg.all : List Reg :=
  [[.topId, .topSerial, .topStrap, .topIntStat, .topIntEn, .topErrSum, .topErrCnt, .topErrFirst],
   [.topIdxPend, .topScratch, .topPersist, .clkDom, .clkIdle, .clkWake, .clkTime, .pwrGov],
   [.pwrGovStat, .pwrThermCfg, .pwrThermStat, .pwrTemp, .secBootStat, .secFwVer, .secFuseCfg, .secFuseProg],
   [.secLogStat, .secLogSel, .secFuseHash, .secLogData, .secLogChain, .fltCfg, .fltWdog, .fltKick],
   [.fltReset, .fltStat, .fltOutTile, .fltCkpt, .fltCkptStat, .fltCkptVint, .fltOutPress, .fltInj],
   [.fltLog, .fltAdmit, .trlStore, .trlLimits, .trlSrc, .trlCtl, .trlStat, .trlBuild],
   [.trlDigest, .trlKeyCfg, .trlKeyHash, .trlTileOwn, .trlPressOwn, .mergeCfg, .mergeScratch, .mergeStat],
   [.dirStore, .dirRec, .dirCfg, .dirStat, .poolCfg, .poolCat, .poolCatInval, .poolAgentLost],
   [.poolStat, .poolFrames, .poolLent, .nlPortCfg, .nlPortStat, .nlLinkErr, .nlTxnErr, .nlWinBase],
   [.nlWinCfg, .nlCtxVec, .cellarCfg, .cellarNsDesc, .cellarMapCache, .cellarParity, .cellarLogTrim, .cellarCap],
   [.cellarHealth, .cellarDebug, .cellarErrA, .cellarErrB, .cellarRetry, .cellarChCfg, .cellarChStat, .cellarNsEn],
   [.cellarTempHist, .cellarLdpcBase, .vintClose, .vintRackCfg, .vintSpillCfg, .vintFreeMap, .vintIdxCfg, .vintIdxLists],
   [.vintIdxLoc, .vintTrig, .vintCur, .vintDurable, .vintHorizon, .vintStat, .vintIdxRoute, .vintIdxBook],
   [.vintIdxQcfg, .vintIdxGraph, .pressGroup, .pressShare, .pressErr, .pressWinLen, .pressWinStat, .pressEccCnt],
   [.pressEccLog, .pressNumStat, .pressLoad, .fabNode, .fabPeerTab, .fabPeerCtl, .fabTimers, .fabGlbStat],
   [.fabPortCfg, .fabPortStat, .fabDrop, .fabShape, .fabPolice, .fabMacsecSa, .fabQueue, .fabMacsecKey],
   [.fabCompMap, .fabCompBcast, .fabCompCtl, .fabCompStat, .fabCtxComp, .syncStat, .syncObj, .syncCnt],
   [.ctxTlbInval, .ctxSlowCfg, .ctxTenant, .ctxSlow, .ctxCfg, .ctxSq, .ctxCq, .ctxPt],
   [.ctxSave, .ctxDb, .ctxCtl, .ctxStat, .ctxFault, .tileEmbDesc, .tileEmbEn, .tileDispatch],
   [.tileAttnCfg, .tileEmbCfg, .tileNumStat, .tileAttnStat, .tileEmbStat, .tileEmbVer, .tileScale]].flatten

namespace F

/-! TOP_ID (R523) -/
def TOP_ID_VENDOR : Fld := ⟨.topId, 15, 0, .ro, 1954, .any⟩
def TOP_ID_DEVICE : Fld := ⟨.topId, 31, 16, .ro, 37920, .any⟩
def TOP_ID_STEP_MAJOR : Fld := ⟨.topId, 35, 32, .ro, 1, .any⟩
def TOP_ID_STEP_MINOR : Fld := ⟨.topId, 39, 36, .ro, 0, .any⟩
def TOP_ID_GRADE : Fld := ⟨.topId, 40, 40, .ro, 0, .any⟩
def TOP_ID_MAP_REV : Fld := ⟨.topId, 55, 48, .ro, 1, .any⟩
/-! TOP_SERIAL (R524) -/
def TOP_SERIAL_SERIAL : Fld := ⟨.topSerial, 63, 0, .ro, 0, .any⟩
/-! TOP_STRAP (R524) -/
def TOP_STRAP_FORCE_RCV : Fld := ⟨.topStrap, 0, 0, .ro, 0, .any⟩
/-! TOP_INT_STAT (R525) -/
def TOP_INT_STAT_INDEX : Fld := ⟨.topIntStat, 0, 0, .ro, 0, .any⟩
def TOP_INT_STAT_TRELLIS : Fld := ⟨.topIntStat, 8, 1, .w1c, 0, .any⟩
def TOP_INT_STAT_FAB_FLOW : Fld := ⟨.topIntStat, 9, 9, .w1c, 0, .any⟩
def TOP_INT_STAT_FAB_PN : Fld := ⟨.topIntStat, 10, 10, .w1c, 0, .any⟩
def TOP_INT_STAT_FAB_LOST : Fld := ⟨.topIntStat, 11, 11, .w1c, 0, .any⟩
def TOP_INT_STAT_FAULT : Fld := ⟨.topIntStat, 12, 12, .w1c, 0, .any⟩
def TOP_INT_STAT_CKPT : Fld := ⟨.topIntStat, 13, 13, .w1c, 0, .any⟩
def TOP_INT_STAT_FUSE : Fld := ⟨.topIntStat, 14, 14, .w1c, 0, .any⟩
def TOP_INT_STAT_CELLAR : Fld := ⟨.topIntStat, 15, 15, .w1c, 0, .any⟩
def TOP_INT_STAT_NAHEL : Fld := ⟨.topIntStat, 16, 16, .w1c, 0, .any⟩
def TOP_INT_STAT_THERMAL : Fld := ⟨.topIntStat, 17, 17, .w1c, 0, .any⟩
def TOP_INT_STAT_DIR : Fld := ⟨.topIntStat, 18, 18, .w1c, 0, .any⟩
def TOP_INT_STAT_ERROR : Fld := ⟨.topIntStat, 19, 19, .ro, 0, .any⟩
/-! TOP_INT_EN (R526) -/
def TOP_INT_EN_INDEX : Fld := ⟨.topIntEn, 0, 0, .rw, 0, .any⟩
def TOP_INT_EN_TRELLIS : Fld := ⟨.topIntEn, 8, 1, .rw, 0, .any⟩
def TOP_INT_EN_FAB_FLOW : Fld := ⟨.topIntEn, 9, 9, .rw, 0, .any⟩
def TOP_INT_EN_FAB_PN : Fld := ⟨.topIntEn, 10, 10, .rw, 0, .any⟩
def TOP_INT_EN_FAB_LOST : Fld := ⟨.topIntEn, 11, 11, .rw, 0, .any⟩
def TOP_INT_EN_FAULT : Fld := ⟨.topIntEn, 12, 12, .rw, 0, .any⟩
def TOP_INT_EN_CKPT : Fld := ⟨.topIntEn, 13, 13, .rw, 0, .any⟩
def TOP_INT_EN_FUSE : Fld := ⟨.topIntEn, 14, 14, .rw, 0, .any⟩
def TOP_INT_EN_CELLAR : Fld := ⟨.topIntEn, 15, 15, .rw, 0, .any⟩
def TOP_INT_EN_NAHEL : Fld := ⟨.topIntEn, 16, 16, .rw, 0, .any⟩
def TOP_INT_EN_THERMAL : Fld := ⟨.topIntEn, 17, 17, .rw, 0, .any⟩
def TOP_INT_EN_DIR : Fld := ⟨.topIntEn, 18, 18, .rw, 0, .any⟩
def TOP_INT_EN_ERROR : Fld := ⟨.topIntEn, 19, 19, .rw, 0, .any⟩
/-! TOP_ERR_SUM (R529) -/
def TOP_ERR_SUM_ACCESS : Fld := ⟨.topErrSum, 0, 0, .w1c, 0, .any⟩
def TOP_ERR_SUM_ENABLE : Fld := ⟨.topErrSum, 1, 1, .w1c, 0, .any⟩
def TOP_ERR_SUM_ACTION : Fld := ⟨.topErrSum, 2, 2, .w1c, 0, .any⟩
/-! TOP_ERR_CNT (R529) -/
def TOP_ERR_CNT_COUNT : Fld := ⟨.topErrCnt, 31, 0, .rc, 0, .any⟩
/-! TOP_ERR_FIRST (R529) -/
def TOP_ERR_FIRST_ADDR : Fld := ⟨.topErrFirst, 51, 0, .ro, 0, .any⟩
def TOP_ERR_FIRST_KIND : Fld := ⟨.topErrFirst, 53, 52, .ro, 0, .any⟩
def TOP_ERR_FIRST_WRITE : Fld := ⟨.topErrFirst, 54, 54, .ro, 0, .any⟩
def TOP_ERR_FIRST_SOURCE : Fld := ⟨.topErrFirst, 56, 55, .ro, 0, .any⟩
def TOP_ERR_FIRST_VALID : Fld := ⟨.topErrFirst, 63, 63, .w1c, 0, .any⟩
/-! TOP_IDX_PEND (R527) -/
def TOP_IDX_PEND_PEND : Fld := ⟨.topIdxPend, 63, 0, .w1c, 0, .any⟩
/-! TOP_SCRATCH (R530) -/
def TOP_SCRATCH_VALUE : Fld := ⟨.topScratch, 63, 0, .rw, 0, .any⟩
/-! TOP_PERSIST (R530) -/
def TOP_PERSIST_VALUE : Fld := ⟨.topPersist, 63, 0, .rw, 0, .any⟩
/-! CLK_DOM (R512) -/
def CLK_DOM_MAX_DEPTH : Fld := ⟨.clkDom, 1, 0, .rw, 2, .upTo 0 2⟩
def CLK_DOM_STATE : Fld := ⟨.clkDom, 3, 2, .ro, 0, .any⟩
def CLK_DOM_WAKING : Fld := ⟨.clkDom, 4, 4, .ro, 0, .any⟩
def CLK_DOM_WAKES : Fld := ⟨.clkDom, 31, 16, .rc, 0, .any⟩
def CLK_DOM_HOLD_US : Fld := ⟨.clkDom, 63, 32, .rc, 0, .any⟩
/-! CLK_IDLE (R513) -/
def CLK_IDLE_GATE_US : Fld := ⟨.clkIdle, 15, 0, .rw, 5, .any⟩
def CLK_IDLE_STOP_US : Fld := ⟨.clkIdle, 31, 16, .rw, 1000, .any⟩
def CLK_IDLE_STAGGER_US : Fld := ⟨.clkIdle, 39, 32, .rw, 2, .any⟩
/-! CLK_WAKE (R513) -/
def CLK_WAKE_DOMAINS : Fld := ⟨.clkWake, 43, 0, .wo, 0, .any⟩
/-! CLK_TIME (R514) -/
def CLK_TIME_US : Fld := ⟨.clkTime, 63, 0, .ro, 0, .any⟩
/-! PWR_GOV (R515) -/
def PWR_GOV_SLEW_A_US : Fld := ⟨.pwrGov, 7, 0, .rw, 20, .any⟩
def PWR_GOV_STEP_UJ : Fld := ⟨.pwrGov, 23, 8, .rw, 1000, .any⟩
def PWR_GOV_BALLAST : Fld := ⟨.pwrGov, 24, 24, .rw, 1, .any⟩
/-! PWR_GOV_STAT (R515) -/
def PWR_GOV_STAT_CURRENT_A : Fld := ⟨.pwrGovStat, 11, 0, .ro, 0, .any⟩
def PWR_GOV_STAT_DUTY : Fld := ⟨.pwrGovStat, 15, 12, .ro, 0, .any⟩
def PWR_GOV_STAT_LIMITED_US : Fld := ⟨.pwrGovStat, 39, 16, .rc, 0, .any⟩
def PWR_GOV_STAT_BALLAST_US : Fld := ⟨.pwrGovStat, 63, 40, .rc, 0, .any⟩
/-! PWR_THERM_CFG (R517) -/
def PWR_THERM_CFG_DIE_THROTTLE_C : Fld := ⟨.pwrThermCfg, 7, 0, .rw, 100, .any⟩
def PWR_THERM_CFG_STACK_THROTTLE_C : Fld := ⟨.pwrThermCfg, 15, 8, .rw, 85, .any⟩
def PWR_THERM_CFG_HYST_C : Fld := ⟨.pwrThermCfg, 19, 16, .rw, 5, .any⟩
/-! PWR_THERM_STAT (R517) -/
def PWR_THERM_STAT_TRIPPED : Fld := ⟨.pwrThermStat, 0, 0, .w1c, 0, .any⟩
def PWR_THERM_STAT_THROTTLED : Fld := ⟨.pwrThermStat, 19, 5, .ro, 0, .any⟩
/-! PWR_TEMP (R516) -/
def PWR_TEMP_TEMP : Fld := ⟨.pwrTemp, 11, 0, .ro, 0, .any⟩
def PWR_TEMP_PEAK : Fld := ⟨.pwrTemp, 23, 12, .rc, 0, .any⟩
def PWR_TEMP_DUTY : Fld := ⟨.pwrTemp, 27, 24, .ro, 0, .any⟩
/-! SEC_BOOT_STAT (R494) -/
def SEC_BOOT_STAT_STATE : Fld := ⟨.secBootStat, 2, 0, .ro, 0, .any⟩
def SEC_BOOT_STAT_RESULT : Fld := ⟨.secBootStat, 15, 8, .ro, 0, .any⟩
def SEC_BOOT_STAT_SOURCE : Fld := ⟨.secBootStat, 16, 16, .ro, 0, .any⟩
def SEC_BOOT_STAT_RCV_PORT : Fld := ⟨.secBootStat, 17, 17, .ro, 0, .any⟩
def SEC_BOOT_STAT_KEY_SLOT : Fld := ⟨.secBootStat, 19, 18, .ro, 0, .any⟩
def SEC_BOOT_STAT_IDENT_OK : Fld := ⟨.secBootStat, 20, 20, .ro, 0, .any⟩
def SEC_BOOT_STAT_SVN : Fld := ⟨.secBootStat, 30, 24, .ro, 0, .any⟩
/-! SEC_FW_VER (R494) -/
def SEC_FW_VER_VERSION : Fld := ⟨.secFwVer, 63, 0, .ro, 0, .any⟩
/-! SEC_FUSE_CFG (R495) -/
def SEC_FUSE_CFG_GRADE : Fld := ⟨.secFuseCfg, 0, 0, .ro, 0, .any⟩
def SEC_FUSE_CFG_DEBUG_OFF : Fld := ⟨.secFuseCfg, 1, 1, .ro, 0, .any⟩
def SEC_FUSE_CFG_REVOKE : Fld := ⟨.secFuseCfg, 5, 2, .ro, 0, .any⟩
def SEC_FUSE_CFG_PRESENT : Fld := ⟨.secFuseCfg, 9, 6, .ro, 0, .any⟩
def SEC_FUSE_CFG_ROLLBACK : Fld := ⟨.secFuseCfg, 16, 10, .ro, 0, .any⟩
/-! SEC_FUSE_PROG (R496) -/
def SEC_FUSE_PROG_TARGET : Fld := ⟨.secFuseProg, 6, 0, .rw, 0, .any⟩
def SEC_FUSE_PROG_ADV : Fld := ⟨.secFuseProg, 7, 7, .rw, 0, .any⟩
def SEC_FUSE_PROG_REVOKE : Fld := ⟨.secFuseProg, 11, 8, .rw, 0, .any⟩
def SEC_FUSE_PROG_GO : Fld := ⟨.secFuseProg, 12, 12, .rw1s, 0, .any⟩
def SEC_FUSE_PROG_RESULT : Fld := ⟨.secFuseProg, 23, 16, .ro, 0, .any⟩
/-! SEC_LOG_STAT (R497) -/
def SEC_LOG_STAT_NEXT : Fld := ⟨.secLogStat, 31, 0, .ro, 0, .any⟩
def SEC_LOG_STAT_OLDEST : Fld := ⟨.secLogStat, 63, 32, .ro, 0, .any⟩
/-! SEC_LOG_SEL (R497) -/
def SEC_LOG_SEL_SEQ : Fld := ⟨.secLogSel, 31, 0, .rw, 0, .any⟩
/-! SEC_FUSE_HASH (R495) -/
def SEC_FUSE_HASH_HASH : Fld := ⟨.secFuseHash, 63, 0, .ro, 0, .any⟩
/-! SEC_LOG_DATA (R497) -/
def SEC_LOG_DATA_DATA : Fld := ⟨.secLogData, 63, 0, .ro, 0, .any⟩
/-! SEC_LOG_CHAIN (R497) -/
def SEC_LOG_CHAIN_DATA : Fld := ⟨.secLogChain, 63, 0, .ro, 0, .any⟩
/-! FLT_CFG (R457) -/
def FLT_CFG_COMPAT : Fld := ⟨.fltCfg, 0, 0, .rw, 0, .any⟩
def FLT_CFG_INJECT_DISRUPT : Fld := ⟨.fltCfg, 1, 1, .rw, 0, .any⟩
def FLT_CFG_ESC_COUNT : Fld := ⟨.fltCfg, 7, 4, .rw, 3, .any⟩
def FLT_CFG_ESC_WINDOW_MS : Fld := ⟨.fltCfg, 23, 8, .rw, 1000, .any⟩
def FLT_CFG_FENCE_DRAIN_US : Fld := ⟨.fltCfg, 39, 24, .rw, 500, .any⟩
/-! FLT_WDOG (R458) -/
def FLT_WDOG_CTX_MS : Fld := ⟨.fltWdog, 15, 0, .rw, 500, .any⟩
def FLT_WDOG_TILE_US : Fld := ⟨.fltWdog, 31, 16, .rw, 100, .any⟩
def FLT_WDOG_PART_MS : Fld := ⟨.fltWdog, 47, 32, .rw, 10, .any⟩
def FLT_WDOG_CHIP_MS : Fld := ⟨.fltWdog, 63, 48, .rw, 100, .any⟩
/-! FLT_KICK (R459) -/
def FLT_KICK_KICK : Fld := ⟨.fltKick, 0, 0, .wo, 0, .any⟩
/-! FLT_RESET (R459) -/
def FLT_RESET_ENGINE : Fld := ⟨.fltReset, 0, 0, .rw1s, 0, .any⟩
def FLT_RESET_PART : Fld := ⟨.fltReset, 1, 1, .rw1s, 0, .any⟩
def FLT_RESET_CHIP : Fld := ⟨.fltReset, 2, 2, .rw1s, 0, .any⟩
def FLT_RESET_PCYC : Fld := ⟨.fltReset, 3, 3, .rw1s, 0, .any⟩
def FLT_RESET_SELFTEST : Fld := ⟨.fltReset, 4, 4, .rw1s, 0, .any⟩
def FLT_RESET_TARGET : Fld := ⟨.fltReset, 14, 8, .rw, 0, .any⟩
def FLT_RESET_PARTITION : Fld := ⟨.fltReset, 18, 16, .rw, 0, .any⟩
/-! FLT_STAT (R460) -/
def FLT_STAT_LOG_NEXT : Fld := ⟨.fltStat, 4, 0, .ro, 0, .any⟩
def FLT_STAT_ENGINE_RESETS : Fld := ⟨.fltStat, 15, 8, .rc, 0, .any⟩
def FLT_STAT_PART_RESETS : Fld := ⟨.fltStat, 23, 16, .rc, 0, .any⟩
def FLT_STAT_CHIP_RESETS : Fld := ⟨.fltStat, 31, 24, .rc, 0, .any⟩
def FLT_STAT_REPAIR_UNNAMED : Fld := ⟨.fltStat, 47, 32, .rc, 0, .any⟩
def FLT_STAT_INJ_SKIPPED : Fld := ⟨.fltStat, 63, 48, .rc, 0, .any⟩
/-! FLT_OUT_TILE (R462) -/
def FLT_OUT_TILE_OUT : Fld := ⟨.fltOutTile, 63, 0, .ro, 0, .any⟩
/-! FLT_CKPT (R464) -/
def FLT_CKPT_GO : Fld := ⟨.fltCkpt, 0, 0, .rw1s, 0, .any⟩
def FLT_CKPT_OP : Fld := ⟨.fltCkpt, 2, 1, .rw, 0, .upTo 1 3⟩
def FLT_CKPT_INDEX : Fld := ⟨.fltCkpt, 15, 4, .rw, 0, .any⟩
def FLT_CKPT_NS : Fld := ⟨.fltCkpt, 27, 16, .rw, 0, .any⟩
/-! FLT_CKPT_STAT (R464) -/
def FLT_CKPT_STAT_STATE : Fld := ⟨.fltCkptStat, 1, 0, .ro, 0, .any⟩
def FLT_CKPT_STAT_RESULT : Fld := ⟨.fltCkptStat, 15, 8, .ro, 0, .any⟩
/-! FLT_CKPT_VINT (R464) -/
def FLT_CKPT_VINT_VINTAGE : Fld := ⟨.fltCkptVint, 63, 0, .ro, 0, .any⟩
/-! FLT_OUT_PRESS (R462) -/
def FLT_OUT_PRESS_OUT : Fld := ⟨.fltOutPress, 63, 0, .ro, 0, .any⟩
/-! FLT_INJ (R463) -/
def FLT_INJ_ENABLE : Fld := ⟨.fltInj, 0, 0, .rw, 0, .any⟩
def FLT_INJ_CLASS : Fld := ⟨.fltInj, 15, 8, .rw, 0, .any⟩
def FLT_INJ_TARGET : Fld := ⟨.fltInj, 27, 16, .rw, 0, .any⟩
def FLT_INJ_PERIOD_S : Fld := ⟨.fltInj, 43, 28, .rw, 0, .any⟩
/-! FLT_LOG (R461) -/
def FLT_LOG_CLASS : Fld := ⟨.fltLog, 7, 0, .ro, 0, .any⟩
def FLT_LOG_LEVEL : Fld := ⟨.fltLog, 10, 8, .ro, 0, .any⟩
def FLT_LOG_ACTION : Fld := ⟨.fltLog, 13, 11, .ro, 0, .any⟩
def FLT_LOG_INJECTED : Fld := ⟨.fltLog, 14, 14, .ro, 0, .any⟩
def FLT_LOG_UNIT : Fld := ⟨.fltLog, 27, 16, .ro, 0, .any⟩
def FLT_LOG_CAUSE : Fld := ⟨.fltLog, 35, 28, .ro, 0, .any⟩
def FLT_LOG_VALID : Fld := ⟨.fltLog, 63, 63, .w1c, 0, .any⟩
def FLT_LOG_DETECT_US : Fld := ⟨.fltLog, 31, 0, .ro, 0, .any⟩
def FLT_LOG_DONE_US : Fld := ⟨.fltLog, 63, 32, .ro, 0, .any⟩
/-! FLT_ADMIT (R465) -/
def FLT_ADMIT_HOLD : Fld := ⟨.fltAdmit, 0, 0, .rw, 0, .any⟩
/-! TRL_STORE (R340) -/
def TRL_STORE_ADDR : Fld := ⟨.trlStore, 51, 24, .rw, 0, .any⟩
/-! TRL_LIMITS (R340) -/
def TRL_LIMITS_GAP_MAX : Fld := ⟨.trlLimits, 31, 0, .rw, 65536, .upTo 1 4294967295⟩
/-! TRL_SRC (R334) -/
def TRL_SRC_ADDR : Fld := ⟨.trlSrc, 51, 6, .rw, 0, .any⟩
def TRL_SRC_SIZE_64K : Fld := ⟨.trlSrc, 63, 52, .rw, 0, .any⟩
/-! TRL_CTL (R335) -/
def TRL_CTL_LOAD : Fld := ⟨.trlCtl, 0, 0, .rw1s, 0, .any⟩
def TRL_CTL_UNLOAD : Fld := ⟨.trlCtl, 1, 1, .rw1s, 0, .any⟩
def TRL_CTL_DRAIN_MS : Fld := ⟨.trlCtl, 15, 8, .rw, 10, .any⟩
/-! TRL_STAT (R336) -/
def TRL_STAT_STATE : Fld := ⟨.trlStat, 2, 0, .ro, 0, .any⟩
def TRL_STAT_RESULT : Fld := ⟨.trlStat, 15, 8, .ro, 0, .any⟩
def TRL_STAT_TILES : Fld := ⟨.trlStat, 22, 16, .ro, 0, .any⟩
def TRL_STAT_PRESS : Fld := ⟨.trlStat, 32, 23, .ro, 0, .any⟩
def TRL_STAT_MAX_LIVE : Fld := ⟨.trlStat, 47, 33, .ro, 0, .any⟩
/-! TRL_BUILD (R337) -/
def TRL_BUILD_VALUE : Fld := ⟨.trlBuild, 63, 0, .ro, 0, .any⟩
/-! TRL_DIGEST (R337) -/
def TRL_DIGEST_VALUE : Fld := ⟨.trlDigest, 63, 0, .ro, 0, .any⟩
/-! TRL_KEY_CFG (R338) -/
def TRL_KEY_CFG_VALID : Fld := ⟨.trlKeyCfg, 0, 0, .rw, 0, .any⟩
def TRL_KEY_CFG_PART_MASK : Fld := ⟨.trlKeyCfg, 15, 8, .rw, 0, .any⟩
def TRL_KEY_CFG_LOCK : Fld := ⟨.trlKeyCfg, 16, 16, .rw, 0, .any⟩
/-! TRL_KEY_HASH (R338) -/
def TRL_KEY_HASH_HASH : Fld := ⟨.trlKeyHash, 63, 0, .rw, 0, .any⟩
/-! TRL_TILE_OWN (R339) -/
def TRL_TILE_OWN_OWNER : Fld := ⟨.trlTileOwn, 63, 0, .ro, 0, .any⟩
/-! TRL_PRESS_OWN (R339) -/
def TRL_PRESS_OWN_OWNER : Fld := ⟨.trlPressOwn, 63, 0, .ro, 0, .any⟩
/-! MERGE_CFG (R184) -/
def MERGE_CFG_DEDUP_SEARCH : Fld := ⟨.mergeCfg, 0, 0, .rw, 1, .any⟩
def MERGE_CFG_DEDUP_ATTN : Fld := ⟨.mergeCfg, 1, 1, .rw, 0, .any⟩
/-! MERGE_SCRATCH (R185) -/
def MERGE_SCRATCH_ADDR : Fld := ⟨.mergeScratch, 51, 6, .rw, 0, .any⟩
def MERGE_SCRATCH_SIZE_MIB : Fld := ⟨.mergeScratch, 63, 52, .rw, 0, .any⟩
/-! MERGE_STAT (R186) -/
def MERGE_STAT_SELECTIONS : Fld := ⟨.mergeStat, 15, 0, .rc, 0, .any⟩
def MERGE_STAT_MULTIPASS : Fld := ⟨.mergeStat, 31, 16, .rc, 0, .any⟩
def MERGE_STAT_RESCANS : Fld := ⟨.mergeStat, 47, 32, .rc, 0, .any⟩
def MERGE_STAT_DUPS : Fld := ⟨.mergeStat, 63, 48, .rc, 0, .any⟩
/-! DIR_STORE (R313) -/
def DIR_STORE_ADDR : Fld := ⟨.dirStore, 51, 6, .rw, 0, .any⟩
def DIR_STORE_SIZE : Fld := ⟨.dirStore, 63, 52, .rw, 0, .any⟩
/-! DIR_REC (R313) -/
def DIR_REC_ADDR : Fld := ⟨.dirRec, 51, 16, .rw, 0, .any⟩
/-! DIR_CFG (R314) -/
def DIR_CFG_RECALL_TIMEOUT_US : Fld := ⟨.dirCfg, 15, 0, .rw, 50, .upTo 1 65535⟩
def DIR_CFG_DRAIN_TIMEOUT_US : Fld := ⟨.dirCfg, 31, 16, .rw, 200, .any⟩
def DIR_CFG_COUNT_PERIOD_MS : Fld := ⟨.dirCfg, 39, 32, .rw, 10, .any⟩
def DIR_CFG_LOW_FRAMES_K : Fld := ⟨.dirCfg, 47, 40, .rw, 16, .any⟩
def DIR_CFG_HIGH_FRAMES_K : Fld := ⟨.dirCfg, 55, 48, .rw, 32, .any⟩
/-! DIR_STAT (R312) -/
def DIR_STAT_RECALLS : Fld := ⟨.dirStat, 15, 0, .rc, 0, .any⟩
def DIR_STAT_RECALL_TIMEOUTS : Fld := ⟨.dirStat, 31, 16, .rc, 0, .any⟩
def DIR_STAT_POISONED_LINES : Fld := ⟨.dirStat, 47, 32, .rc, 0, .any⟩
def DIR_STAT_LATE_DROP : Fld := ⟨.dirStat, 63, 48, .rc, 0, .any⟩
/-! POOL_CFG (R308) -/
def POOL_CFG_ADMIN_TENANT : Fld := ⟨.poolCfg, 7, 0, .rw, 0, .any⟩
/-! POOL_CAT (R309) -/
def POOL_CAT_ADDR : Fld := ⟨.poolCat, 51, 6, .rw, 0, .any⟩
/-! POOL_CAT_INVAL (R310) -/
def POOL_CAT_INVAL_SLOT : Fld := ⟨.poolCatInval, 12, 0, .wo, 0, .any⟩
def POOL_CAT_INVAL_ALL : Fld := ⟨.poolCatInval, 13, 13, .wo, 0, .any⟩
/-! POOL_AGENT_LOST (R310) -/
def POOL_AGENT_LOST_AGENT : Fld := ⟨.poolAgentLost, 17, 0, .wo, 0, .any⟩
/-! POOL_STAT (R312) -/
def POOL_STAT_DENIED : Fld := ⟨.poolStat, 15, 0, .rc, 0, .any⟩
def POOL_STAT_FENCED : Fld := ⟨.poolStat, 31, 16, .rc, 0, .any⟩
def POOL_STAT_FETCHES : Fld := ⟨.poolStat, 47, 32, .rc, 0, .any⟩
def POOL_STAT_EVICTS : Fld := ⟨.poolStat, 63, 48, .rc, 0, .any⟩
/-! POOL_FRAMES (R311) -/
def POOL_FRAMES_FRAMES : Fld := ⟨.poolFrames, 63, 0, .rw, 0, .any⟩
/-! POOL_LENT (R311) -/
def POOL_LENT_LENT : Fld := ⟨.poolLent, 63, 0, .ro, 0, .any⟩
/-! NL_PORT_CFG (R428) -/
def NL_PORT_CFG_ENABLE : Fld := ⟨.nlPortCfg, 0, 0, .rw, 0, .any⟩
def NL_PORT_CFG_REPLAY_16NS : Fld := ⟨.nlPortCfg, 15, 8, .rw, 125, .any⟩
def NL_PORT_CFG_REPLAY_MAX : Fld := ⟨.nlPortCfg, 19, 16, .rw, 4, .any⟩
def NL_PORT_CFG_DEV_VEC : Fld := ⟨.nlPortCfg, 35, 20, .rw, 0, .any⟩
def NL_PORT_CFG_DEV_EN : Fld := ⟨.nlPortCfg, 36, 36, .rw, 0, .any⟩
def NL_PORT_CFG_MOD_100NS : Fld := ⟨.nlPortCfg, 47, 40, .rw, 0, .any⟩
/-! NL_PORT_STAT (R429) -/
def NL_PORT_STAT_STATE : Fld := ⟨.nlPortStat, 2, 0, .ro, 0, .any⟩
def NL_PORT_STAT_REVERSED : Fld := ⟨.nlPortStat, 3, 3, .ro, 0, .any⟩
def NL_PORT_STAT_POLARITY : Fld := ⟨.nlPortStat, 7, 4, .ro, 0, .any⟩
def NL_PORT_STAT_GEN : Fld := ⟨.nlPortStat, 23, 8, .ro, 0, .any⟩
def NL_PORT_STAT_RETRAINS : Fld := ⟨.nlPortStat, 39, 24, .rc, 0, .any⟩
/-! NL_LINK_ERR (R430) -/
def NL_LINK_ERR_FEC_CORR : Fld := ⟨.nlLinkErr, 23, 0, .rc, 0, .any⟩
def NL_LINK_ERR_CRC_FAIL : Fld := ⟨.nlLinkErr, 39, 24, .rc, 0, .any⟩
def NL_LINK_ERR_REPLAYS : Fld := ⟨.nlLinkErr, 55, 40, .rc, 0, .any⟩
/-! NL_TXN_ERR (R430) -/
def NL_TXN_ERR_DENIED : Fld := ⟨.nlTxnErr, 15, 0, .rc, 0, .any⟩
def NL_TXN_ERR_MALFORMED : Fld := ⟨.nlTxnErr, 31, 16, .rc, 0, .any⟩
def NL_TXN_ERR_LATE_GEN : Fld := ⟨.nlTxnErr, 47, 32, .rc, 0, .any⟩
/-! NL_WIN_BASE (R431) -/
def NL_WIN_BASE_BASE : Fld := ⟨.nlWinBase, 51, 16, .rw, 0, .any⟩
/-! NL_WIN_CFG (R431) -/
def NL_WIN_CFG_VALID : Fld := ⟨.nlWinCfg, 0, 0, .rw, 0, .any⟩
def NL_WIN_CFG_READ : Fld := ⟨.nlWinCfg, 1, 1, .rw, 0, .any⟩
def NL_WIN_CFG_WRITE : Fld := ⟨.nlWinCfg, 2, 2, .rw, 0, .any⟩
def NL_WIN_CFG_REG_ALL : Fld := ⟨.nlWinCfg, 3, 3, .rw, 0, .any⟩
def NL_WIN_CFG_TENANT : Fld := ⟨.nlWinCfg, 11, 4, .rw, 0, .any⟩
def NL_WIN_CFG_SIZE_64K : Fld := ⟨.nlWinCfg, 51, 16, .rw, 0, .any⟩
/-! NL_CTX_VEC (R432) -/
def NL_CTX_VEC_VECTOR : Fld := ⟨.nlCtxVec, 15, 0, .rw, 0, .any⟩
def NL_CTX_VEC_PORT : Fld := ⟨.nlCtxVec, 16, 16, .rw, 0, .any⟩
def NL_CTX_VEC_EN : Fld := ⟨.nlCtxVec, 17, 17, .rw, 0, .any⟩
/-! CELLAR_CFG (R267) -/
def CELLAR_CFG_RATED_PE : Fld := ⟨.cellarCfg, 15, 0, .rw, 3000, .any⟩
def CELLAR_CFG_OP_256 : Fld := ⟨.cellarCfg, 23, 16, .rw, 28, .any⟩
def CELLAR_CFG_LOG_FLUSH_US : Fld := ⟨.cellarCfg, 31, 24, .rw, 100, .upTo 1 255⟩
def CELLAR_CFG_VERIFY_LIMIT : Fld := ⟨.cellarCfg, 39, 32, .rw, 96, .any⟩
def CELLAR_CFG_RO_SPARE : Fld := ⟨.cellarCfg, 47, 40, .rw, 8, .any⟩
def CELLAR_CFG_TEMP_FEAT : Fld := ⟨.cellarCfg, 55, 48, .rw, 0, .any⟩
def CELLAR_CFG_WEAR_SPREAD_LOG2 : Fld := ⟨.cellarCfg, 59, 56, .rw, 8, .any⟩
def CELLAR_CFG_DEBUG_WIN : Fld := ⟨.cellarCfg, 60, 60, .rw, 0, .any⟩
def CELLAR_CFG_START : Fld := ⟨.cellarCfg, 61, 61, .rw1s, 0, .any⟩
/-! CELLAR_NS_DESC (R270) -/
def CELLAR_NS_DESC_ADDR : Fld := ⟨.cellarNsDesc, 51, 6, .rw, 0, .any⟩
/-! CELLAR_MAP_CACHE (R272) -/
def CELLAR_MAP_CACHE_ADDR : Fld := ⟨.cellarMapCache, 51, 6, .rw, 0, .any⟩
def CELLAR_MAP_CACHE_SIZE : Fld := ⟨.cellarMapCache, 63, 52, .rw, 0, .any⟩
/-! CELLAR_PARITY (R272) -/
def CELLAR_PARITY_ADDR : Fld := ⟨.cellarParity, 51, 6, .rw, 0, .any⟩
def CELLAR_PARITY_SIZE : Fld := ⟨.cellarParity, 63, 52, .rw, 0, .any⟩
/-! CELLAR_LOG_TRIM (R273) -/
def CELLAR_LOG_TRIM_SEQ : Fld := ⟨.cellarLogTrim, 63, 0, .rw, 0, .any⟩
/-! CELLAR_CAP (R275) -/
def CELLAR_CAP_USER_SLOTS : Fld := ⟨.cellarCap, 39, 0, .ro, 0, .any⟩
/-! CELLAR_HEALTH (R275) -/
def CELLAR_HEALTH_SPARE_LEFT : Fld := ⟨.cellarHealth, 31, 0, .ro, 0, .any⟩
def CELLAR_HEALTH_WEAR_USED : Fld := ⟨.cellarHealth, 47, 32, .ro, 0, .any⟩
def CELLAR_HEALTH_READ_ONLY : Fld := ⟨.cellarHealth, 48, 48, .ro, 0, .any⟩
/-! CELLAR_DEBUG (R279) -/
def CELLAR_DEBUG_CH : Fld := ⟨.cellarDebug, 5, 0, .rw, 0, .upTo 0 47⟩
/-! CELLAR_ERR_A (R276) -/
def CELLAR_ERR_A_RETRY : Fld := ⟨.cellarErrA, 15, 0, .rc, 0, .any⟩
def CELLAR_ERR_A_SOFT : Fld := ⟨.cellarErrA, 31, 16, .rc, 0, .any⟩
def CELLAR_ERR_A_PARITY : Fld := ⟨.cellarErrA, 47, 32, .rc, 0, .any⟩
def CELLAR_ERR_A_UNCORR : Fld := ⟨.cellarErrA, 63, 48, .rc, 0, .any⟩
/-! CELLAR_ERR_B (R276) -/
def CELLAR_ERR_B_PROG_FAIL : Fld := ⟨.cellarErrB, 15, 0, .rc, 0, .any⟩
def CELLAR_ERR_B_ERASE_FAIL : Fld := ⟨.cellarErrB, 31, 16, .rc, 0, .any⟩
def CELLAR_ERR_B_VERIFY_MOVE : Fld := ⟨.cellarErrB, 47, 32, .rc, 0, .any⟩
def CELLAR_ERR_B_DEADLINE : Fld := ⟨.cellarErrB, 63, 48, .rc, 0, .any⟩
/-! CELLAR_RETRY (R274) -/
def CELLAR_RETRY_FEAT : Fld := ⟨.cellarRetry, 7, 0, .rw, 0, .any⟩
def CELLAR_RETRY_PARAM : Fld := ⟨.cellarRetry, 39, 8, .rw, 0, .any⟩
def CELLAR_RETRY_VALID : Fld := ⟨.cellarRetry, 40, 40, .rw, 0, .any⟩
/-! CELLAR_CH_CFG (R268) -/
def CELLAR_CH_CFG_ENABLE : Fld := ⟨.cellarChCfg, 0, 0, .rw, 0, .any⟩
def CELLAR_CH_CFG_RATE : Fld := ⟨.cellarChCfg, 3, 1, .rw, 4, .upTo 0 4⟩
def CELLAR_CH_CFG_TARGETS : Fld := ⟨.cellarChCfg, 7, 4, .rw, 0, .upTo 0 8⟩
/-! CELLAR_CH_STAT (R269) -/
def CELLAR_CH_STAT_STATE : Fld := ⟨.cellarChStat, 2, 0, .ro, 0, .any⟩
def CELLAR_CH_STAT_LUNS : Fld := ⟨.cellarChStat, 4, 3, .ro, 0, .any⟩
def CELLAR_CH_STAT_READS : Fld := ⟨.cellarChStat, 39, 8, .rc, 0, .any⟩
def CELLAR_CH_STAT_PROGRAMS : Fld := ⟨.cellarChStat, 63, 40, .rc, 0, .any⟩
/-! CELLAR_NS_EN (R271) -/
def CELLAR_NS_EN_ENABLE : Fld := ⟨.cellarNsEn, 63, 0, .rw, 0, .any⟩
/-! CELLAR_TEMP_HIST (R277) -/
def CELLAR_TEMP_HIST_BIN_LO : Fld := ⟨.cellarTempHist, 31, 0, .rc, 0, .any⟩
def CELLAR_TEMP_HIST_BIN_HI : Fld := ⟨.cellarTempHist, 63, 32, .rc, 0, .any⟩
/-! CELLAR_LDPC_BASE (R278) -/
def CELLAR_LDPC_BASE_EXP : Fld := ⟨.cellarLdpcBase, 63, 0, .ro, 0, .any⟩
/-! VINT_CLOSE (R96) -/
def VINT_CLOSE_INDEX : Fld := ⟨.vintClose, 11, 0, .wo, 0, .any⟩
/-! VINT_RACK_CFG (R98) -/
def VINT_RACK_CFG_DEAD_THRESH : Fld := ⟨.vintRackCfg, 2, 0, .rw, 5, .any⟩
def VINT_RACK_CFG_REBASE_LOG2 : Fld := ⟨.vintRackCfg, 12, 8, .rw, 30, .upTo 20 30⟩
def VINT_RACK_CFG_RACK_SHARE : Fld := ⟨.vintRackCfg, 23, 16, .rw, 16, .any⟩
/-! VINT_SPILL_CFG (R99) -/
def VINT_SPILL_CFG_SPILL_BLOCKS : Fld := ⟨.vintSpillCfg, 23, 0, .rw, 8388608, .any⟩
def VINT_SPILL_CFG_SPILL_USED : Fld := ⟨.vintSpillCfg, 47, 24, .ro, 0, .any⟩
def VINT_SPILL_CFG_APPEND_SHARE : Fld := ⟨.vintSpillCfg, 55, 48, .rw, 8, .any⟩
/-! VINT_FREE_MAP (R558) -/
def VINT_FREE_MAP_ADDR : Fld := ⟨.vintFreeMap, 51, 6, .rw, 0, .any⟩
/-! VINT_IDX_CFG (R91) -/
def VINT_IDX_CFG_ENABLE : Fld := ⟨.vintIdxCfg, 0, 0, .rw, 0, .any⟩
def VINT_IDX_CFG_CODE_LEN : Fld := ⟨.vintIdxCfg, 2, 1, .rw, 0, .upTo 0 2⟩
def VINT_IDX_CFG_CODE_FMT : Fld := ⟨.vintIdxCfg, 6, 3, .rw, 0, .upTo 8 10⟩
def VINT_IDX_CFG_MODE : Fld := ⟨.vintIdxCfg, 8, 7, .rw, 0, .upTo 0 2⟩
def VINT_IDX_CFG_SCOPE : Fld := ⟨.vintIdxCfg, 9, 9, .rw, 0, .any⟩
def VINT_IDX_CFG_TENANT : Fld := ⟨.vintIdxCfg, 17, 10, .rw, 0, .any⟩
def VINT_IDX_CFG_PARTITION : Fld := ⟨.vintIdxCfg, 20, 18, .rw, 0, .any⟩
def VINT_IDX_CFG_LIST_COUNT : Fld := ⟨.vintIdxCfg, 44, 21, .rw, 0, .any⟩
/-! VINT_IDX_LISTS (R92) -/
def VINT_IDX_LISTS_ADDR : Fld := ⟨.vintIdxLists, 51, 6, .rw, 0, .any⟩
/-! VINT_IDX_LOC (R93) -/
def VINT_IDX_LOC_ADDR : Fld := ⟨.vintIdxLoc, 51, 6, .rw, 0, .any⟩
def VINT_IDX_LOC_LOG2_SLOTS : Fld := ⟨.vintIdxLoc, 57, 52, .rw, 0, .upTo 10 34⟩
/-! VINT_TRIG (R94) -/
def VINT_TRIG_UPD_COUNT : Fld := ⟨.vintTrig, 31, 0, .rw, 65536, .any⟩
def VINT_TRIG_INTERVAL_US : Fld := ⟨.vintTrig, 55, 32, .rw, 1000, .any⟩
/-! VINT_CUR (R95) -/
def VINT_CUR_VINTAGE : Fld := ⟨.vintCur, 63, 0, .ro, 0, .any⟩
/-! VINT_DURABLE (R95) -/
def VINT_DURABLE_VINTAGE : Fld := ⟨.vintDurable, 63, 0, .ro, 0, .any⟩
/-! VINT_HORIZON (R95) -/
def VINT_HORIZON_VINTAGE : Fld := ⟨.vintHorizon, 63, 0, .ro, 0, .any⟩
/-! VINT_STAT (R97) -/
def VINT_STAT_CLOSE_OVERRUN : Fld := ⟨.vintStat, 15, 0, .rc, 0, .any⟩
def VINT_STAT_DELETE_MISS : Fld := ⟨.vintStat, 31, 16, .rc, 0, .any⟩
def VINT_STAT_PIN_REVOKED : Fld := ⟨.vintStat, 47, 32, .rc, 0, .any⟩
def VINT_STAT_FORCED_REBASE : Fld := ⟨.vintStat, 63, 48, .rc, 0, .any⟩
/-! VINT_IDX_ROUTE (R161) -/
def VINT_IDX_ROUTE_ADDR : Fld := ⟨.vintIdxRoute, 51, 6, .rw, 0, .any⟩
/-! VINT_IDX_BOOK (R161) -/
def VINT_IDX_BOOK_ADDR : Fld := ⟨.vintIdxBook, 51, 6, .rw, 0, .any⟩
/-! VINT_IDX_QCFG (R162) -/
def VINT_IDX_QCFG_DIM : Fld := ⟨.vintIdxQcfg, 13, 0, .rw, 0, .any⟩
def VINT_IDX_QCFG_RERANK_EN : Fld := ⟨.vintIdxQcfg, 16, 16, .rw, 0, .any⟩
def VINT_IDX_QCFG_VEC_FMT : Fld := ⟨.vintIdxQcfg, 20, 17, .rw, 0, .upTo 0 5⟩
def VINT_IDX_QCFG_RERANK_NS : Fld := ⟨.vintIdxQcfg, 39, 24, .rw, 0, .any⟩
def VINT_IDX_QCFG_GRAPH_DEG : Fld := ⟨.vintIdxQcfg, 41, 40, .rw, 0, .any⟩
/-! VINT_IDX_GRAPH (R163) -/
def VINT_IDX_GRAPH_ADDR : Fld := ⟨.vintIdxGraph, 51, 6, .rw, 0, .any⟩
/-! PRESS_GROUP (R131) -/
def PRESS_GROUP_PRESS : Fld := ⟨.pressGroup, 63, 0, .rw, 0, .any⟩
/-! PRESS_SHARE (R132) -/
def PRESS_SHARE_RATIO : Fld := ⟨.pressShare, 7, 0, .rw, 240, .any⟩
def PRESS_SHARE_GAP_MAX : Fld := ⟨.pressShare, 19, 8, .rw, 64, .any⟩
def PRESS_SHARE_READ_RATIO : Fld := ⟨.pressShare, 23, 20, .rw, 4, .any⟩
/-! PRESS_ERR (R137) -/
def PRESS_ERR_REFUSED : Fld := ⟨.pressErr, 15, 0, .rc, 0, .any⟩
def PRESS_ERR_MODE_MISMATCH : Fld := ⟨.pressErr, 31, 16, .rc, 0, .any⟩
/-! PRESS_WIN_LEN (R133) -/
def PRESS_WIN_LEN_LEN : Fld := ⟨.pressWinLen, 11, 0, .ro, 0, .any⟩
def PRESS_WIN_LEN_ELAPSED : Fld := ⟨.pressWinLen, 23, 12, .ro, 0, .any⟩
def PRESS_WIN_LEN_BANKS : Fld := ⟨.pressWinLen, 39, 24, .ro, 0, .any⟩
def PRESS_WIN_LEN_OP : Fld := ⟨.pressWinLen, 47, 40, .ro, 0, .any⟩
/-! PRESS_WIN_STAT (R134) -/
def PRESS_WIN_STAT_WIN_CYCLES : Fld := ⟨.pressWinStat, 31, 0, .rc, 0, .any⟩
def PRESS_WIN_STAT_IDLE_SLOTS : Fld := ⟨.pressWinStat, 55, 32, .rc, 0, .any⟩
def PRESS_WIN_STAT_TRUNC : Fld := ⟨.pressWinStat, 63, 56, .rc, 0, .any⟩
/-! PRESS_ECC_CNT (R135) -/
def PRESS_ECC_CNT_CORRECTED : Fld := ⟨.pressEccCnt, 31, 0, .rc, 0, .any⟩
def PRESS_ECC_CNT_UNCORR : Fld := ⟨.pressEccCnt, 47, 32, .rc, 0, .any⟩
def PRESS_ECC_CNT_POISON : Fld := ⟨.pressEccCnt, 63, 48, .rc, 0, .any⟩
/-! PRESS_ECC_LOG (R136) -/
def PRESS_ECC_LOG_BLOCK : Fld := ⟨.pressEccLog, 23, 0, .ro, 0, .any⟩
def PRESS_ECC_LOG_CW : Fld := ⟨.pressEccLog, 30, 24, .ro, 0, .any⟩
def PRESS_ECC_LOG_SYMBOL : Fld := ⟨.pressEccLog, 33, 31, .ro, 0, .any⟩
def PRESS_ECC_LOG_CLASS : Fld := ⟨.pressEccLog, 35, 34, .ro, 0, .any⟩
def PRESS_ECC_LOG_VALID : Fld := ⟨.pressEccLog, 63, 63, .w1c, 0, .any⟩
/-! PRESS_NUM_STAT (R54) -/
def PRESS_NUM_STAT_NAN_COUNT : Fld := ⟨.pressNumStat, 31, 0, .rc, 0, .any⟩
def PRESS_NUM_STAT_SAT_COUNT : Fld := ⟨.pressNumStat, 63, 32, .rc, 0, .any⟩
/-! PRESS_LOAD (R165) -/
def PRESS_LOAD_SCAN_BLOCKS : Fld := ⟨.pressLoad, 31, 0, .rc, 0, .any⟩
def PRESS_LOAD_QUEUE_PEAK : Fld := ⟨.pressLoad, 38, 32, .rc, 0, .any⟩
/-! FAB_NODE (R400) -/
def FAB_NODE_NODE_ID : Fld := ⟨.fabNode, 15, 0, .rw, 0, .any⟩
def FAB_NODE_ETHERTYPE : Fld := ⟨.fabNode, 31, 16, .rw, 34997, .any⟩
def FAB_NODE_UDP_PORT : Fld := ⟨.fabNode, 47, 32, .rw, 47209, .any⟩
/-! FAB_PEER_TAB (R403) -/
def FAB_PEER_TAB_ADDR : Fld := ⟨.fabPeerTab, 51, 22, .rw, 0, .any⟩
/-! FAB_PEER_CTL (R403) -/
def FAB_PEER_CTL_NODE : Fld := ⟨.fabPeerCtl, 15, 0, .wo, 0, .any⟩
def FAB_PEER_CTL_ADMIT : Fld := ⟨.fabPeerCtl, 16, 16, .wo, 0, .any⟩
def FAB_PEER_CTL_LOST : Fld := ⟨.fabPeerCtl, 17, 17, .wo, 0, .any⟩
/-! FAB_TIMERS (R407) -/
def FAB_TIMERS_KEEPALIVE_US : Fld := ⟨.fabTimers, 7, 0, .rw, 100, .any⟩
def FAB_TIMERS_LOST_MS : Fld := ⟨.fabTimers, 15, 8, .rw, 20, .any⟩
def FAB_TIMERS_RTO_US : Fld := ⟨.fabTimers, 23, 16, .rw, 20, .any⟩
def FAB_TIMERS_RETRIES : Fld := ⟨.fabTimers, 27, 24, .rw, 8, .any⟩
def FAB_TIMERS_SUBREQ_MS : Fld := ⟨.fabTimers, 39, 32, .rw, 10, .any⟩
def FAB_TIMERS_MAP_DRAIN_MS : Fld := ⟨.fabTimers, 47, 40, .rw, 10, .any⟩
/-! FAB_GLB_STAT (R411) -/
def FAB_GLB_STAT_LATE : Fld := ⟨.fabGlbStat, 15, 0, .rc, 0, .any⟩
def FAB_GLB_STAT_MOVED : Fld := ⟨.fabGlbStat, 31, 16, .rc, 0, .any⟩
def FAB_GLB_STAT_STALE : Fld := ⟨.fabGlbStat, 47, 32, .rc, 0, .any⟩
def FAB_GLB_STAT_ADMIT_FAIL : Fld := ⟨.fabGlbStat, 63, 48, .rc, 0, .any⟩
/-! FAB_PORT_CFG (R401) -/
def FAB_PORT_CFG_ENABLE : Fld := ⟨.fabPortCfg, 0, 0, .rw, 0, .any⟩
def FAB_PORT_CFG_MODE : Fld := ⟨.fabPortCfg, 1, 1, .rw, 0, .any⟩
def FAB_PORT_CFG_MEDIA : Fld := ⟨.fabPortCfg, 2, 2, .rw, 0, .any⟩
def FAB_PORT_CFG_IPV6 : Fld := ⟨.fabPortCfg, 3, 3, .rw, 0, .any⟩
def FAB_PORT_CFG_MACSEC : Fld := ⟨.fabPortCfg, 4, 4, .rw, 0, .any⟩
def FAB_PORT_CFG_REPLAY_WIN : Fld := ⟨.fabPortCfg, 15, 8, .rw, 0, .any⟩
/-! FAB_PORT_STAT (R402) -/
def FAB_PORT_STAT_STATE : Fld := ⟨.fabPortStat, 2, 0, .ro, 0, .any⟩
def FAB_PORT_STAT_FEC_CORR : Fld := ⟨.fabPortStat, 31, 8, .rc, 0, .any⟩
def FAB_PORT_STAT_FEC_UNCORR : Fld := ⟨.fabPortStat, 47, 32, .rc, 0, .any⟩
def FAB_PORT_STAT_RETX : Fld := ⟨.fabPortStat, 63, 48, .rc, 0, .any⟩
/-! FAB_DROP (R402) -/
def FAB_DROP_UNKNOWN : Fld := ⟨.fabDrop, 15, 0, .rc, 0, .any⟩
def FAB_DROP_POLICED : Fld := ⟨.fabDrop, 31, 16, .rc, 0, .any⟩
def FAB_DROP_MACSEC : Fld := ⟨.fabDrop, 47, 32, .rc, 0, .any⟩
def FAB_DROP_MALFORMED : Fld := ⟨.fabDrop, 63, 48, .rc, 0, .any⟩
/-! FAB_SHAPE (R405) -/
def FAB_SHAPE_RATE : Fld := ⟨.fabShape, 11, 0, .rw, 0, .any⟩
def FAB_SHAPE_BURST_KIB : Fld := ⟨.fabShape, 31, 16, .rw, 64, .any⟩
def FAB_SHAPE_FILL : Fld := ⟨.fabShape, 32, 32, .rw, 1, .any⟩
/-! FAB_POLICE (R405) -/
def FAB_POLICE_RATE : Fld := ⟨.fabPolice, 11, 0, .rw, 0, .any⟩
def FAB_POLICE_BURST_KIB : Fld := ⟨.fabPolice, 31, 16, .rw, 64, .any⟩
def FAB_POLICE_FILL : Fld := ⟨.fabPolice, 32, 32, .rw, 1, .any⟩
/-! FAB_MACSEC_SA (R406) -/
def FAB_MACSEC_SA_VALID : Fld := ⟨.fabMacsecSa, 0, 0, .rw, 0, .any⟩
def FAB_MACSEC_SA_ACTIVE : Fld := ⟨.fabMacsecSa, 1, 1, .rw, 0, .any⟩
def FAB_MACSEC_SA_PN : Fld := ⟨.fabMacsecSa, 63, 32, .rw, 0, .any⟩
/-! FAB_QUEUE (R404) -/
def FAB_QUEUE_IDLE_SLOPE : Fld := ⟨.fabQueue, 11, 0, .rw, 56, .any⟩
def FAB_QUEUE_CRED_MAX_KIB : Fld := ⟨.fabQueue, 23, 16, .rw, 16, .any⟩
/-! FAB_MACSEC_KEY (R406) -/
def FAB_MACSEC_KEY_KEY : Fld := ⟨.fabMacsecKey, 63, 0, .wo, 0, .any⟩
/-! FAB_COMP_MAP (R408) -/
def FAB_COMP_MAP_ADDR : Fld := ⟨.fabCompMap, 51, 6, .rw, 0, .any⟩
/-! FAB_COMP_BCAST (R408) -/
def FAB_COMP_BCAST_ADDR : Fld := ⟨.fabCompBcast, 51, 6, .rw, 0, .any⟩
def FAB_COMP_BCAST_SIZE_MIB : Fld := ⟨.fabCompBcast, 63, 52, .rw, 0, .any⟩
/-! FAB_COMP_CTL (R409) -/
def FAB_COMP_CTL_INSTALL : Fld := ⟨.fabCompCtl, 0, 0, .rw1s, 0, .any⟩
def FAB_COMP_CTL_REMOVE : Fld := ⟨.fabCompCtl, 1, 1, .rw1s, 0, .any⟩
def FAB_COMP_CTL_RESET : Fld := ⟨.fabCompCtl, 2, 2, .rw1s, 0, .any⟩
/-! FAB_COMP_STAT (R410) -/
def FAB_COMP_STAT_EPOCH : Fld := ⟨.fabCompStat, 31, 0, .ro, 0, .any⟩
def FAB_COMP_STAT_RESULT : Fld := ⟨.fabCompStat, 39, 32, .ro, 0, .any⟩
def FAB_COMP_STAT_DRAINING : Fld := ⟨.fabCompStat, 40, 40, .ro, 0, .any⟩
def FAB_COMP_STAT_SELF_RANK : Fld := ⟨.fabCompStat, 50, 41, .ro, 0, .any⟩
def FAB_COMP_STAT_DOWN : Fld := ⟨.fabCompStat, 60, 51, .ro, 0, .any⟩
/-! FAB_CTX_COMP (R411) -/
def FAB_CTX_COMP_SLOT : Fld := ⟨.fabCtxComp, 5, 0, .rw, 0, .any⟩
def FAB_CTX_COMP_VALID : Fld := ⟨.fabCtxComp, 6, 6, .rw, 0, .any⟩
/-! SYNC_STAT (R370) -/
def SYNC_STAT_EPISODES : Fld := ⟨.syncStat, 31, 0, .rc, 0, .any⟩
def SYNC_STAT_LOST : Fld := ⟨.syncStat, 47, 32, .rc, 0, .any⟩
def SYNC_STAT_TIMEOUTS : Fld := ⟨.syncStat, 63, 48, .rc, 0, .any⟩
/-! SYNC_OBJ (R370) -/
def SYNC_OBJ_STATE : Fld := ⟨.syncObj, 1, 0, .ro, 0, .any⟩
def SYNC_OBJ_COUNT : Fld := ⟨.syncObj, 17, 2, .ro, 0, .any⟩
def SYNC_OBJ_ARRIVED : Fld := ⟨.syncObj, 33, 18, .ro, 0, .any⟩
def SYNC_OBJ_OWNER : Fld := ⟨.syncObj, 45, 34, .ro, 0, .any⟩
def SYNC_OBJ_TENANT : Fld := ⟨.syncObj, 53, 46, .ro, 0, .any⟩
/-! SYNC_CNT (R370) -/
def SYNC_CNT_PRODUCED : Fld := ⟨.syncCnt, 31, 0, .ro, 0, .any⟩
def SYNC_CNT_CONSUMED : Fld := ⟨.syncCnt, 63, 32, .ro, 0, .any⟩
/-! CTX_TLB_INVAL (R366) -/
def CTX_TLB_INVAL_CTX : Fld := ⟨.ctxTlbInval, 11, 0, .wo, 0, .any⟩
def CTX_TLB_INVAL_ALL : Fld := ⟨.ctxTlbInval, 12, 12, .wo, 0, .any⟩
/-! CTX_SLOW_CFG (R369) -/
def CTX_SLOW_CFG_PERIOD_MS : Fld := ⟨.ctxSlowCfg, 15, 0, .rw, 100, .any⟩
def CTX_SLOW_CFG_CAL_CELLAR_US : Fld := ⟨.ctxSlowCfg, 31, 16, .rw, 50, .any⟩
def CTX_SLOW_CFG_CAL_FABRIC_NS : Fld := ⟨.ctxSlowCfg, 47, 32, .rw, 1000, .any⟩
/-! CTX_TENANT (R363) -/
def CTX_TENANT_ENABLE : Fld := ⟨.ctxTenant, 0, 0, .rw, 0, .any⟩
def CTX_TENANT_WEIGHT : Fld := ⟨.ctxTenant, 15, 8, .rw, 1, .any⟩
def CTX_TENANT_CLASS : Fld := ⟨.ctxTenant, 19, 16, .rw, 0, .any⟩
def CTX_TENANT_MAX_CONTEXTS : Fld := ⟨.ctxTenant, 36, 24, .rw, 0, .any⟩
def CTX_TENANT_MAX_INFLIGHT : Fld := ⟨.ctxTenant, 63, 48, .rw, 0, .any⟩
/-! CTX_SLOW (R369) -/
def CTX_SLOW_SLOWDOWN : Fld := ⟨.ctxSlow, 15, 0, .ro, 0, .any⟩
def CTX_SLOW_REQUESTS : Fld := ⟨.ctxSlow, 47, 16, .ro, 0, .any⟩
/-! CTX_CFG (R364) -/
def CTX_CFG_ENABLE : Fld := ⟨.ctxCfg, 0, 0, .rw, 0, .any⟩
def CTX_CFG_TENANT : Fld := ⟨.ctxCfg, 8, 1, .rw, 0, .any⟩
def CTX_CFG_PARTITION : Fld := ⟨.ctxCfg, 11, 9, .rw, 0, .any⟩
def CTX_CFG_SQ_LOG2 : Fld := ⟨.ctxCfg, 16, 12, .rw, 4, .upTo 4 16⟩
def CTX_CFG_CQ_LOG2 : Fld := ⟨.ctxCfg, 21, 17, .rw, 4, .upTo 4 16⟩
def CTX_CFG_INFLIGHT : Fld := ⟨.ctxCfg, 32, 22, .rw, 16, .any⟩
/-! CTX_SQ (R365) -/
def CTX_SQ_ADDR : Fld := ⟨.ctxSq, 51, 12, .rw, 0, .any⟩
/-! CTX_CQ (R365) -/
def CTX_CQ_ADDR : Fld := ⟨.ctxCq, 51, 12, .rw, 0, .any⟩
/-! CTX_PT (R365) -/
def CTX_PT_ROOT : Fld := ⟨.ctxPt, 51, 16, .rw, 0, .any⟩
/-! CTX_SAVE (R365) -/
def CTX_SAVE_ADDR : Fld := ⟨.ctxSave, 51, 12, .rw, 0, .any⟩
def CTX_SAVE_SIZE_MIB : Fld := ⟨.ctxSave, 63, 52, .rw, 0, .any⟩
/-! CTX_DB (R366) -/
def CTX_DB_SQ_TAIL : Fld := ⟨.ctxDb, 15, 0, .wo, 0, .any⟩
def CTX_DB_CQ_HEAD : Fld := ⟨.ctxDb, 31, 16, .wo, 0, .any⟩
def CTX_DB_SET_SQ : Fld := ⟨.ctxDb, 32, 32, .wo, 0, .any⟩
def CTX_DB_SET_CQ : Fld := ⟨.ctxDb, 33, 33, .wo, 0, .any⟩
/-! CTX_CTL (R367) -/
def CTX_CTL_PREEMPT : Fld := ⟨.ctxCtl, 0, 0, .rw1s, 0, .any⟩
def CTX_CTL_RESUME : Fld := ⟨.ctxCtl, 1, 1, .rw1s, 0, .any⟩
def CTX_CTL_ABORT : Fld := ⟨.ctxCtl, 2, 2, .rw1s, 0, .any⟩
def CTX_CTL_RESET : Fld := ⟨.ctxCtl, 3, 3, .rw1s, 0, .any⟩
/-! CTX_STAT (R368) -/
def CTX_STAT_STATE : Fld := ⟨.ctxStat, 2, 0, .ro, 0, .any⟩
def CTX_STAT_NO_SPACE : Fld := ⟨.ctxStat, 3, 3, .ro, 0, .any⟩
def CTX_STAT_SQ_HEAD : Fld := ⟨.ctxStat, 23, 8, .ro, 0, .any⟩
def CTX_STAT_CQ_TAIL : Fld := ⟨.ctxStat, 39, 24, .ro, 0, .any⟩
def CTX_STAT_TAKEN : Fld := ⟨.ctxStat, 50, 40, .ro, 0, .any⟩
/-! CTX_FAULT (R368) -/
def CTX_FAULT_CAUSE : Fld := ⟨.ctxFault, 7, 0, .ro, 0, .any⟩
def CTX_FAULT_STATUS : Fld := ⟨.ctxFault, 15, 8, .ro, 0, .any⟩
def CTX_FAULT_SQ_INDEX : Fld := ⟨.ctxFault, 31, 16, .ro, 0, .any⟩
def CTX_FAULT_VALID : Fld := ⟨.ctxFault, 63, 63, .w1c, 0, .any⟩
/-! TILE_EMB_DESC (R232) -/
def TILE_EMB_DESC_ADDR : Fld := ⟨.tileEmbDesc, 51, 6, .rw, 0, .any⟩
/-! TILE_EMB_EN (R233) -/
def TILE_EMB_EN_ENABLE : Fld := ⟨.tileEmbEn, 63, 0, .rw, 0, .any⟩
/-! TILE_DISPATCH (R164) -/
def TILE_DISPATCH_GROUP_WAIT_NS : Fld := ⟨.tileDispatch, 15, 0, .rw, 0, .any⟩
def TILE_DISPATCH_ROUTE_BATCH : Fld := ⟨.tileDispatch, 20, 16, .rw, 16, .upTo 1 16⟩
/-! TILE_ATTN_CFG (R211) -/
def TILE_ATTN_CFG_NPAGE_MAX : Fld := ⟨.tileAttnCfg, 2, 0, .rw, 4, .upTo 1 4⟩
def TILE_ATTN_CFG_QUARTET_ONLY : Fld := ⟨.tileAttnCfg, 3, 3, .rw, 1, .any⟩
/-! TILE_EMB_CFG (R235) -/
def TILE_EMB_CFG_WINDOW : Fld := ⟨.tileEmbCfg, 13, 0, .rw, 8192, .upTo 1 8192⟩
def TILE_EMB_CFG_PREFETCH_64K : Fld := ⟨.tileEmbCfg, 23, 16, .rw, 16, .any⟩
/-! TILE_NUM_STAT (R54) -/
def TILE_NUM_STAT_NAN_COUNT : Fld := ⟨.tileNumStat, 31, 0, .rc, 0, .any⟩
def TILE_NUM_STAT_SAT_COUNT : Fld := ⟨.tileNumStat, 63, 32, .rc, 0, .any⟩
/-! TILE_ATTN_STAT (R212) -/
def TILE_ATTN_STAT_SUMMARIES : Fld := ⟨.tileAttnStat, 31, 0, .rc, 0, .any⟩
def TILE_ATTN_STAT_PAGES : Fld := ⟨.tileAttnStat, 55, 32, .rc, 0, .any⟩
def TILE_ATTN_STAT_VOID_HEADS : Fld := ⟨.tileAttnStat, 63, 56, .rc, 0, .any⟩
/-! TILE_EMB_STAT (R236) -/
def TILE_EMB_STAT_FETCHES : Fld := ⟨.tileEmbStat, 31, 0, .rc, 0, .any⟩
def TILE_EMB_STAT_WINDOWS : Fld := ⟨.tileEmbStat, 47, 32, .rc, 0, .any⟩
def TILE_EMB_STAT_WRITE_WAITS : Fld := ⟨.tileEmbStat, 55, 48, .rc, 0, .any⟩
def TILE_EMB_STAT_PREFETCH_DROPS : Fld := ⟨.tileEmbStat, 63, 56, .rc, 0, .any⟩
/-! TILE_EMB_VER (R234) -/
def TILE_EMB_VER_VERSION : Fld := ⟨.tileEmbVer, 63, 0, .ro, 0, .any⟩
/-! TILE_SCALE (R47) -/
def TILE_SCALE_MULT : Fld := ⟨.tileScale, 31, 0, .ro, 0, .any⟩
def TILE_SCALE_SHIFT : Fld := ⟨.tileScale, 37, 32, .ro, 0, .any⟩
def TILE_SCALE_OUT_FMT : Fld := ⟨.tileScale, 39, 38, .ro, 0, .any⟩

end F

/-- The fields of a register (instance `i`: the two halves of a FLT_LOG record differ, R461). Bits that no field names are
reserved (R13). -/
def Reg.fields (r : Reg) (i : Nat) : List Fld :=
  match r with
  | .topId => [F.TOP_ID_VENDOR, F.TOP_ID_DEVICE, F.TOP_ID_STEP_MAJOR, F.TOP_ID_STEP_MINOR, F.TOP_ID_GRADE, F.TOP_ID_MAP_REV]
  | .topSerial => [F.TOP_SERIAL_SERIAL]
  | .topStrap => [F.TOP_STRAP_FORCE_RCV]
  | .topIntStat => [F.TOP_INT_STAT_INDEX, F.TOP_INT_STAT_TRELLIS, F.TOP_INT_STAT_FAB_FLOW, F.TOP_INT_STAT_FAB_PN, F.TOP_INT_STAT_FAB_LOST, F.TOP_INT_STAT_FAULT, F.TOP_INT_STAT_CKPT, F.TOP_INT_STAT_FUSE, F.TOP_INT_STAT_CELLAR, F.TOP_INT_STAT_NAHEL, F.TOP_INT_STAT_THERMAL, F.TOP_INT_STAT_DIR, F.TOP_INT_STAT_ERROR]
  | .topIntEn => [F.TOP_INT_EN_INDEX, F.TOP_INT_EN_TRELLIS, F.TOP_INT_EN_FAB_FLOW, F.TOP_INT_EN_FAB_PN, F.TOP_INT_EN_FAB_LOST, F.TOP_INT_EN_FAULT, F.TOP_INT_EN_CKPT, F.TOP_INT_EN_FUSE, F.TOP_INT_EN_CELLAR, F.TOP_INT_EN_NAHEL, F.TOP_INT_EN_THERMAL, F.TOP_INT_EN_DIR, F.TOP_INT_EN_ERROR]
  | .topErrSum => [F.TOP_ERR_SUM_ACCESS, F.TOP_ERR_SUM_ENABLE, F.TOP_ERR_SUM_ACTION]
  | .topErrCnt => [F.TOP_ERR_CNT_COUNT]
  | .topErrFirst => [F.TOP_ERR_FIRST_ADDR, F.TOP_ERR_FIRST_KIND, F.TOP_ERR_FIRST_WRITE, F.TOP_ERR_FIRST_SOURCE, F.TOP_ERR_FIRST_VALID]
  | .topIdxPend => [F.TOP_IDX_PEND_PEND]
  | .topScratch => [F.TOP_SCRATCH_VALUE]
  | .topPersist => [F.TOP_PERSIST_VALUE]
  | .clkDom => [F.CLK_DOM_MAX_DEPTH, F.CLK_DOM_STATE, F.CLK_DOM_WAKING, F.CLK_DOM_WAKES, F.CLK_DOM_HOLD_US]
  | .clkIdle => [F.CLK_IDLE_GATE_US, F.CLK_IDLE_STOP_US, F.CLK_IDLE_STAGGER_US]
  | .clkWake => [F.CLK_WAKE_DOMAINS]
  | .clkTime => [F.CLK_TIME_US]
  | .pwrGov => [F.PWR_GOV_SLEW_A_US, F.PWR_GOV_STEP_UJ, F.PWR_GOV_BALLAST]
  | .pwrGovStat => [F.PWR_GOV_STAT_CURRENT_A, F.PWR_GOV_STAT_DUTY, F.PWR_GOV_STAT_LIMITED_US, F.PWR_GOV_STAT_BALLAST_US]
  | .pwrThermCfg => [F.PWR_THERM_CFG_DIE_THROTTLE_C, F.PWR_THERM_CFG_STACK_THROTTLE_C, F.PWR_THERM_CFG_HYST_C]
  | .pwrThermStat => [F.PWR_THERM_STAT_TRIPPED, F.PWR_THERM_STAT_THROTTLED]
  | .pwrTemp => [F.PWR_TEMP_TEMP, F.PWR_TEMP_PEAK, F.PWR_TEMP_DUTY]
  | .secBootStat => [F.SEC_BOOT_STAT_STATE, F.SEC_BOOT_STAT_RESULT, F.SEC_BOOT_STAT_SOURCE, F.SEC_BOOT_STAT_RCV_PORT, F.SEC_BOOT_STAT_KEY_SLOT, F.SEC_BOOT_STAT_IDENT_OK, F.SEC_BOOT_STAT_SVN]
  | .secFwVer => [F.SEC_FW_VER_VERSION]
  | .secFuseCfg => [F.SEC_FUSE_CFG_GRADE, F.SEC_FUSE_CFG_DEBUG_OFF, F.SEC_FUSE_CFG_REVOKE, F.SEC_FUSE_CFG_PRESENT, F.SEC_FUSE_CFG_ROLLBACK]
  | .secFuseProg => [F.SEC_FUSE_PROG_TARGET, F.SEC_FUSE_PROG_ADV, F.SEC_FUSE_PROG_REVOKE, F.SEC_FUSE_PROG_GO, F.SEC_FUSE_PROG_RESULT]
  | .secLogStat => [F.SEC_LOG_STAT_NEXT, F.SEC_LOG_STAT_OLDEST]
  | .secLogSel => [F.SEC_LOG_SEL_SEQ]
  | .secFuseHash => [F.SEC_FUSE_HASH_HASH]
  | .secLogData => [F.SEC_LOG_DATA_DATA]
  | .secLogChain => [F.SEC_LOG_CHAIN_DATA]
  | .fltCfg => [F.FLT_CFG_COMPAT, F.FLT_CFG_INJECT_DISRUPT, F.FLT_CFG_ESC_COUNT, F.FLT_CFG_ESC_WINDOW_MS, F.FLT_CFG_FENCE_DRAIN_US]
  | .fltWdog => [F.FLT_WDOG_CTX_MS, F.FLT_WDOG_TILE_US, F.FLT_WDOG_PART_MS, F.FLT_WDOG_CHIP_MS]
  | .fltKick => [F.FLT_KICK_KICK]
  | .fltReset => [F.FLT_RESET_ENGINE, F.FLT_RESET_PART, F.FLT_RESET_CHIP, F.FLT_RESET_PCYC, F.FLT_RESET_SELFTEST, F.FLT_RESET_TARGET, F.FLT_RESET_PARTITION]
  | .fltStat => [F.FLT_STAT_LOG_NEXT, F.FLT_STAT_ENGINE_RESETS, F.FLT_STAT_PART_RESETS, F.FLT_STAT_CHIP_RESETS, F.FLT_STAT_REPAIR_UNNAMED, F.FLT_STAT_INJ_SKIPPED]
  | .fltOutTile => [F.FLT_OUT_TILE_OUT]
  | .fltCkpt => [F.FLT_CKPT_GO, F.FLT_CKPT_OP, F.FLT_CKPT_INDEX, F.FLT_CKPT_NS]
  | .fltCkptStat => [F.FLT_CKPT_STAT_STATE, F.FLT_CKPT_STAT_RESULT]
  | .fltCkptVint => [F.FLT_CKPT_VINT_VINTAGE]
  | .fltOutPress => [F.FLT_OUT_PRESS_OUT]
  | .fltInj => [F.FLT_INJ_ENABLE, F.FLT_INJ_CLASS, F.FLT_INJ_TARGET, F.FLT_INJ_PERIOD_S]
  | .fltLog => if i % 2 = 0 then [F.FLT_LOG_CLASS, F.FLT_LOG_LEVEL, F.FLT_LOG_ACTION, F.FLT_LOG_INJECTED, F.FLT_LOG_UNIT, F.FLT_LOG_CAUSE, F.FLT_LOG_VALID] else [F.FLT_LOG_DETECT_US, F.FLT_LOG_DONE_US]
  | .fltAdmit => [F.FLT_ADMIT_HOLD]
  | .trlStore => [F.TRL_STORE_ADDR]
  | .trlLimits => [F.TRL_LIMITS_GAP_MAX]
  | .trlSrc => [F.TRL_SRC_ADDR, F.TRL_SRC_SIZE_64K]
  | .trlCtl => [F.TRL_CTL_LOAD, F.TRL_CTL_UNLOAD, F.TRL_CTL_DRAIN_MS]
  | .trlStat => [F.TRL_STAT_STATE, F.TRL_STAT_RESULT, F.TRL_STAT_TILES, F.TRL_STAT_PRESS, F.TRL_STAT_MAX_LIVE]
  | .trlBuild => [F.TRL_BUILD_VALUE]
  | .trlDigest => [F.TRL_DIGEST_VALUE]
  | .trlKeyCfg => [F.TRL_KEY_CFG_VALID, F.TRL_KEY_CFG_PART_MASK, F.TRL_KEY_CFG_LOCK]
  | .trlKeyHash => [F.TRL_KEY_HASH_HASH]
  | .trlTileOwn => [F.TRL_TILE_OWN_OWNER]
  | .trlPressOwn => [F.TRL_PRESS_OWN_OWNER]
  | .mergeCfg => [F.MERGE_CFG_DEDUP_SEARCH, F.MERGE_CFG_DEDUP_ATTN]
  | .mergeScratch => [F.MERGE_SCRATCH_ADDR, F.MERGE_SCRATCH_SIZE_MIB]
  | .mergeStat => [F.MERGE_STAT_SELECTIONS, F.MERGE_STAT_MULTIPASS, F.MERGE_STAT_RESCANS, F.MERGE_STAT_DUPS]
  | .dirStore => [F.DIR_STORE_ADDR, F.DIR_STORE_SIZE]
  | .dirRec => [F.DIR_REC_ADDR]
  | .dirCfg => [F.DIR_CFG_RECALL_TIMEOUT_US, F.DIR_CFG_DRAIN_TIMEOUT_US, F.DIR_CFG_COUNT_PERIOD_MS, F.DIR_CFG_LOW_FRAMES_K, F.DIR_CFG_HIGH_FRAMES_K]
  | .dirStat => [F.DIR_STAT_RECALLS, F.DIR_STAT_RECALL_TIMEOUTS, F.DIR_STAT_POISONED_LINES, F.DIR_STAT_LATE_DROP]
  | .poolCfg => [F.POOL_CFG_ADMIN_TENANT]
  | .poolCat => [F.POOL_CAT_ADDR]
  | .poolCatInval => [F.POOL_CAT_INVAL_SLOT, F.POOL_CAT_INVAL_ALL]
  | .poolAgentLost => [F.POOL_AGENT_LOST_AGENT]
  | .poolStat => [F.POOL_STAT_DENIED, F.POOL_STAT_FENCED, F.POOL_STAT_FETCHES, F.POOL_STAT_EVICTS]
  | .poolFrames => [F.POOL_FRAMES_FRAMES]
  | .poolLent => [F.POOL_LENT_LENT]
  | .nlPortCfg => [F.NL_PORT_CFG_ENABLE, F.NL_PORT_CFG_REPLAY_16NS, F.NL_PORT_CFG_REPLAY_MAX, F.NL_PORT_CFG_DEV_VEC, F.NL_PORT_CFG_DEV_EN, F.NL_PORT_CFG_MOD_100NS]
  | .nlPortStat => [F.NL_PORT_STAT_STATE, F.NL_PORT_STAT_REVERSED, F.NL_PORT_STAT_POLARITY, F.NL_PORT_STAT_GEN, F.NL_PORT_STAT_RETRAINS]
  | .nlLinkErr => [F.NL_LINK_ERR_FEC_CORR, F.NL_LINK_ERR_CRC_FAIL, F.NL_LINK_ERR_REPLAYS]
  | .nlTxnErr => [F.NL_TXN_ERR_DENIED, F.NL_TXN_ERR_MALFORMED, F.NL_TXN_ERR_LATE_GEN]
  | .nlWinBase => [F.NL_WIN_BASE_BASE]
  | .nlWinCfg => [F.NL_WIN_CFG_VALID, F.NL_WIN_CFG_READ, F.NL_WIN_CFG_WRITE, F.NL_WIN_CFG_REG_ALL, F.NL_WIN_CFG_TENANT, F.NL_WIN_CFG_SIZE_64K]
  | .nlCtxVec => [F.NL_CTX_VEC_VECTOR, F.NL_CTX_VEC_PORT, F.NL_CTX_VEC_EN]
  | .cellarCfg => [F.CELLAR_CFG_RATED_PE, F.CELLAR_CFG_OP_256, F.CELLAR_CFG_LOG_FLUSH_US, F.CELLAR_CFG_VERIFY_LIMIT, F.CELLAR_CFG_RO_SPARE, F.CELLAR_CFG_TEMP_FEAT, F.CELLAR_CFG_WEAR_SPREAD_LOG2, F.CELLAR_CFG_DEBUG_WIN, F.CELLAR_CFG_START]
  | .cellarNsDesc => [F.CELLAR_NS_DESC_ADDR]
  | .cellarMapCache => [F.CELLAR_MAP_CACHE_ADDR, F.CELLAR_MAP_CACHE_SIZE]
  | .cellarParity => [F.CELLAR_PARITY_ADDR, F.CELLAR_PARITY_SIZE]
  | .cellarLogTrim => [F.CELLAR_LOG_TRIM_SEQ]
  | .cellarCap => [F.CELLAR_CAP_USER_SLOTS]
  | .cellarHealth => [F.CELLAR_HEALTH_SPARE_LEFT, F.CELLAR_HEALTH_WEAR_USED, F.CELLAR_HEALTH_READ_ONLY]
  | .cellarDebug => [F.CELLAR_DEBUG_CH]
  | .cellarErrA => [F.CELLAR_ERR_A_RETRY, F.CELLAR_ERR_A_SOFT, F.CELLAR_ERR_A_PARITY, F.CELLAR_ERR_A_UNCORR]
  | .cellarErrB => [F.CELLAR_ERR_B_PROG_FAIL, F.CELLAR_ERR_B_ERASE_FAIL, F.CELLAR_ERR_B_VERIFY_MOVE, F.CELLAR_ERR_B_DEADLINE]
  | .cellarRetry => [F.CELLAR_RETRY_FEAT, F.CELLAR_RETRY_PARAM, F.CELLAR_RETRY_VALID]
  | .cellarChCfg => [F.CELLAR_CH_CFG_ENABLE, F.CELLAR_CH_CFG_RATE, F.CELLAR_CH_CFG_TARGETS]
  | .cellarChStat => [F.CELLAR_CH_STAT_STATE, F.CELLAR_CH_STAT_LUNS, F.CELLAR_CH_STAT_READS, F.CELLAR_CH_STAT_PROGRAMS]
  | .cellarNsEn => [F.CELLAR_NS_EN_ENABLE]
  | .cellarTempHist => [F.CELLAR_TEMP_HIST_BIN_LO, F.CELLAR_TEMP_HIST_BIN_HI]
  | .cellarLdpcBase => [F.CELLAR_LDPC_BASE_EXP]
  | .vintClose => [F.VINT_CLOSE_INDEX]
  | .vintRackCfg => [F.VINT_RACK_CFG_DEAD_THRESH, F.VINT_RACK_CFG_REBASE_LOG2, F.VINT_RACK_CFG_RACK_SHARE]
  | .vintSpillCfg => [F.VINT_SPILL_CFG_SPILL_BLOCKS, F.VINT_SPILL_CFG_SPILL_USED, F.VINT_SPILL_CFG_APPEND_SHARE]
  | .vintFreeMap => [F.VINT_FREE_MAP_ADDR]
  | .vintIdxCfg => [F.VINT_IDX_CFG_ENABLE, F.VINT_IDX_CFG_CODE_LEN, F.VINT_IDX_CFG_CODE_FMT, F.VINT_IDX_CFG_MODE, F.VINT_IDX_CFG_SCOPE, F.VINT_IDX_CFG_TENANT, F.VINT_IDX_CFG_PARTITION, F.VINT_IDX_CFG_LIST_COUNT]
  | .vintIdxLists => [F.VINT_IDX_LISTS_ADDR]
  | .vintIdxLoc => [F.VINT_IDX_LOC_ADDR, F.VINT_IDX_LOC_LOG2_SLOTS]
  | .vintTrig => [F.VINT_TRIG_UPD_COUNT, F.VINT_TRIG_INTERVAL_US]
  | .vintCur => [F.VINT_CUR_VINTAGE]
  | .vintDurable => [F.VINT_DURABLE_VINTAGE]
  | .vintHorizon => [F.VINT_HORIZON_VINTAGE]
  | .vintStat => [F.VINT_STAT_CLOSE_OVERRUN, F.VINT_STAT_DELETE_MISS, F.VINT_STAT_PIN_REVOKED, F.VINT_STAT_FORCED_REBASE]
  | .vintIdxRoute => [F.VINT_IDX_ROUTE_ADDR]
  | .vintIdxBook => [F.VINT_IDX_BOOK_ADDR]
  | .vintIdxQcfg => [F.VINT_IDX_QCFG_DIM, F.VINT_IDX_QCFG_RERANK_EN, F.VINT_IDX_QCFG_VEC_FMT, F.VINT_IDX_QCFG_RERANK_NS, F.VINT_IDX_QCFG_GRAPH_DEG]
  | .vintIdxGraph => [F.VINT_IDX_GRAPH_ADDR]
  | .pressGroup => [F.PRESS_GROUP_PRESS]
  | .pressShare => [F.PRESS_SHARE_RATIO, F.PRESS_SHARE_GAP_MAX, F.PRESS_SHARE_READ_RATIO]
  | .pressErr => [F.PRESS_ERR_REFUSED, F.PRESS_ERR_MODE_MISMATCH]
  | .pressWinLen => [F.PRESS_WIN_LEN_LEN, F.PRESS_WIN_LEN_ELAPSED, F.PRESS_WIN_LEN_BANKS, F.PRESS_WIN_LEN_OP]
  | .pressWinStat => [F.PRESS_WIN_STAT_WIN_CYCLES, F.PRESS_WIN_STAT_IDLE_SLOTS, F.PRESS_WIN_STAT_TRUNC]
  | .pressEccCnt => [F.PRESS_ECC_CNT_CORRECTED, F.PRESS_ECC_CNT_UNCORR, F.PRESS_ECC_CNT_POISON]
  | .pressEccLog => [F.PRESS_ECC_LOG_BLOCK, F.PRESS_ECC_LOG_CW, F.PRESS_ECC_LOG_SYMBOL, F.PRESS_ECC_LOG_CLASS, F.PRESS_ECC_LOG_VALID]
  | .pressNumStat => [F.PRESS_NUM_STAT_NAN_COUNT, F.PRESS_NUM_STAT_SAT_COUNT]
  | .pressLoad => [F.PRESS_LOAD_SCAN_BLOCKS, F.PRESS_LOAD_QUEUE_PEAK]
  | .fabNode => [F.FAB_NODE_NODE_ID, F.FAB_NODE_ETHERTYPE, F.FAB_NODE_UDP_PORT]
  | .fabPeerTab => [F.FAB_PEER_TAB_ADDR]
  | .fabPeerCtl => [F.FAB_PEER_CTL_NODE, F.FAB_PEER_CTL_ADMIT, F.FAB_PEER_CTL_LOST]
  | .fabTimers => [F.FAB_TIMERS_KEEPALIVE_US, F.FAB_TIMERS_LOST_MS, F.FAB_TIMERS_RTO_US, F.FAB_TIMERS_RETRIES, F.FAB_TIMERS_SUBREQ_MS, F.FAB_TIMERS_MAP_DRAIN_MS]
  | .fabGlbStat => [F.FAB_GLB_STAT_LATE, F.FAB_GLB_STAT_MOVED, F.FAB_GLB_STAT_STALE, F.FAB_GLB_STAT_ADMIT_FAIL]
  | .fabPortCfg => [F.FAB_PORT_CFG_ENABLE, F.FAB_PORT_CFG_MODE, F.FAB_PORT_CFG_MEDIA, F.FAB_PORT_CFG_IPV6, F.FAB_PORT_CFG_MACSEC, F.FAB_PORT_CFG_REPLAY_WIN]
  | .fabPortStat => [F.FAB_PORT_STAT_STATE, F.FAB_PORT_STAT_FEC_CORR, F.FAB_PORT_STAT_FEC_UNCORR, F.FAB_PORT_STAT_RETX]
  | .fabDrop => [F.FAB_DROP_UNKNOWN, F.FAB_DROP_POLICED, F.FAB_DROP_MACSEC, F.FAB_DROP_MALFORMED]
  | .fabShape => [F.FAB_SHAPE_RATE, F.FAB_SHAPE_BURST_KIB, F.FAB_SHAPE_FILL]
  | .fabPolice => [F.FAB_POLICE_RATE, F.FAB_POLICE_BURST_KIB, F.FAB_POLICE_FILL]
  | .fabMacsecSa => [F.FAB_MACSEC_SA_VALID, F.FAB_MACSEC_SA_ACTIVE, F.FAB_MACSEC_SA_PN]
  | .fabQueue => [F.FAB_QUEUE_IDLE_SLOPE, F.FAB_QUEUE_CRED_MAX_KIB]
  | .fabMacsecKey => [F.FAB_MACSEC_KEY_KEY]
  | .fabCompMap => [F.FAB_COMP_MAP_ADDR]
  | .fabCompBcast => [F.FAB_COMP_BCAST_ADDR, F.FAB_COMP_BCAST_SIZE_MIB]
  | .fabCompCtl => [F.FAB_COMP_CTL_INSTALL, F.FAB_COMP_CTL_REMOVE, F.FAB_COMP_CTL_RESET]
  | .fabCompStat => [F.FAB_COMP_STAT_EPOCH, F.FAB_COMP_STAT_RESULT, F.FAB_COMP_STAT_DRAINING, F.FAB_COMP_STAT_SELF_RANK, F.FAB_COMP_STAT_DOWN]
  | .fabCtxComp => [F.FAB_CTX_COMP_SLOT, F.FAB_CTX_COMP_VALID]
  | .syncStat => [F.SYNC_STAT_EPISODES, F.SYNC_STAT_LOST, F.SYNC_STAT_TIMEOUTS]
  | .syncObj => [F.SYNC_OBJ_STATE, F.SYNC_OBJ_COUNT, F.SYNC_OBJ_ARRIVED, F.SYNC_OBJ_OWNER, F.SYNC_OBJ_TENANT]
  | .syncCnt => [F.SYNC_CNT_PRODUCED, F.SYNC_CNT_CONSUMED]
  | .ctxTlbInval => [F.CTX_TLB_INVAL_CTX, F.CTX_TLB_INVAL_ALL]
  | .ctxSlowCfg => [F.CTX_SLOW_CFG_PERIOD_MS, F.CTX_SLOW_CFG_CAL_CELLAR_US, F.CTX_SLOW_CFG_CAL_FABRIC_NS]
  | .ctxTenant => [F.CTX_TENANT_ENABLE, F.CTX_TENANT_WEIGHT, F.CTX_TENANT_CLASS, F.CTX_TENANT_MAX_CONTEXTS, F.CTX_TENANT_MAX_INFLIGHT]
  | .ctxSlow => [F.CTX_SLOW_SLOWDOWN, F.CTX_SLOW_REQUESTS]
  | .ctxCfg => [F.CTX_CFG_ENABLE, F.CTX_CFG_TENANT, F.CTX_CFG_PARTITION, F.CTX_CFG_SQ_LOG2, F.CTX_CFG_CQ_LOG2, F.CTX_CFG_INFLIGHT]
  | .ctxSq => [F.CTX_SQ_ADDR]
  | .ctxCq => [F.CTX_CQ_ADDR]
  | .ctxPt => [F.CTX_PT_ROOT]
  | .ctxSave => [F.CTX_SAVE_ADDR, F.CTX_SAVE_SIZE_MIB]
  | .ctxDb => [F.CTX_DB_SQ_TAIL, F.CTX_DB_CQ_HEAD, F.CTX_DB_SET_SQ, F.CTX_DB_SET_CQ]
  | .ctxCtl => [F.CTX_CTL_PREEMPT, F.CTX_CTL_RESUME, F.CTX_CTL_ABORT, F.CTX_CTL_RESET]
  | .ctxStat => [F.CTX_STAT_STATE, F.CTX_STAT_NO_SPACE, F.CTX_STAT_SQ_HEAD, F.CTX_STAT_CQ_TAIL, F.CTX_STAT_TAKEN]
  | .ctxFault => [F.CTX_FAULT_CAUSE, F.CTX_FAULT_STATUS, F.CTX_FAULT_SQ_INDEX, F.CTX_FAULT_VALID]
  | .tileEmbDesc => [F.TILE_EMB_DESC_ADDR]
  | .tileEmbEn => [F.TILE_EMB_EN_ENABLE]
  | .tileDispatch => [F.TILE_DISPATCH_GROUP_WAIT_NS, F.TILE_DISPATCH_ROUTE_BATCH]
  | .tileAttnCfg => [F.TILE_ATTN_CFG_NPAGE_MAX, F.TILE_ATTN_CFG_QUARTET_ONLY]
  | .tileEmbCfg => [F.TILE_EMB_CFG_WINDOW, F.TILE_EMB_CFG_PREFETCH_64K]
  | .tileNumStat => [F.TILE_NUM_STAT_NAN_COUNT, F.TILE_NUM_STAT_SAT_COUNT]
  | .tileAttnStat => [F.TILE_ATTN_STAT_SUMMARIES, F.TILE_ATTN_STAT_PAGES, F.TILE_ATTN_STAT_VOID_HEADS]
  | .tileEmbStat => [F.TILE_EMB_STAT_FETCHES, F.TILE_EMB_STAT_WINDOWS, F.TILE_EMB_STAT_WRITE_WAITS, F.TILE_EMB_STAT_PREFETCH_DROPS]
  | .tileEmbVer => [F.TILE_EMB_VER_VERSION]
  | .tileScale => [F.TILE_SCALE_MULT, F.TILE_SCALE_SHIFT, F.TILE_SCALE_OUT_FMT]

end Sys2Proof.Machine
end

