-- ==== Sys2Proof/Machine/State.lean ====
section
/-! DEFINITION. The state of the node: plain data. What software sees as registers lies in `regs` (one home, R531),
what it sees as memory in `mem` with the check fields of R118 in `ecc`; the rest is what the manual makes the node
remember between two commands. -/
namespace Sys2Proof.Machine

/-- A sparse map with the canonical form of `SMap.wf`: keys strictly rising, no entry equal to what an unlisted key
reads as. -/
abbrev SMap (α : Type) := List (Nat × α)

/-- R28: the status codes. -/
inductive Code where
  | ok | short | widened | deadlineCheap | moved | routeStale | stateLost | fenced | ownerLost | poison | uncorrectable
  | invalidArg | quota | denied | timeout | aborted | reset
deriving DecidableEq, Repr, Inhabited

/-- R119: the two syndromes of a stored codeword; (0, 0) is clean and (0, 2^63) is poisoned. The stored check field is
the computed one XOR the syndromes. -/
structure Syn where
  p : BitVec 64
  q : BitVec 64
deriving DecidableEq, Repr, Inhabited

/-- R424: what a completion reports. -/
structure Compl where
  status : Code
  cond   : Nat
  count  : Nat
  value  : Nat
deriving DecidableEq, Repr, Inhabited

/-- R359, R361: what a SYNC waiter waits for. -/
inductive SyncKind where
  | arrive (episode : Nat) | wait (episode : Nat) | take (amount : Nat)
deriving DecidableEq, Repr, Inhabited

/-- How far a taken request has come. -/
inductive Work where
  /-- taken, its command has not run -/
  | fresh
  /-- a search whose passes are held until a µs count: GROUP_WAIT_NS after they opened (R144, R164) -/
  | grouped (until_ : Nat)
  /-- an update whose hand-off waits for the log (R261) -/
  | logWait (since : Nat)
  /-- an insert that waits for a block (R90) -/
  | blockWait (since : Nat)
  /-- an update past step 3 of R71: vintage, EARLY, entries -/
  | stamped (v : Nat) (early : Bool) (count : Nat)
  /-- a search that waits for reads, peers or its parked state: job number -/
  | job (id : Nat)
  /-- a cellar read: reads outstanding, worst code so far -/
  | reading (left : Nat) (worst : Code)
  /-- a cellar write: frames not yet programmed -/
  | writing (left : Nat)
  /-- a discard: map segments not yet programmed, and the frame SEQ below which a copy of them is too old -/
  | discarding (segs : List Nat) (after : Nat)
  /-- a gather or scatter that waits for its owners (R217): sub-requests left -/
  | remote (left : Nat) (worst : Code)
  /-- a ROW_WRITE held under R229 -/
  | rowHeld
  /-- a cask command: pages or lines outstanding, worst code so far -/
  | cask (left : Nat) (worst : Code)
  /-- a SYNC waiter: object of the partition, what it waits for, arrival number, clock of its start -/
  | sync (obj : Nat) (k : SyncKind) (arrival : Nat) (since : Nat)
  /-- a broadcast or a distributed selection in progress on the tree -/
  | global (id : Nat)
  /-- a PIN of a global index that the other nodes of the composition have not all placed (R80): index, handle, worst code so far -/
  | pinning (i h : Nat) (worst : Code)
  /-- finished; its completion is not written yet (R344) -/
  | finished (c : Compl)
deriving DecidableEq, Repr, Inhabited

/-- A request: a taken descriptor that has no written completion. -/
structure Req where
  slot     : Nat
  desc     : Bytes
  takenAt  : Nat
  work     : Work
  /-- R66, R79: the index and vintage on which the request runs -/
  index    : Option Nat
  vintage  : Nat
  /-- R141: composition slot and epoch -/
  comp     : Option Nat
  epoch    : Nat
  /-- R350: its live state lies in the save area -/
  saved    : Bool
  /-- R348: its descriptor was flushed by an abort, never taken -/
  flushed  : Bool
  /-- R230: the table and the version a pinned batch reads -/
  pinned   : Option (Nat × Nat)
  /-- R181: the condition word that its completion will carry -/
  conds    : Nat
  /-- what a SCATTER that waits for its owners has counted (R220): rows, remote rows, rows written, saturations, damaged, cold rows, the
  version stamped; of a held ROW_WRITE its place in the order of its table (R228) -/
  figures  : List Nat
  /-- R349: its first operation has had its turn on the tile -/
  begun    : Bool
  /-- R233, R248: the table or namespace that it names was enabled when it was taken -/
  on       : Bool
  /-- what was in force when it was taken: of an embedding command the version of its table, TILE_EMB_CFG, the table descriptor and the
  code of reading it (R230, R233, R235); of an attention command TILE_ATTN_CFG (R211); of a cellar command the namespace descriptor (R248) -/
  snap     : List Nat
deriving DecidableEq, Repr, Inhabited

/-- What a context remembers beside its registers (R341 to R355). -/
structure CtxSt where
  sqTail   : Nat
  cqHead   : Nat
  /-- R343: completions written whose slots software has not given back -/
  cqUsed   : Nat
  /-- completion slots are written with this phase bit (R344) -/
  phase    : Bool
  reqs     : List Req
  /-- ENABLE was cleared and DISABLED is not reached (R341) -/
  closing  : Bool
  /-- R355: an abort while SUSPENDED lets completions be written without waiting for RESUME -/
  release  : Bool
  /-- clock of the last progress that its watchdog saw (R435) -/
  progress : Nat
deriving DecidableEq, Repr, Inhabited

/-- R180: one candidate of a selection. -/
structure Cand where
  item  : BitVec 64
  score : F32
  cheap : Bool
  exact : Bool
deriving DecidableEq, Repr, Inhabited

/-- R173: one partial of a merge. -/
structure Part where
  left  : F32
  max   : F32
  cands : List Cand
  ties  : Nat
deriving DecidableEq, Repr, Inhabited

/-- R144, R171: what is kept of a pass of one chain of a probed list until the node merge. -/
structure PassRec where
  list  : Nat
  unit  : Nat
  head  : Nat
  part  : Part
  /-- the shortlist is full, and entries that may reach T were left out -/
  full  : Bool
  more  : Bool
deriving DecidableEq, Repr, Inhabited

/-- R150: the reads of one candidate's full vector: reads outstanding, whether one failed, the bytes that have come. -/
structure Vec where
  item   : Nat
  left   : Nat
  failed : Bool
  got    : Bytes
deriving DecidableEq, Repr, Inhabited

/-- One query of a search: its routing (R142, R143), its figures (R140, R179) and its partial results. -/
structure QJob where
  query    : Bytes
  lut      : Bytes
  scale    : F32
  bias     : F32
  order    : List Nat
  /-- lists probed, or expansions made -/
  lists    : Nat
  begun    : Bool
  scanned  : Bool
  rounds   : Nat
  matched  : Nat
  filtered : Nat
  nan      : Nat
  poisoned : Nat
  pflags   : Nat
  dups     : Nat
  rescans  : Nat
  retries  : Nat
  cheap    : Nat
  reranked : Nat
  /-- candidates that left the candidate set: duplicates, exact scores that are NaN or −inf -/
  dropped  : Nat
  budgetEnd : Bool
  /-- passes of this node -/
  own      : List PassRec
  /-- partial results by rank, and the ranks whose partial holds final scores -/
  parts    : SMap Part
  exact    : List Nat
  /-- R153: the rank that holds each candidate of the global best -/
  homes    : List (Nat × Nat)
  vecs     : List Vec
  /-- sub-requests outstanding -/
  busy     : Nat
  /-- on a peer: the threshold that the rounds before this one give (R170) -/
  floor    : F32
deriving DecidableEq, Repr, Inhabited

/-- For whom a search job runs; for a peer the answer's queue, tag and PHASE. -/
inductive JobOwner where
  | ctx (c q : Nat)
  | peer (node queue tag comp epoch phase : Nat)
deriving DecidableEq, Repr, Inhabited

/-- The stages of a search job: rounds of passes, the parked state of R153, exact scores, the result records, hand-off. -/
inductive JobPhase where
  | scan | park | rerank | write | handoff
deriving DecidableEq, Repr, Inhabited

/-- A search or a distributed selection (R141, R150 to R155, R183). -/
structure SearchJob where
  owner    : JobOwner
  tenant   : Nat
  part     : Nat
  desc     : Bytes
  index    : Nat
  vintage  : Nat
  deadline : Option Nat
  /-- composition slot, epoch, this node's rank and the ranks that take part -/
  comp     : Option Nat
  epoch    : Nat
  rank     : Nat
  ranks    : List Nat
  phase    : JobPhase
  queries  : List QJob
  restarted : Bool
  /-- R155: hand-offs outstanding, owners that accepted, entries stamped, highest vintage, worst code -/
  handoffs : Nat
  accepted : Nat
  stamped  : Nat
  highest  : Nat
  worst    : Code
deriving DecidableEq, Repr, Inhabited

/-- R75, R76: a close in progress. -/
structure CloseRun where
  /-- the vintage being closed; 0 until the coordinator takes the trigger -/
  vintage : Nat
  handed  : Bool
  started : Nat
  /-- it waited at step 5 (R450) -/
  late    : Bool
  /-- the last sequence number that the vintage includes (R72) -/
  seq     : Nat
deriving DecidableEq, Repr, Inhabited

/-- R80: a pin. -/
structure Pin where
  handle  : Nat
  vintage : Nat
  ctx     : Nat
  /-- the pin of a FLT_CKPT run (R452) -/
  ckpt    : Bool
  /-- a pin on a global index that another node placed here (R80): its node ID; the handle is that node's -/
  home    : Option Nat
deriving DecidableEq, Repr, Inhabited

/-- What an index remembers beside its registers (R63 to R81). -/
structure IdxSt where
  /-- the open vintage; 0 while the index is disabled -/
  openV     : Nat
  /-- the highest vintage ever published (R63) -/
  everPub   : Nat
  /-- the last sequence number of its log (R71) -/
  seq       : Nat
  /-- updates stamped for the open vintage (R75) -/
  stamped   : Nat
  timer     : Nat
  close     : Option CloseRun
  /-- a further close is owed (R75) -/
  again     : Bool
  pins      : List Pin
  /-- R78: the vintage reported prepared to the root -/
  prepared  : Option Nat
  /-- R454 step 5: FENCED until the first commit -/
  awaiting  : Bool
  restoring : Bool
  /-- R456: the vintage of the first commit after a restore; 0 for none -/
  firstCommit : Nat
  /-- markers handed to the log and not yet programmed: vintage, log record number, SEQ of the marker -/
  markers   : List (Nat × Nat × Nat)
  /-- R451: SEQ of the marker of the durable vintage -/
  durSeq    : Nat
deriving DecidableEq, Repr, Inhabited

/-- R127: one entry of a slot's shortlist. -/
structure Short where
  item  : BitVec 64
  score : F32
deriving DecidableEq, Repr, Inhabited

/-- One query slot of a press unit (R123, R124, R127 to R129). -/
structure Slot where
  loaded   : Bool
  /-- the context for which the slot was loaded or cleared last (R106, R354) -/
  owner    : Option Nat
  /-- LAYOUT of the LUT_LOAD that loaded it (R123): where its LUT starts in the unit's SRAM -/
  layout   : Nat
  desc     : Bytes
  /-- the LUT as a window reads it from the SRAM; empty while the slot stands in its unit -/
  lut      : Bytes
  kept     : List Short
  left     : F32
  max      : F32
  visible  : Nat
  filtered : Nat
  /-- NaN scores as the records hold them, and as the registers count them (R54) -/
  nan      : Nat
  nans     : Nat
  poisoned : Nat
  overs    : Nat
  flags    : Nat
  sum      : F32
  acc      : List F32
  tokens   : Nat
  scores   : List F32
deriving DecidableEq, Repr, Inhabited

/-- A queued press command with the tile that issued it and its write data (R106, R107). -/
structure PressJob where
  tile    : Nat
  cmd     : Bytes
  data    : Bytes
  enables : List Bool
deriving DecidableEq, Repr, Inhabited

/-- R110: a window in progress; `status` is the status word it will emit and `records` its pass records. -/
structure Win where
  job     : PressJob
  len     : Nat
  banks   : Nat
  status  : Bytes
  records : Bytes
  idle    : Nat
  /-- the codewords that the window wrote, in order, with the data and syndromes that stood there (R111, R444) -/
  undo    : List (Nat × Bytes × Syn)
  /-- SCAN, ATTN and QK: for each number of blocks or pages short of all, status word and slots (R111) -/
  cuts    : List (Bytes × List (Nat × Slot))
  /-- cycles of the window that the periods gone by have not taken (R115) -/
  rest    : Nat
deriving DecidableEq, Repr, Inhabited

/-- A press unit (R105 to R130). -/
structure PressUnit where
  queue    : List PressJob
  win      : Option Win
  /-- the LUT SRAM up to its last byte written (R123) -/
  sram     : Bytes
  slots    : SMap Slot
  /-- tags of passes begun and not ended (R85): PASS, and the context above it -/
  passes   : List Nat
  /-- passes of searches that further queries may still join (R144): head of the chain, slots used; empty between commands -/
  open_    : List (Nat × Nat)
  /-- codewords corrected in a window and not yet rewritten (R121): codeword number -/
  rewrites : List Nat
  /-- window cycles of the accounting period, of WRITE and of RACK windows (R115, R117) -/
  used     : Nat
  usedWr   : Nat
  usedRack : Nat
  refreshes : Nat
deriving DecidableEq, Repr, Inhabited

/-- A racked block that waits to be free (R85): unit, block, and what may still read it: the passes and the searches that began
before. -/
structure ToFree where
  unit   : Nat
  block  : Nat
  passes : List (Nat × Nat)
  jobs   : List Nat
deriving DecidableEq, Repr, Inhabited

/-- R241, R242: a frame's metadata and data. -/
structure FrameRec where
  ns    : Nat
  kind  : Nat
  count : Nat
  lslot : Nat
  seq   : Nat
  data  : Bytes
deriving DecidableEq, Repr, Inhabited

/-- Why a frame is programmed. -/
inductive Purpose where
  /-- a write of a context's request -/
  | host (c q : Nat)
  /-- a write of the node's own (eviction, checkpoint, flush): no request waits -/
  | own
  /-- relocation of the frame that this map entry named (R252, R253) -/
  | reloc (old : Nat)
  /-- log records from one number up to before another -/
  | log (lo hi : Nat)
  | segment (key : Nat)
  | filler
deriving DecidableEq, Repr, Inhabited

/-- A page program: stream, superblock, place, and the frames with their slot in the page. -/
structure ProgOp where
  stream : Nat
  sb     : Nat
  ch     : Nat
  tg     : Nat
  lun    : Nat
  plane  : Nat
  block  : Nat
  page   : Nat
  frames : List (Nat × FrameRec × Purpose)
deriving DecidableEq, Repr, Inhabited

/-- For whom a frame is read. -/
inductive ReadOwner where
  /-- a CELLAR_READ: request, where the bytes go: device address and length of each run -/
  | cmd (c q : Nat) (dest : List (Nat × Nat))
  | rerank (job query item off : Nat)
  | reloc
deriving DecidableEq, Repr, Inhabited

/-- A read that has been accepted and not delivered (R258 to R260); `entry` is the map entry it resolved to (R253). -/
structure ReadReq where
  id       : Nat
  ns       : Nat
  slot     : Nat
  off      : Nat
  len      : Nat
  entry    : Nat
  deadline : Option Nat
  owner    : ReadOwner
deriving DecidableEq, Repr, Inhabited

/-- What a LUN is doing. -/
inductive LunOp where
  | idle | read (id : Nat) | program (p : ProgOp) | erase (key : Nat)
deriving DecidableEq, Repr, Inhabited

/-- A LUN: what runs on it and the programs and erases that wait (R259). -/
structure LunSt where
  op     : LunOp
  progs  : List ProgOp
  erases : List Nat
deriving DecidableEq, Repr, Inhabited

/-- A member of a superblock (R244): a LUN, a block number, the next frame place in it. -/
structure Member where
  ch    : Nat
  tg    : Nat
  lun   : Nat
  block : Nat
  pos   : Nat
deriving DecidableEq, Repr, Inhabited

/-- A superblock (R244 to R246). -/
structure Super where
  id       : Nat
  stream   : Nat
  members  : List Member
  rot      : Nat
  closed   : Bool
  verified : Bool
  /-- its live frames are being relocated before its blocks are erased (R255) -/
  leaving  : Bool
  /-- for static wear levelling (R255) -/
  wear     : Bool
  /-- its parity is in the stacks still (R245, R246) -/
  parity   : Bool
deriving DecidableEq, Repr, Inhabited

/-- A flash block: wear, retired, taken, frames moved at verification (R255, R256). -/
structure BlockSt where
  pe    : Nat
  bad   : Bool
  taken : Bool
  moves : Nat
deriving DecidableEq, Repr, Inhabited

/-- R239: the geometry of the accepted parts. -/
structure Geom where
  targets : Nat
  planes : Nat
  luns   : Nat
  blocks : Nat
  pages  : Nat
deriving DecidableEq, Repr, Inhabited

/-- A log record handed to the cellar (R71, R72, R261). -/
structure LogRec where
  number : Nat
  /-- clock of the hand-off -/
  since  : Nat
  bytes  : Bytes
deriving DecidableEq, Repr, Inhabited

/-- The cellar beside its registers (R237 to R266). -/
structure CellarSt where
  geom     : Option Geom
  chans    : SMap Geom
  /-- R268: TARGETS as it stood when ENABLE went to 1 -/
  chTargets : SMap Nat
  zqAt     : SMap Nat
  started  : Bool
  /-- R560: a start runs: the usable slots it found -/
  starting : Option Nat
  flash    : SMap FrameRec
  blocks   : SMap BlockSt
  supers   : List Super
  nextSb   : Nat
  streamAt : SMap Nat
  luns     : SMap LunSt
  reads    : List ReadReq
  nextRead : Nat
  frameSeq : Nat
  /-- logical map: namespace × 2^40 + slot ↦ map entry (R249) -/
  map      : SMap Nat
  /-- changed map segments: key ↦ clock of the change (R250) -/
  dirty    : SMap Nat
  /-- segment directory: segment key ↦ frame place of its newest copy (R250) -/
  segments : SMap Nat
  /-- slots whose last accepted write is not yet programmed: map key ↦ its frame SEQ and data (R253) -/
  buffer   : SMap (Nat × Bytes)
  /-- frames that wait for a superblock: stream, frame, purpose (R251) -/
  waiting  : List (Nat × FrameRec × Purpose)
  /-- log: records not yet given to a page, next ring slot, ring: slot ↦ frame SEQ + 1 -/
  logBuf   : List LogRec
  logNext  : Nat
  logNum   : Nat
  logRing  : SMap Nat
  /-- records in pages that are not yet programmed: first number, number after the last -/
  logPend  : List (Nat × Nat)
  sampled  : Nat
  /-- R560: channels whose good blocks the spare blocks count already -/
  counted  : List Nat
deriving DecidableEq, Repr, Inhabited

/-- The requests of the coherence protocol (R291). -/
inductive LineOp where
  | rdS | rdM | rdNc | wrNc | wb | drop
deriving DecidableEq, Repr, Inhabited

/-- Where a line request came from, and so where its answer goes. -/
inductive Origin where
  /-- a coherent agent: a host's COH packet or a peer's COHERENCE frame -/
  | agent
  /-- a line of a plain RD or WR packet to window 2: port, packet tag -/
  | host (port tag : Nat)
  /-- this node's pool cache -/
  | cache
  /-- the lender's own recall (directory eviction, page eviction, flush, withdrawal) -/
  | lender
deriving DecidableEq, Repr, Inhabited

/-- A request for one line at the lender (R293). -/
structure LineReq where
  origin : Origin
  agent  : Nat
  cask   : Nat
  line   : Nat
  op     : LineOp
  mask   : BitVec 64
  data   : Bytes
  /-- fabric queue of the request (R382) -/
  queue  : Nat
deriving DecidableEq, Repr, Inhabited

/-- R290: a recall outstanding on a line: whom it waits for, the request it serves. -/
structure Recall where
  cask    : Nat
  line    : Nat
  asked   : List Nat
  waits   : List Nat
  /-- when an agent that has not answered is lost (R296, R314) -/
  due     : Nat
  cause   : LineReq
deriving DecidableEq, Repr, Inhabited

/-- R304: a withdrawal in progress. -/
structure Withdraw where
  cask    : Nat
  agents  : List Nat
  /-- when its drain ends at the latest (R304, R314) -/
  due     : Nat
  /-- the drain of the named agents' queued requests has ended -/
  drained : Bool
  /-- the request that waits; none for a withdrawal inside a reclaim (R286) -/
  owner   : Option (Nat × Nat)
deriving DecidableEq, Repr, Inhabited

/-- R285: what a lent cask stands for. -/
structure Lent where
  flash : Bool
  group : Nat
  ns    : Nat
  slot  : Nat
  /-- its agent list (R288, R289), which the cask record repeats: entry, agent ID, FENCED -/
  agents : List (Nat × Nat × Bool)
deriving DecidableEq, Repr, Inhabited

/-- A line in the node's pool cache (R286 to R292). -/
structure CacheLine where
  cask  : Nat
  line  : Nat
  owned : Bool
  bytes : Bytes
deriving DecidableEq, Repr, Inhabited

/-- R299, R300: a page fetch under way or waiting for a frame. -/
structure Fetch where
  cask  : Nat
  page  : Nat
  since : Nat
  frame : Option Nat
  /-- the request whose hint started it (R302) -/
  owner : Option (Nat × Nat)
deriving DecidableEq, Repr, Inhabited

/-- R299, R303: a page that is being written back: evicted (or only flushed), its lines recalled or its slots being
programmed, and the request that waits for it. -/
structure PageJob where
  cask    : Nat
  page    : Nat
  evict   : Bool
  writing : Bool
  owner   : Option (Nat × Nat)
deriving DecidableEq, Repr, Inhabited

/-- R286: a reclaim in progress: its request and the local indices that are left. -/
structure Reclaim where
  ctx   : Nat
  req   : Nat
  casks : List Nat
deriving DecidableEq, Repr, Inhabited

/-- Work of a CASK_HINT or CASK_FLUSH of another node on casks of this one: number, answer's queue and tag, pages left. -/
structure PeerCask where
  id    : Nat
  node  : Nat
  queue : Nat
  tag   : Nat
  left  : Nat
  worst : Code
deriving DecidableEq, Repr, Inhabited

/-- The shared pool beside its registers (R280 to R307). -/
structure PoolSt where
  lent     : SMap Lent
  coarse   : List Nat
  queue    : List LineReq
  recalls  : List Recall
  /-- directory entries, least recently used first: store entry numbers (R290) -/
  lru      : List Nat
  withdraws : List Withdraw
  pageJobs : List PageJob
  reclaims : List Reclaim
  fetches  : List Fetch
  /-- frames of the frame groups that hold a page -/
  frames   : List Nat
  cache    : List CacheLine
  catCache : SMap Bytes
  lost     : List Nat
  /-- R300, R314: the counter period in force, in ms, and when it began -/
  halvedAt : Nat
  halvePer : Nat
  /-- R300: free frames fell below LOW_FRAMES_K and have not reached HIGH_FRAMES_K again -/
  evicting : Bool
  /-- CASK_HINT and CASK_FLUSH ranges that this lender works on for peers -/
  peerWork : List PeerCask
  /-- requests of the node's own agent and of its hosts to lenders, waiting for DATA or CMP -/
  sent     : List LineReq
  /-- lines that the running command asks its node's agent for: cask ID, line, to write; empty between commands -/
  needs    : List (Nat × Nat × Bool)
  /-- lines that came back with a code, until the command that asked for them has met it: cask ID, line, code -/
  failed   : List (Nat × Nat × Code)
deriving DecidableEq, Repr, Inhabited

/-- R320: a tile record. -/
structure TileRec where
  tile    : Nat
  pers    : Nat
  variant : Nat
  group   : Nat
  qdepth  : Nat
deriving DecidableEq, Repr, Inhabited

/-- R322: a circuit. -/
structure Route where
  srcTile : Nat
  srcPort : Nat
  dstTile : Nat
  dstPort : Nat
  credits : Nat
deriving DecidableEq, Repr, Inhabited

/-- R323: a press unit's binding. -/
structure PressRec where
  unit     : Nat
  spill    : Bool
  dispatch : Nat
  merge    : Nat
deriving DecidableEq, Repr, Inhabited

/-- R325: a barrier object. -/
structure Barrier where
  object : Nat
  count  : Nat
  scope  : Nat
  home   : Nat
deriving DecidableEq, Repr, Inhabited

/-- R324: a scale record. -/
structure ScaleRec where
  tile    : Nat
  channel : Nat
  value   : Word
deriving DecidableEq, Repr, Inhabited

/-- R326: a cheap point. -/
structure Cheap where
  point : Nat
  live  : Nat
  gap   : Nat
deriving DecidableEq, Repr, Inhabited

/-- A trellis image as the node reads it (R318 to R327). -/
structure Img where
  bytes    : Nat
  build    : Nat
  tiles    : List TileRec
  routes   : List Route
  press    : List PressRec
  scales   : List ScaleRec
  barriers : List Barrier
  cheap    : List (Nat × List Cheap)
  keySlot  : Nat
  digest   : Bytes
deriving DecidableEq, Repr, Inhabited

/-- R330, R333: a load or unload in progress. -/
structure LoadRun where
  unload  : Bool
  src     : Nat
  size    : Nat
  before  : Nat
  /-- R340: GAP_MAX as the load began -/
  gapMax  : Nat
  img     : Option Img
  started : Nat
deriving DecidableEq, Repr, Inhabited

/-- A partition beside its registers (R315 to R333). -/
structure PartSt where
  img      : Option Img
  run      : Option LoadRun
  /-- R349: the tenant whose operations start in this round, how many more of them, and the context of each tenant that had
  the last turn -/
  turnTenant : Nat
  turnLeft   : Nat
  turnLast   : SMap Nat
deriving DecidableEq, Repr, Inhabited

/-- R223: a prefetched copy of a row: its slot, whether the cellar and whether another node served it, and whether it has been used. -/
structure PreRow where
  row    : Nat
  slot   : Bytes
  cold   : Bool
  remote : Bool
  used   : Bool
deriving DecidableEq, Repr, Inhabited

/-- R223: a prefetch buffer. -/
structure Prefetch where
  ctx   : Nat
  table : Nat
  next  : Nat
  count : Nat
  rows  : List PreRow
deriving DecidableEq, Repr, Inhabited

/-- A frame that the node sends (R374). -/
structure TxFrame where
  type    : Nat
  dst     : Nat
  comp    : Nat
  epoch   : Nat
  queue   : Nat
  retx    : Bool
  more    : Bool
  seq     : Nat
  tag     : Nat
  rank    : Nat
  gen     : Nat
  payload : Bytes
deriving DecidableEq, Repr, Inhabited

/-- R376: a flow, both directions of one pair of peer and queue. -/
structure Flow where
  txNext   : Nat
  unacked  : List TxFrame
  rxNext   : Nat
  /-- frames that arrived ahead of a gap: type and frame -/
  ahead    : List (Nat × Frame)
  /-- frames delivered since the last ACK that went out, and the clock of the first -/
  owed     : Nat
  owedAt   : Nat
  nakSent  : Bool
  resends  : Nat
  /-- how many ports the flow has moved past -/
  moves    : Nat
  /-- ports whose retries it has used since its last progress -/
  tried    : Nat
  held     : Bool
  /-- the payload of a message whose last frame has not come (R375) -/
  partial_ : Bytes
  /-- when RTO_US without progress has passed -/
  rtoDue   : Nat
deriving DecidableEq, Repr, Inhabited

/-- R383: an egress queue of a port; credit in 1/44,800 byte. -/
structure Egress where
  frames : List TxFrame
  credit : Int
  at_    : Nat
deriving DecidableEq, Repr, Inhabited

/-- R384, R385: a token bucket, in bytes. -/
structure Bucket where
  tokens : Int
  at_    : Nat
  set_   : Bool
deriving DecidableEq, Repr, Inhabited

/-- R379: an admission in progress. -/
structure Admission where
  node    : Nat
  started : Nat
  mine    : Bytes
  theirs  : Bytes
  chain   : Bytes
  hello   : Bool
  cert    : Bool
deriving DecidableEq, Repr, Inhabited

/-- For whom a sub-request was sent. -/
inductive SubOwner where
  | job (id query : Nat)
  | gather (c q : Nat) (rows : List Nat)
  | scatter (c q : Nat)
  | handoff (job : Nat)
  /-- a cask command's range on another lender -/
  | cask (c q : Nat)
  /-- a PIN of a global index on another node (R80) -/
  | pin (c q : Nat)
  /-- an UNPIN on another node: nothing waits for its answer -/
  | quiet
  /-- rows of another node for the prefetch buffer of a context on a table (R223) -/
  | prefetch (c table : Nat) (rows : List Nat)
deriving DecidableEq, Repr, Inhabited

/-- A sub-request that waits for its REPLY (R377, R391). -/
structure OutSub where
  tag     : Nat
  node    : Nat
  comp    : Nat
  epoch   : Nat
  rank    : Nat
  queue   : Nat
  /-- R391: sent a second time, to the node that a MOVED named -/
  retried : Bool
  /-- when SUBREQ_MS has passed; 0 for no limit -/
  due     : Nat
  owner   : SubOwner
  payload : Bytes
  answer  : Option Bytes
deriving DecidableEq, Repr, Inhabited

/-- When a message arrived, and the version then published of the table that it names (R141, R230). -/
structure Arrival where
  time : Nat
  ver  : Nat
deriving DecidableEq, Repr, Inhabited

/-- R390: a message held for the next epoch. -/
structure Held where
  id    : Nat
  type  : Nat
  port  : Nat
  frame : Frame
  due   : Nat
  since : Arrival
deriving DecidableEq, Repr, Inhabited

/-- R387: a composition map. -/
structure CompMap where
  id      : Nat
  epoch   : Nat
  rank    : Nat
  tenant  : Nat
  members : List Nat
  objects : List Word
deriving DecidableEq, Repr, Inhabited

/-- A composition slot beside its registers (R386 to R399). -/
structure CompSt where
  map      : Option CompMap
  /-- the map whose epoch drains, and when that drain ends (R389, R390) -/
  prev     : Option CompMap
  drainAt  : Nat
  /-- REMOVE was written; when the drain of the current epoch ends -/
  removing : Bool
  removeAt : Nat
  down     : List Nat
  /-- R397: a reset runs; ranks that have answered the root -/
  resetting : Bool
  answered : List Nat
deriving DecidableEq, Repr, Inhabited

/-- R396: a global operation that this node collects for its subtree: operation, composition slot, object, number, epoch of
its tree, ranks heard, worst code so far. -/
structure Collect where
  op    : Nat
  slot  : Nat
  obj   : Nat
  num   : Nat
  epoch : Nat
  heard : List Nat
  worst : Code
deriving DecidableEq, Repr, Inhabited

/-- R456: an update hand-off held while HOLD is 1. -/
structure Handoff where
  id    : Nat
  slot  : Nat
  port  : Nat
  frame : Frame
  since : Nat
deriving DecidableEq, Repr, Inhabited

/-- The fabric beside its registers (R371 to R399). -/
structure FabSt where
  attempts : SMap Nat
  flows    : SMap Flow
  queues   : SMap Egress
  control  : SMap (List TxFrame)
  shape    : SMap Bucket
  police   : SMap Bucket
  admitting : List Admission
  nonces   : Nat
  /-- when a peer's silence makes it lost (R393); 0 for never -/
  heard    : SMap Nat
  /-- when a KEEPALIVE to a peer on a port falls due: key node × 16 + port -/
  spoke    : SMap Nat
  subs     : List OutSub
  nextTag  : Nat
  held     : List Held
  comps    : SMap CompSt
  collects : List Collect
  holds    : List Handoff
  /-- sub-requests that wait for a load of a partition (R469): partition, port, frame -/
  partWaits : List (Nat × Nat × Frame × Arrival)
  /-- transmit associations that have run out of packet numbers (R381) -/
  pnOut    : List Nat
  /-- ports enabled in Ethernet mode (R401) -/
  ethernet : List Nat
  /-- frames that left each port, oldest first: port, ACK, frame -/
  wire     : List (Nat × Nat × TxFrame)
deriving DecidableEq, Repr, Inhabited

/-- A packet that the node sends (R418); `type` is its TYPE byte. -/
structure TxPacket where
  type : Nat
  tag  : Nat
  gen  : Nat
  arg  : Nat
  body : Bytes
deriving DecidableEq, Repr, Inhabited

/-- A RD or WR packet to window 2 under way (R425): its tag, lines left, worst code so far, the bytes that have come by
line, the first byte and length asked, and whether it reads. -/
structure CaskXfer where
  tag   : Nat
  gen   : Nat
  left  : Nat
  worst : Code
  got   : List (Nat × Bytes)
  first : Nat
  len   : Nat
  read  : Bool
deriving DecidableEq, Repr, Inhabited

/-- A RD or WR packet that waits to be performed (R113, R419): its TYPE, its place in the order of arrival at the node, whether
it passed the checks of R420 and R421 as it arrived (R431), and the packet. -/
structure HostReq where
  type    : Nat
  arrived : Nat
  passed  : Bool
  pkt     : Packet
deriving DecidableEq, Repr, Inhabited

/-- A Nahel port beside its registers (R413 to R427). -/
structure NlPort where
  attempts : Nat
  aligned  : List (Nat × Nat)
  stateAt  : Nat
  txSeq    : Nat
  rxSeq    : Nat
  replay   : List (Nat × Bytes)
  nakFor   : Option Nat
  resends  : Nat
  progress : Nat
  /-- bytes of a packet that continues in the next flit -/
  stream   : Bytes
  /-- credits the node holds of the adapter's and has granted to it: posted, non-posted, coherence -/
  txCred   : List Nat
  rxCred   : List Nat
  /-- RD and WR packets that wait, in arrival order -/
  inq      : List HostReq
  casks    : List CaskXfer
  /-- vectors marked pending while the port is not ACTIVE, and vectors inside a moderation interval (R427) -/
  marks    : List Nat
  quiet    : List (Nat × Nat)
  /-- events that fell inside a moderation interval -/
  owed     : List Nat
  /-- packets that wait for a credit or for room in the replay buffer, oldest first -/
  out      : List TxPacket
  /-- packets given to the link, and the flits that left, oldest first -/
  sent     : List TxPacket
  flits    : List Bytes
deriving DecidableEq, Repr, Inhabited

/-- R441: a reset in progress. -/
structure ResetRun where
  dom      : Domain
  draining : Bool
  started  : Nat
  record   : Nat
  /-- a partition that was RUNNING when its units were reset, and reloads at its end (R333) -/
  reload   : Bool
deriving DecidableEq, Repr, Inhabited

/-- R451 to R454: a FLT_CKPT run. -/
structure CkptRun where
  op     : Nat
  index  : Nat
  ns     : Nat
  vint   : Nat
  /-- R451: SEQ of the marker of the vintage -/
  seq    : Nat
deriving DecidableEq, Repr, Inhabited

/-- The fault supervisor beside its registers (R433 to R456). -/
structure FltSt where
  resets   : List ResetRun
  /-- resets of the last window: level, unit, clock (R440) -/
  history  : List (Nat × Nat × Nat)
  kickedAt : Nat
  injectAt : SMap Nat
  /-- stacks whose PHY retrains, and failures in a row (R433) -/
  retrain  : List Nat
  fails    : SMap Nat
  ckpt     : Option CkptRun
  /-- when the self-test of FLT_RESET.SELFTEST runs -/
  selftest : Bool
  /-- R448: ports whose next flit or frame fails its CRC, as UNIT encodes them -/
  forceBad : List Nat
deriving DecidableEq, Repr, Inhabited

/-- R480: the fuses. -/
structure Fuses where
  grade    : Bool
  debugOff : Bool
  root     : Bytes
  keys     : List Bytes
  revoke   : BitVec 4
  rollback : BitVec 64
  wrap     : Bytes
deriving DecidableEq, Repr, Inhabited

/-- R485, R486: a recovery image being written: the bytes that have come, by offset, and how many. -/
structure RcvSession where
  port  : Nat
  bytes : SMap Byte
  count : Nat
deriving DecidableEq, Repr, Inhabited

/-- The security engine and boot (R477 to R497). -/
structure SecSt where
  fuses    : Fuses
  nor      : SMap Byte
  norOk    : Bool
  log      : List Bytes
  logSeq   : Nat
  chain    : Bytes
  session  : Option RcvSession
  svn      : Nat
  burn     : List Nat
  burnRev  : Nat
  chainDer : Bytes
  pid      : BitVec 48
  spdm     : SMap Nat
  i3cAddr  : BitVec 7
  eid      : Byte
  i3cOut   : List Bytes
deriving DecidableEq, Repr, Inhabited

/-- A clock domain beside its register (R498 to R502). -/
structure DomSt where
  idleAt  : Nat
  wakeReq : Option Nat
  /-- R513: GATE_US and STOP_US of an idle period that began before CLK_IDLE was last written -/
  times   : Option (Nat × Nat)
deriving DecidableEq, Repr, Inhabited

/-- Clocks and power beside their registers (R498 to R517). -/
structure PwrSt where
  doms     : SMap DomSt
  wakeQ    : List Nat
  lastWake : Option Nat
  /-- R506: the core current as a µs began, that µs, and the last µs counted as limited and as ballast -/
  current  : Nat
  stepAt   : Nat
  limitedAt : Option Nat
  ballastAt : Option Nat
  /-- R507: the core current of the last µs, at most 10, oldest first; the wakes from STOP of that time: clock, energy -/
  draws    : List Nat
  wakes    : List (Nat × Nat)
  /-- R510: the last throttle step -/
  throttleAt : Nat
deriving DecidableEq, Repr, Inhabited

/-- The pins and the clocks that stop the node (R540 to R550). -/
structure Pins where
  resetLow  : Bool
  pwrBad    : Bool
  tripLow   : Bool
  pcycLow   : Bool
  strap     : Bool
  aonLost   : Bool
  coreLost  : Bool
  sdsLost   : List Bool
  /-- the instruction the TAP holds and the register it selects (R548) -/
  tap       : Nat
deriving DecidableEq, Repr, Inhabited

/-- What press units sent to tiles (R112, R128, R201): unit, tile, bytes. -/
structure PressOut where
  unit  : Nat
  tile  : Nat
  bytes : Bytes
deriving DecidableEq, Repr, Inhabited

/-- R347: a cached translation: context, virtual page, leaf entry, page size as a power of two. -/
structure Tlb where
  ctx   : Nat
  page  : Nat
  entry : Nat
  log2  : Nat
deriving DecidableEq, Repr, Inhabited

/-- The state of the node. -/
structure State where
  /-- commands that wait, first in, first out -/
  pending : List Instr
  /-- registers: device address ↦ value (R531) -/
  regs    : SMap Word
  /-- DRAM bytes at their physical place: group, pseudo-channel, offset (R100, R101) -/
  mem     : List Host.Cell
  /-- codeword number ↦ syndromes (R118, R119) -/
  ecc     : SMap Syn
  ctxs    : SMap CtxSt
  tlb     : List Tlb
  jobs    : SMap SearchJob
  nextJob : Nat
  idxs    : SMap IdxSt
  press   : SMap PressUnit
  pressOut : List PressOut
  toFree  : List ToFree
  cellar  : CellarSt
  pool    : PoolSt
  parts   : SMap PartSt
  prefetch : List Prefetch
  /-- SYNC objects: object ↦ episode number (R359) -/
  episodes : SMap Nat
  arrivals : Nat
  /-- R356: per tenant ΣA and ΣE and the requests of the period, and its start -/
  slow    : SMap (Nat × Nat × Nat)
  slowAt  : Nat
  /-- R356: the period in force, in ms -/
  slowPer : Nat
  fab     : FabSt
  nl0     : NlPort
  nl1     : NlPort
  flt     : FltSt
  sec     : SecSt
  pwr     : PwrSt
  pins    : Pins
  /-- R526: whether P was nonzero when it was last looked at -/
  intP    : Bool
  /-- the model's own: the counter of free values (log entry 5) -/
  free    : Nat
deriving DecidableEq, Repr, Inhabited

/-- Why a step stops the machine. No command of this block stops it: every event that the manual describes has an
effect or leaves the state as it is, so no meaning raises a fault. -/
inductive Fault where
  /-- raised by no command; kept so that a later rule of the manual that stops the block has a name (safe) -/
  | stopped
deriving DecidableEq, Repr, Inhabited

/-- Why a command has no meaning here. -/
inductive Refusal where
  /-- an instruction of the table that the model does not give a meaning (safe) -/
  | notModelled (mnemonic : String)
  /-- R548: a JTAG instruction other than BYPASS, SAMPLE/PRELOAD, EXTEST and IDCODE while DEBUG_OFF is 0: the manual
  names no other instruction and gives none an effect; raised by JTAG_INSTRUCTION alone (safe) -/
  | jtagPrivate
deriving DecidableEq, Repr, Inhabited

/-- The node right after reset: every register at its reset value (an unlisted register reads as it), memory with
nothing listed, no request, no image, every port down, the boot ROM about to run (SEC_BOOT_STAT.STATE = ROM). -/
def State.reset : State :=
  { (default : State) with
    slowPer := 100
    pool := { (default : PoolSt) with halvePer := 10 }
    sec := { (default : SecSt) with norOk := true, fuses := { (default : Fuses) with debugOff := true } }
    pins := { (default : Pins) with tap := 2 } }

end Sys2Proof.Machine
end

