-- ==== Sys2Proof/Machine/Bytes.lean ====
section
/-! DEFINITION. Bytes, bit fields and sparse maps: the little-endian order of R8, the bit ranges of R7, and the one
canonical form in which the state keeps registers, memory and every other sparse map. -/
namespace Sys2Proof.Machine

/-- R7: the bit range [hi:lo] of a number. -/
def bits (w hi lo : Nat) : Nat := w / 2 ^ lo % 2 ^ (hi + 1 - lo)

/-- R7: a number with its bit range [hi:lo] replaced. -/
def setBits (w hi lo v : Nat) : Nat :=
  w % 2 ^ lo + (v % 2 ^ (hi + 1 - lo)) * 2 ^ lo + w / 2 ^ (hi + 1) * 2 ^ (hi + 1)

/-- R7: one bit of a number. -/
def bit (w i : Nat) : Bool := w.testBit i

/-- A number with one bit set to a value. -/
def setBit (w i : Nat) (v : Bool) : Nat := setBits w i i (if v then 1 else 0)

/-- The positions of the 1 bits of a number among the lowest n. -/
def onesBelow (n w : Nat) : List Nat := (List.range n).filter fun i => w.testBit i

/-- How many of the lowest n bits are 1. -/
def popcount (n w : Nat) : Nat := (onesBelow n w).length

/-- ⌈a ÷ b⌉. -/
def ceilDiv (a b : Nat) : Nat := (a + b - 1) / b

/-- R10: the value of a Bool as a bit. -/
def b2n (b : Bool) : Nat := if b then 1 else 0

/-- R8: the value of little-endian bytes. -/
def leNat : Bytes → Nat
  | [] => 0
  | b :: r => b.toNat + 256 * leNat r

/-- R8: n little-endian bytes of a value. -/
def leBytes : Nat → Nat → Bytes
  | 0, _ => []
  | n + 1, v => BitVec.ofNat 8 v :: leBytes n (v / 256)

/-- The value of big-endian bytes (published standards, R8). -/
def beNat (b : Bytes) : Nat := b.foldl (fun a x => 256 * a + x.toNat) 0

/-- n big-endian bytes of a value. -/
def beBytes (n v : Nat) : Bytes := (leBytes n v).reverse

/-- n zero bytes. -/
def zeros (n : Nat) : Bytes := List.replicate n 0#8

/-- len bytes from an offset; bytes past the end read as 0. -/
def slice (b : Bytes) (off len : Nat) : Bytes :=
  let x := (b.drop off).take len
  x ++ zeros (len - x.length)

/-- The little-endian value of n bytes at an offset. -/
def leAt (b : Bytes) (off n : Nat) : Nat := leNat (slice b off n)

/-- The byte at an offset, as a number. -/
def byteAt (b : Bytes) (off : Nat) : Nat := (b.getD off 0#8).toNat

/-- Bytes with the bytes from an offset replaced. -/
def putAt (b : Bytes) (off : Nat) (x : Bytes) : Bytes := b.take off ++ x ++ b.drop (off + x.length)

/-- True when every byte from an offset is 0. -/
def allZero (b : Bytes) (off len : Nat) : Bool := (slice b off len).all (· == 0#8)

/-- Bytes cut into pieces of n, at most `fuel` pieces. -/
def chunksOf (n : Nat) : Nat → List α → List (List α)
  | 0, _ => []
  | fuel + 1, l => match l with
    | [] => []
    | _ => l.take n :: chunksOf n fuel (l.drop n)

/-- The pieces of n elements of a list. -/
def pieces (n : Nat) (l : List α) : List (List α) := chunksOf n (l.length / n + 1) l

/-- A count that stops at the largest value of its width. -/
def satAdd (width a b : Nat) : Nat := min (2 ^ width - 1) (a + b)

/-- A signed reading of an n-bit number. -/
def signed (n w : Nat) : Int := if w % 2 ^ n < 2 ^ (n - 1) then (w % 2 ^ n : Nat) else (w % 2 ^ n : Nat) - (2 ^ n : Nat)

/-- The n-bit two's complement form of an integer. -/
def toTwos (n : Nat) (v : Int) : Nat := (v % (2 ^ n : Nat)).toNat

/-! Sparse maps -/

/-- The value at a key, if listed. -/
def SMap.find : SMap α → Nat → Option α
  | [], _ => none
  | (k, v) :: r, key => if k = key then some v else SMap.find r key

/-- The value at a key; an unlisted key reads as the default. -/
def SMap.get (d : α) (m : SMap α) (key : Nat) : α := (SMap.find m key).getD d

/-- The map with a key listed. -/
def SMap.ins : SMap α → Nat → α → SMap α
  | [], key, v => [(key, v)]
  | (k, x) :: r, key, v =>
    if key < k then (key, v) :: (k, x) :: r
    else if key = k then (key, v) :: r
    else (k, x) :: SMap.ins r key v

/-- The map with a key unlisted. -/
def SMap.del : SMap α → Nat → SMap α
  | [], _ => []
  | (k, x) :: r, key => if k = key then SMap.del r key else (k, x) :: SMap.del r key

/-- The map with the value at a key replaced, in canonical form for the default. -/
def SMap.put [DecidableEq α] (d : α) (m : SMap α) (key : Nat) (v : α) : SMap α :=
  if v = d then SMap.del m key else SMap.ins m key v

/-- The map with the value at a key changed; an unlisted key starts from the default. -/
def SMap.adj (d : α) (m : SMap α) (key : Nat) (f : α → α) : SMap α := SMap.ins m key (f (SMap.get d m key))

/-- The map with the value at a listed key changed; an unlisted key stays so. -/
def SMap.upd (m : SMap α) (key : Nat) (f : α → α) : SMap α := m.map fun (k, v) => (k, if k = key then f v else v)

/-- Keys strictly rising, all above a bound. -/
def SMap.risingFrom : Nat → SMap α → Bool
  | _, [] => true
  | n, (k, _) :: r => decide (n ≤ k) && SMap.risingFrom (k + 1) r

/-- The canonical form: keys strictly rising and no entry equal to what its unlisted key reads as. -/
def SMap.wf [DecidableEq α] (d : Nat → α) (m : SMap α) : Bool :=
  SMap.risingFrom 0 m && m.all fun (k, v) => decide (v ≠ d k)

/-- The first element that satisfies a test, replaced. -/
def replaceFirst (p : α → Bool) (f : α → α) : List α → List α
  | [] => []
  | x :: r => if p x then f x :: r else x :: replaceFirst p f r

/-- The list without its first element that satisfies a test. -/
def dropFirst (p : α → Bool) : List α → List α
  | [] => []
  | x :: r => if p x then r else x :: dropFirst p r

/-- The list with the element at a position changed. -/
def modAt (l : List α) (i : Nat) (f : α → α) : List α := l.modify i f

/-- A list without later repeats. -/
def dedupNat (l : List Nat) : List Nat := (l.foldl (fun acc x => if acc.contains x then acc else x :: acc) []).reverse

/-- Insertion of an element into a list ordered by a test (stable: an equal element goes after). -/
def insertBy (lt : α → α → Bool) (x : α) : List α → List α
  | [] => [x]
  | y :: r => if lt x y then x :: y :: r else y :: insertBy lt x r

/-- A list ordered by a test, equal elements in their first order. -/
def sortBy (lt : α → α → Bool) (l : List α) : List α := l.foldl (fun acc x => insertBy lt x acc) []

end Sys2Proof.Machine
end

