-- ==== Sys2Proof/Machine/Crypto.lean ====
section
/-! DEFINITION. The checks that the manual names and standards define: CRC-32C (PRESUMED parameters, log entry 31),
CRC-64 with the ECMA-182 polynomial (R415), the Reed-Solomon code of R416, SHA-256 (FIPS 180-4) and RSA signature
verification (PKCS #1 v1.5, RFC 8017). -/
namespace Sys2Proof.Machine

/-- One bit of a reflected CRC. -/
def crcBitR (poly : Nat) (c : Nat) : Nat := if c % 2 = 1 then Nat.xor (c / 2) poly else c / 2

def crcBits (f : Nat → Nat) : Nat → Nat → Nat
  | 0, c => c
  | n + 1, c => crcBits f n (f c)

/-- CRC-32C over bytes (reflected Castagnoli polynomial, initial value and final XOR all ones). -/
def crc32c (b : Bytes) : Nat :=
  Nat.xor 0xFFFFFFFF (b.foldl (fun c x => crcBits (crcBitR 0x82F63B78) 8 (Nat.xor c x.toNat)) 0xFFFFFFFF)

/-- R415: CRC-64, polynomial 0x42F0_E1EB_A9EA_3693, initial value all ones, final XOR all ones, most significant bit
first (log entry 31). -/
def crc64 (b : Bytes) : Nat :=
  let m := 2 ^ 64
  let f (c : Nat) : Nat := if m / 2 ≤ c then Nat.xor (2 * c % m) 0x42F0E1EBA9EA3693 else 2 * c
  Nat.xor (m - 1) (b.foldl (fun c x => crcBits f 8 (Nat.xor c (x.toNat * 2 ^ 56))) (m - 1))

/-- R416: the product by α in GF(2^8), polynomial x^8 + x^4 + x^3 + x^2 + 1. -/
def gfDouble (x : Nat) : Nat := if 128 ≤ x then Nat.xor (2 * x) 0x11D else 2 * x

/-- α^n × x. -/
def gfShift : Nat → Nat → Nat
  | 0, x => x
  | n + 1, x => gfShift n (gfDouble x)

/-- R416: syndrome k of a word of symbols, the symbol of highest power first: its value at α^k. -/
def rsSyndrome (k : Nat) (w : List Nat) : Nat := w.foldl (fun a x => Nat.xor (gfShift k a) x) 0

/-- R416: the word corrected in at most one symbol, and whether one was; none when more are in error. -/
def rsCorrect (w : List Nat) : Option (List Nat × Bool) :=
  let s0 := rsSyndrome 0 w
  let s1 := rsSyndrome 1 w
  let s2 := rsSyndrome 2 w
  if s0 = 0 && s1 = 0 && s2 = 0 then some (w, false)
  else
    let n := w.length
    match (List.range n).find? fun i =>
      s0 ≠ 0 && gfShift (n - 1 - i) s0 = s1 && gfShift (2 * (n - 1 - i)) s0 = s2 with
    | some i => some (w.modify i (fun x => Nat.xor x s0), true)
    | none => none

/-- R416: the product in GF(2^8). -/
def gfMul (a b : Nat) : Nat := (List.range 8).foldl (fun acc i => if b.testBit i then Nat.xor acc (gfShift i a) else acc) 0

/-- R416: the three check symbols of 61 data symbols; the generator x^3 + 7x^2 + 14x + 8 has the roots α^0, α^1, α^2. -/
def rsChecks (w : List Nat) : Nat × Nat × Nat :=
  w.foldl (fun (a, b, c) x =>
    let t := Nat.xor x a
    (Nat.xor b (gfMul t 7), Nat.xor c (gfMul t 14), gfMul t 8)) (0, 0, 0)

/-- R416: symbol way i of a flit: its bytes j with j mod 4 = i, in order. -/
def flitWay (i : Nat) (f : Bytes) : List Nat := (List.range 64).map fun j => byteAt f (4 * j + i)

/-- R415, R416: a flit with its CRC and FEC bytes, from bytes 0 to 235. -/
def sealFlit (head : Bytes) : Bytes :=
  let b := head ++ leBytes 8 (crc64 head)
  let ck := (List.range 4).map fun i => rsChecks ((List.range 61).map fun j => byteAt b (4 * j + i))
  b ++ (ck.map fun c => BitVec.ofNat 8 c.1) ++ (ck.map fun c => BitVec.ofNat 8 c.2.1) ++ (ck.map fun c => BitVec.ofNat 8 c.2.2)

/-- R416: a flit corrected by its four ways and whether a byte was corrected; none when the FEC or the CRC fails. -/
def openFlit (f : Bytes) : Option (Bytes × Bool) :=
  if f.length ≠ 256 then none else
  match rsCorrect (flitWay 0 f), rsCorrect (flitWay 1 f), rsCorrect (flitWay 2 f), rsCorrect (flitWay 3 f) with
  | some a, some b, some c, some d =>
    let g : Bytes := (List.range 256).map fun j =>
      BitVec.ofNat 8 ((match j % 4 with | 0 => a.1 | 1 => b.1 | 2 => c.1 | _ => d.1).getD (j / 4) 0)
    if leAt g 236 8 = crc64 (g.take 236) then some (g, a.2 || b.2 || c.2 || d.2) else none
  | _, _, _, _ => none

/-! SHA-256 -/

def shaK : List (List Nat) := [
  [0x428a2f98, 0x71374491, 0xb5c0fbcf, 0xe9b5dba5, 0x3956c25b, 0x59f111f1, 0x923f82a4, 0xab1c5ed5],
  [0xd807aa98, 0x12835b01, 0x243185be, 0x550c7dc3, 0x72be5d74, 0x80deb1fe, 0x9bdc06a7, 0xc19bf174],
  [0xe49b69c1, 0xefbe4786, 0x0fc19dc6, 0x240ca1cc, 0x2de92c6f, 0x4a7484aa, 0x5cb0a9dc, 0x76f988da],
  [0x983e5152, 0xa831c66d, 0xb00327c8, 0xbf597fc7, 0xc6e00bf3, 0xd5a79147, 0x06ca6351, 0x14292967],
  [0x27b70a85, 0x2e1b2138, 0x4d2c6dfc, 0x53380d13, 0x650a7354, 0x766a0abb, 0x81c2c92e, 0x92722c85],
  [0xa2bfe8a1, 0xa81a664b, 0xc24b8b70, 0xc76c51a3, 0xd192e819, 0xd6990624, 0xf40e3585, 0x106aa070],
  [0x19a4c116, 0x1e376c08, 0x2748774c, 0x34b0bcb5, 0x391c0cb3, 0x4ed8aa4a, 0x5b9cca4f, 0x682e6ff3],
  [0x748f82ee, 0x78a5636f, 0x84c87814, 0x8cc70208, 0x90befffa, 0xa4506ceb, 0xbef9a3f7, 0xc67178f2]]

def shaInit : List (BitVec 32) :=
  [0x6a09e667#32, 0xbb67ae85#32, 0x3c6ef372#32, 0xa54ff53a#32, 0x510e527f#32, 0x9b05688c#32, 0x1f83d9ab#32, 0x5be0cd19#32]

def rotr (x : BitVec 32) (n : Nat) : BitVec 32 := x.rotateRight n

/-- The message schedule, newest word first. -/
def shaSchedule : Nat → List (BitVec 32) → List (BitVec 32)
  | 0, w => w
  | n + 1, w =>
    let a := w.getD 14 0#32
    let b := w.getD 1 0#32
    let s0 := rotr a 7 ^^^ rotr a 18 ^^^ (a >>> 3)
    let s1 := rotr b 17 ^^^ rotr b 19 ^^^ (b >>> 10)
    shaSchedule n ((w.getD 15 0#32 + s0 + w.getD 6 0#32 + s1) :: w)

def shaRound (st : List (BitVec 32)) (kw : Nat × BitVec 32) : List (BitVec 32) :=
  match st with
  | [a, b, c, d, e, f, g, h] =>
    let s1 := rotr e 6 ^^^ rotr e 11 ^^^ rotr e 25
    let ch := (e &&& f) ^^^ (~~~e &&& g)
    let t1 := h + s1 + ch + BitVec.ofNat 32 kw.1 + kw.2
    let s0 := rotr a 2 ^^^ rotr a 13 ^^^ rotr a 22
    let maj := (a &&& b) ^^^ (a &&& c) ^^^ (b &&& c)
    [t1 + (s0 + maj), a, b, c, d + t1, e, f, g]
  | l => l

def shaBlock (st : List (BitVec 32)) (block : Bytes) : List (BitVec 32) :=
  let w0 := (pieces 4 block).map fun p => BitVec.ofNat 32 (beNat p)
  let w := (shaSchedule 48 w0.reverse).reverse
  let r := (shaK.flatten.zip w).foldl shaRound st
  (st.zip r).map fun (a, b) => a + b

/-- SHA-256 of a message, 32 bytes. -/
def sha256 (b : Bytes) : Bytes :=
  let pad := (55 + 64 - b.length % 64) % 64
  let msg := b ++ (0x80#8 :: zeros pad) ++ beBytes 8 (8 * b.length)
  ((pieces 64 msg).foldl shaBlock shaInit).flatMap fun x => beBytes 4 x.toNat

/-- a^e mod n by squaring; `fuel` bounds the bits of e. -/
def powMod : Nat → Nat → Nat → Nat → Nat → Nat
  | 0, _, _, _, acc => acc
  | fuel + 1, a, e, n, acc =>
    if e = 0 then acc else powMod fuel (a * a % n) (e / 2) n (if e % 2 = 1 then acc * a % n else acc)

/-- The DER prefix of a SHA-256 DigestInfo (RFC 8017, 9.2). -/
def digestInfo : Bytes :=
  [0x30#8, 0x31#8, 0x30#8, 0x0d#8, 0x06#8, 0x09#8, 0x60#8, 0x86#8, 0x48#8, 0x01#8, 0x65#8, 0x03#8, 0x04#8, 0x02#8,
   0x01#8, 0x05#8, 0x00#8, 0x04#8, 0x20#8]

/-- RSASSA-PKCS1-v1_5 with SHA-256: modulus, exponent, digest, signature (big-endian, as long as the modulus). -/
def rsaVerify (n e len : Nat) (digest sig : Bytes) : Bool :=
  let t := digestInfo ++ digest
  let em := [0x00#8, 0x01#8] ++ List.replicate (len - 3 - t.length) 0xFF#8 ++ [0x00#8] ++ t
  decide (beNat sig < n) && decide (sig.length = len) && beBytes len (powMod (8 * len) (beNat sig % n) e n (1 % n)) == em

end Sys2Proof.Machine
end

