-- ==== Sys2Proof/Machine/Float.lean ====
section
/-! DEFINITION. Numbers, codes and scores (R36 to R53): the element formats, exact products, additions rounded to nearest
even, the accumulation order of R43, the narrowing conversions of R44 and the integer rescale of R46. -/
namespace Sys2Proof.Machine

/-- The value that a floating-point code stands for: a NaN, an infinity, or ± m × 2^e. -/
inductive Num where
  | nan | inf (neg : Bool) | fin (neg : Bool) (m : Nat) (e : Int)
deriving DecidableEq, Repr, Inhabited

/-- R37: the NaN that the node produces. -/
def fNaN : F32 := 0x7FC00000#32
def fPosInf : F32 := 0x7F800000#32
def fNegInf : F32 := 0xFF800000#32
def fZero : F32 := 0#32
def fOne : F32 := 0x3F800000#32

/-- The value of a code with IEEE 754 exponent and fraction fields (R36). -/
def ieeeNum (eb fb : Nat) (w : Nat) : Num :=
  let frac := w % 2 ^ fb
  let ex := w / 2 ^ fb % 2 ^ eb
  let neg := w.testBit (eb + fb)
  let bias : Int := 2 ^ (eb - 1) - 1
  if ex = 2 ^ eb - 1 then (if frac = 0 then .inf neg else .nan)
  else if ex = 0 then .fin neg frac (1 - bias - fb)
  else .fin neg (2 ^ fb + frac) ((ex : Int) - bias - fb)

/-- The value of an fp32 code. -/
def fNum (x : F32) : Num := ieeeNum 8 23 x.toNat

/-- R36: the value of an E4M3 code: no infinities, NaN at 0x7F and 0xFF only. -/
def e4m3Num (w : Nat) : Num :=
  let frac := w % 8
  let ex := w / 8 % 16
  let neg := w.testBit 7
  if w % 128 = 127 then .nan
  else if ex = 0 then .fin neg frac (-9)
  else .fin neg (8 + frac) ((ex : Int) - 10)

/-- How many bits a number has. -/
def bitLen (m : Nat) : Nat := if m = 0 then 0 else m.log2 + 1

/-- An fp32 code from a significand below 2^25 at the quantum 2^q, q at least −149. -/
def fPack (neg : Bool) (k : Nat) (q : Int) : F32 :=
  let (k, q) := if 2 ^ 24 ≤ k then (k / 2, q + 1) else (k, q)
  let body := if k < 2 ^ 23 then k
    else
      let ex := (q + 150).toNat
      if 255 ≤ ex then 0x7F800000 else ex * 2 ^ 23 + (k - 2 ^ 23)
  BitVec.ofNat 32 (body + (if neg then 2 ^ 31 else 0))

/-- R42: ± m × 2^e, plus a little when `sticky`, rounded to nearest even; overflow gives an infinity. -/
def fRound (neg : Bool) (m : Nat) (e : Int) (sticky : Bool) : F32 :=
  let m' := 2 * m + b2n sticky
  let e' := e - 1
  let q : Int := max (e' + bitLen m' - 24) (-149)
  if q ≤ e' then fPack neg (m' * 2 ^ (e' - q).toNat) q
  else
    let sh := (q - e').toNat
    let k := m' / 2 ^ sh
    let r := m' % 2 ^ sh
    let half := 2 ^ (sh - 1)
    let k' := if half < r || (r == half && k % 2 == 1) then k + 1 else k
    fPack neg k' q

/-- R44: ± m × 2^e truncated toward zero in fp32, saturated at the largest finite value. -/
def fTrunc (neg : Bool) (m : Nat) (e : Int) : F32 :=
  let q : Int := max (e + bitLen m - 24) (-149)
  let k := if q ≤ e then m * 2 ^ (e - q).toNat else m / 2 ^ (q - e).toNat
  let r := fPack neg k q
  if r.toNat % 2 ^ 31 = 0x7F800000 then BitVec.ofNat 32 (0x7F7FFFFF + (if neg then 2 ^ 31 else 0)) else r

/-- The fp32 code of a value that fp32 holds. -/
def fOf : Num → F32
  | .nan => fNaN
  | .inf neg => if neg then fNegInf else fPosInf
  | .fin neg m e => fRound neg m e false

def fIsNaN (x : F32) : Bool := match fNum x with | .nan => true | _ => false

/-- A number that orders every fp32 code that is no NaN; +0 and −0 are equal (R50). -/
def fKey (x : F32) : Int := if x.toNat < 2 ^ 31 then (x.toNat : Int) else -((x.toNat - 2 ^ 31 : Nat) : Int)

def fLt (x y : F32) : Bool := decide (fKey x < fKey y)
def fEq (x y : F32) : Bool := decide (fKey x = fKey y)
def fNeg (x : F32) : F32 := if fIsNaN x then fNaN else x ^^^ 0x80000000#32
def fMax (x y : F32) : F32 := if fLt x y then y else x

/-- R42: the sum, rounded to nearest even; two zeros of unlike sign, or a cancellation, give +0 (IEEE 754). -/
def fAdd (x y : F32) : F32 :=
  match fNum x, fNum y with
  | .nan, _ => fNaN
  | _, .nan => fNaN
  | .inf a, .inf b => if a = b then (if a then fNegInf else fPosInf) else fNaN
  | .inf a, .fin .. => if a then fNegInf else fPosInf
  | .fin .., .inf b => if b then fNegInf else fPosInf
  | .fin a m e, .fin b n f =>
    let lo := min e f
    let s1 : Int := (if a then -1 else 1) * (m * 2 ^ (e - lo).toNat : Nat)
    let s2 : Int := (if b then -1 else 1) * (n * 2 ^ (f - lo).toNat : Nat)
    let s := s1 + s2
    if s = 0 then (if a && b then 0x80000000#32 else fZero)
    else fRound (decide (s < 0)) s.natAbs lo false

def fSub (x y : F32) : F32 := fAdd x (fNeg y)

/-- R41: the product; exact wherever fp32 holds it, else rounded to nearest even (log entry 30). -/
def fMul (x y : F32) : F32 :=
  match fNum x, fNum y with
  | .nan, _ => fNaN
  | _, .nan => fNaN
  | .inf a, .inf b => if a = b then fPosInf else fNegInf
  | .inf a, .fin b m _ => if m = 0 then fNaN else if a = b then fPosInf else fNegInf
  | .fin a m _, .inf b => if m = 0 then fNaN else if a = b then fPosInf else fNegInf
  | .fin a m e, .fin b n f => fRound (a != b) (m * n) (e + f) false

/-- The quotient rounded to nearest even (log entry 30). -/
def fDiv (x y : F32) : F32 :=
  match fNum x, fNum y with
  | .nan, _ => fNaN
  | _, .nan => fNaN
  | .inf _, .inf _ => fNaN
  | .inf a, .fin b _ _ => if a = b then fPosInf else fNegInf
  | .fin a _ _, .inf b => if a = b then fZero else 0x80000000#32
  | .fin a m e, .fin b n f =>
    if n = 0 then (if m = 0 then fNaN else if a = b then fPosInf else fNegInf)
    else
      let top := m * 2 ^ 64
      fRound (a != b) (top / n) (e - f - 64) (decide (top % n ≠ 0))

/-- ln 2 in units of 2^-256. -/
def ln2Fix : Nat := 0xb17217f7d1cf79abc9e3b39803f2f6af40f343267298b62d8a0d175b8baafa2b

/-- The sum of the series of exp at r, both in units of 2^-256, for r below ln 2. -/
def expSeries (r : Nat) : Nat :=
  ((List.range 64).foldl (fun (t, sum) i => let t := t * r / 2 ^ 256 / (i + 1); (t, sum + t)) (2 ^ 256, 2 ^ 256)).2

/-- R44: the exponential of ± m × 2^e, truncated toward zero in fp32; none above the fp32 range. -/
def expTrunc (neg : Bool) (m : Nat) (e : Int) : Option F32 :=
  if 7 < e + bitLen m then (if neg then some fZero else none)
  else
    let x : Int := (if neg then -1 else 1) * ((m * 2 ^ (e + 256).toNat : Nat) : Int)
    let k : Int := x / (ln2Fix : Int)
    if 128 ≤ k then none else some (fTrunc false (expSeries (x - k * (ln2Fix : Int)).toNat) (k - 256))

/-- R37, R127: the exponential unit: a value within 2 ulp of the exact one; which is the unit's own (log entry 10). -/
def fExp (x : F32) : F32 :=
  match fNum x with
  | .nan => fNaN
  | .inf neg => if neg then fZero else fPosInf
  | .fin neg m e => match expTrunc neg m e with
    | some y => BitVec.ofNat 32 (min 0x7F800000 (y.toNat + Config.expStep x % 4 - 1))
    | none => fPosInf

/-- R53, R127: exp(s − m), where exp(+inf − +inf) is 1. -/
def fExpDiff (x m : F32) : F32 := if x = fPosInf && m = fPosInf then fOne else fExp (fSub x m)

/-- R44: int32 to fp32, truncated toward zero. -/
def fOfInt (v : Int) : F32 := fTrunc (decide (v < 0)) v.natAbs 0

/-- An fp32 value that an integer element widens to exactly. -/
def fOfSmall (v : Int) : F32 := fRound (decide (v < 0)) v.natAbs 0 false

/-- R43: one addition per lane, in ascending j, from a running sum of +0. -/
def laneSums (lanes : List F32) : List F32 → Nat → List F32
  | [], _ => lanes
  | x :: r, j => laneSums (lanes.modify (j % 64) (fun a => fAdd a x)) r (j + 1)

/-- R43: one level of the pairwise tree. -/
def pairUp (add : F32 → F32 → F32) : List F32 → List F32
  | a :: b :: r => add a b :: pairUp add r
  | l => l

/-- R43: the sum of terms in the fixed order. -/
def sumR43 (terms : List F32) : F32 :=
  let l0 := laneSums (List.replicate 64 fZero) terms 0
  let up := pairUp fAdd
  (up (up (up (up (up (up l0)))))).headD fZero

/-- R36: bits of an element of a format code; 0 for a code that is none. -/
def fmtBits : Nat → Nat
  | 0 => 32 | 1 => 16 | 2 => 16 | 3 => 8 | 4 => 8 | 5 => 8 | 6 => 4 | 7 => 32 | 8 => 4 | 9 => 8 | 10 => 1 | _ => 0

/-- R36: the format codes of floating-point elements. -/
def fmtIsFloat (f : Nat) : Bool := decide (f ≤ 4)

/-- R38: bytes that n packed elements take. -/
def fmtBytes (f n : Nat) : Nat := ceilDiv (fmtBits f * n) 8

/-- R38: the bits of element i of a packed array. -/
def elemRaw (f : Nat) (b : Bytes) (i : Nat) : Nat :=
  match f with
  | 6 | 8 => byteAt b (i / 2) / (if i % 2 = 0 then 1 else 16) % 16
  | 10 => b2n ((byteAt b (i / 8)).testBit (i % 8))
  | _ => leAt b (i * (fmtBits f / 8)) (fmtBits f / 8)

/-- The value of the bits of a floating-point element (R36). -/
def floatNum (f w : Nat) : Num :=
  match f with
  | 0 => ieeeNum 8 23 w
  | 1 => ieeeNum 8 7 w
  | 2 => ieeeNum 5 10 w
  | 3 => e4m3Num w
  | _ => ieeeNum 5 2 w

/-- R38: an integer element; centroid indices and binary elements are unsigned. -/
def elemInt (f : Nat) (b : Bytes) (i : Nat) : Int :=
  let w := elemRaw f b i
  match f with
  | 5 => signed 8 w
  | 6 => signed 4 w
  | 7 => signed 32 w
  | _ => w

/-- R41: an element widened exactly to fp32. -/
def elemF (f : Nat) (b : Bytes) (i : Nat) : F32 :=
  if fmtIsFloat f then fOf (floatNum f (elemRaw f b i)) else fOfSmall (elemInt f b i)

/-- R38: a packed array of elements as fp32. -/
def elemsF (f : Nat) (b : Bytes) (n : Nat) : List F32 := (List.range n).map (elemF f b)

/-- R38: a packed array of elements as integers. -/
def elemsI (f : Nat) (b : Bytes) (n : Nat) : List Int := (List.range n).map (elemInt f b)

/-- R44, R45: fp32 to a floating-point format: code, and whether it counts as a saturation. -/
def narrowFloat (f : Nat) (x : F32) : Nat × Bool :=
  let (eb, fb) : Nat × Nat := match f with | 1 => (8, 7) | 2 => (5, 10) | 3 => (4, 3) | _ => (5, 2)
  let top := eb + fb
  let sgn (neg : Bool) : Nat := if neg then 2 ^ top else 0
  let largest : Nat := if f = 3 then 0x7E else (2 ^ eb - 1) * 2 ^ fb - 1
  match fNum x with
  | .nan => (if f = 3 then 0x7F else (2 ^ eb - 1) * 2 ^ fb + 2 ^ (fb - 1), false)
  | .inf neg => if f = 3 then (0x7E + sgn neg, true) else ((2 ^ eb - 1) * 2 ^ fb + sgn neg, false)
  | .fin neg m e =>
    if m = 0 then (sgn neg, false) else
    let bias : Int := 2 ^ (eb - 1) - 1
    let least : Int := 1 - bias - fb
    let q : Int := max (e + bitLen m - (fb + 1)) least
    let k := if q ≤ e then m * 2 ^ (e - q).toNat else m / 2 ^ (q - e).toNat
    let body : Int := if k < 2 ^ fb then k else (q - least + 1) * 2 ^ fb + ((k : Int) - 2 ^ fb)
    if (largest : Int) < body then (largest + sgn neg, true) else (body.toNat + sgn neg, false)

/-- R44, R45: an integer saturated to an n-bit two's complement target: value, and whether that counts. -/
def satInt (n : Nat) (v : Int) : Int × Bool :=
  let hi : Int := 2 ^ (n - 1) - 1
  let lo : Int := -(2 ^ (n - 1))
  if hi < v then (hi, true) else if v < lo then (lo, true) else (v, false)

/-- R44, R45: fp32 to an n-bit integer. -/
def narrowInt (n : Nat) (x : F32) : Int × Bool :=
  match fNum x with
  | .nan => (0, true)
  | .inf neg => (if neg then -(2 ^ (n - 1)) else 2 ^ (n - 1) - 1, true)
  | .fin neg m e =>
    let a : Nat := if 0 ≤ e then m * 2 ^ e.toNat else m / 2 ^ (-e).toNat
    satInt n (if neg then -(a : Int) else a)

/-- R44: fp32 to any element format: code, and whether it counts as a saturation. -/
def narrow (f : Nat) (x : F32) : Nat × Bool :=
  match f with
  | 0 => (if fIsNaN x then fNaN.toNat else x.toNat, false)
  | 5 | 6 | 7 => let (v, c) := narrowInt (fmtBits f) x; (toTwos (fmtBits f) v, c)
  | _ => narrowFloat f x

/-- R38: elements packed; 4-bit elements go two to a byte, the unused half of the last byte 0. -/
def packElems (f : Nat) (l : List Nat) : Bytes :=
  if fmtBits f = 4 then
    (pieces 2 l).map fun p => BitVec.ofNat 8 (p.getD 0 0 % 16 + 16 * (p.getD 1 0 % 16))
  else (l.map (leBytes (fmtBits f / 8))).flatten

/-- R44: fp32 values narrowed and packed, and how many conversions count as saturations. -/
def packF (f : Nat) (l : List F32) : Bytes × Nat :=
  let r := l.map (narrow f)
  (packElems f (r.map (·.1)), (r.filter (·.2)).length)

/-- R46: the integer rescale to an n-bit output: value, and whether it saturated. -/
def rescale (n : Nat) (a : Int) (m sh : Nat) : Int × Bool :=
  let p := a * m
  let q : Int := (p.natAbs / 2 ^ sh : Nat)
  satInt n (if p < 0 then -q else q)

/-- R41, R43, R48: the inner product of two element arrays of one or two formats. -/
def dotScore (fq fx : Nat) (q x : Bytes) (d : Nat) : F32 :=
  if fmtIsFloat fq || fmtIsFloat fx then
    sumR43 ((List.range d).map fun j => fMul (elemF fq q j) (elemF fx x j))
  else fOfInt ((List.range d).foldl (fun a j => a + elemInt fq q j * elemInt fx x j) 0)

/-- R43, R48: the L2 score. -/
def l2Score (fq fx : Nat) (q x : Bytes) (d : Nat) : F32 :=
  if fmtIsFloat fq || fmtIsFloat fx then
    fNeg (sumR43 ((List.range d).map fun j =>
      let t := fSub (elemF fq q j) (elemF fx x j)
      fMul t t))
  else fOfInt (-((List.range d).foldl (fun a j => a + (elemInt fq q j - elemInt fx x j) ^ 2) 0))

/-- R48: the Hamming score over d bits. -/
def hammingScore (q x : Bytes) (d : Nat) : F32 :=
  fOfInt (-(((List.range d).filter fun j => elemRaw 10 q j != elemRaw 10 x j).length : Int))

/-- R48: the score of a distance mode code; query and item may have formats of their own (R41). -/
def score (mode fq fx : Nat) (q x : Bytes) (d : Nat) : F32 :=
  match mode with
  | 0 => l2Score fq fx q x d
  | 1 => dotScore fq fx q x d
  | _ => hammingScore q x d

/-- R49: the compressed score of a PQ code from the slot's LUT: s × Σ + b. -/
def pqScore (codeFmt : Nat) (lut code : Bytes) (m : Nat) (scale bias : F32) : F32 :=
  let width := if codeFmt = 8 then 16 else 256
  let sum := (List.range m).foldl (fun a j => a + byteAt lut (j * width + elemRaw codeFmt code j)) 0
  fAdd (fMul scale (fOfInt sum)) bias

end Sys2Proof.Machine
end

