-- ==== Sys2Proof/Machine/Ops.lean ====
section
/-! DEFINITION. The named operations over the state: registers and their fields (R9, R10, R531), local HBM with its two
address mappings (R100 to R102) and its check code (R118 to R122), time (R504) and the parts of the state kept by
number. Every read and write of a register or of memory by another file goes through these. -/
namespace Sys2Proof.Machine

/-! Status codes -/

/-- R28: the number of a status code. -/
def Code.num : Code → Nat
  | .ok => 0x00 | .short => 0x01 | .widened => 0x02 | .deadlineCheap => 0x03
  | .moved => 0x10 | .routeStale => 0x11 | .stateLost => 0x12 | .fenced => 0x13 | .ownerLost => 0x14
  | .poison => 0x20 | .uncorrectable => 0x21
  | .invalidArg => 0x30 | .quota => 0x31 | .denied => 0x32
  | .timeout => 0x40 | .aborted => 0x41 | .reset => 0x42

/-- R28: the code of a number; a number that is no code reads as INVALID_ARG (R31: a peer of this node sends none). -/
def Code.ofNum (n : Nat) : Code :=
  match n with
  | 0x00 => .ok | 0x01 => .short | 0x02 => .widened | 0x03 => .deadlineCheap
  | 0x10 => .moved | 0x11 => .routeStale | 0x12 => .stateLost | 0x13 => .fenced | 0x14 => .ownerLost
  | 0x20 => .poison | 0x21 => .uncorrectable
  | 0x30 => .invalidArg | 0x31 => .quota | 0x32 => .denied
  | 0x40 => .timeout | 0x41 => .aborted | 0x42 => .reset
  | _ => .invalidArg

/-- R28: the codes that report a request that did not complete as asked. -/
def Code.bad (c : Code) : Bool := decide (0x10 ≤ c.num)

/-- R30: of two codes met together the larger. -/
def Code.worst (a b : Code) : Code := if a.num < b.num then b else a

/-! Registers -/

/-- The value of a register at reset (R5: the Reset column). -/
def Reg.resetVal (r : Reg) (i : Nat) : Nat := (r.fields i).foldl (fun a f => a + f.reset * 2 ^ f.lo) 0

/-- R531: the register and instance at an address. -/
def Reg.find (addr : Nat) : Option (Reg × Nat) :=
  match Reg.all.find? fun r => decide (r.place.1 ≤ addr) && decide (addr < r.place.1 + 8 * r.place.2) with
  | some r => if addr % 8 = 0 then some (r, (addr - r.place.1) / 8) else none
  | none => none

/-- What an unlisted register address reads as. -/
def regDefault (addr : Nat) : Word :=
  match Reg.find addr with
  | some (r, i) => BitVec.ofNat 64 (r.resetVal i)
  | none => 0#64

/-- The value that a register holds. -/
def State.reg (s : State) (r : Reg) (i : Nat) : Nat :=
  match SMap.find s.regs (r.addr i) with
  | some v => v.toNat
  | none => r.resetVal i

/-- A register given a value. -/
def State.setReg (s : State) (r : Reg) (i v : Nat) : State :=
  { s with regs := SMap.put (BitVec.ofNat 64 (r.resetVal i)) s.regs (r.addr i) (BitVec.ofNat 64 v) }

/-- The value of a field. -/
def State.f (s : State) (x : Fld) (i : Nat) : Nat := bits (s.reg x.reg i) x.hi x.lo

/-- True when a field is not 0. -/
def State.on (s : State) (x : Fld) (i : Nat) : Bool := decide (s.f x i ≠ 0)

/-- A field given a value. -/
def State.setF (s : State) (x : Fld) (i v : Nat) : State := s.setReg x.reg i (setBits (s.reg x.reg i) x.hi x.lo v)

/-- A count raised; it stops at its largest value. -/
def State.addF (s : State) (x : Fld) (i n : Nat) : State := s.setF x i (satAdd (x.hi + 1 - x.lo) (s.f x i) n)

/-- One bit of a field set. -/
def State.setBitF (s : State) (x : Fld) (i b : Nat) : State := s.setF x i (s.f x i ||| 2 ^ b)

/-- Several fields of one register set, from its present value. -/
def State.setFs (s : State) (i : Nat) (l : List (Fld × Nat)) : State := l.foldl (fun s (x, v) => s.setF x i v) s

/-- The register at its reset value. -/
def State.clearReg (s : State) (r : Reg) (i : Nat) : State := s.setReg r i (r.resetVal i)

/-- R504: the always-on µs count. -/
def State.now (s : State) : Nat := s.f F.CLK_TIME_US 0

/-- A fresh number for a free value. -/
def State.draw (s : State) : State × Nat := ({ s with free := s.free + 1 }, s.free)

/-! Local HBM -/

/-- R518: bytes that lie wholly in window 1. -/
def inHbm (addr len : Nat) : Bool :=
  decide (Config.hbmBase ≤ addr) && decide (addr + len ≤ Config.hbmBase + Config.hbmSize)

/-- R100: the press group of a device address in window 1. -/
def groupOf (addr : Nat) : Nat := (addr - Config.hbmBase) / 2 ^ 30

/-- R100: true when a group is in press mode. -/
def State.pressMode (s : State) (g : Nat) : Bool := bit (s.reg .pressGroup (g / 64)) (g % 64)

/-- The physical place of an offset in window 1: group, press index and offset within the page, in the arrangement of
R101. -/
def State.phys (s : State) (addr : Nat) : Nat :=
  let a := addr - Config.hbmBase
  let g := a / 2 ^ 30
  if s.pressMode g then a
  else
    let n := bits a 29 8
    let r := bits n 21 13
    let pi := Nat.xor (bits n 8 0) r
    let bank := Nat.xor (bits n 10 9) (r % 4)
    g * 2 ^ 30 + pi * 2 ^ 21 + r * 2 ^ 12 + bank * 2 ^ 10 + bits n 12 11 * 2 ^ 8 + a % 256

/-- The device address that reaches a physical place under its group's mapping (the inverse of `phys`). -/
def State.addrOf (s : State) (p : Nat) : Nat :=
  let g := p / 2 ^ 30
  if s.pressMode g then Config.hbmBase + p
  else
    let pi := p / 2 ^ 21 % 512
    let r := p / 2 ^ 12 % 512
    let n := Nat.xor pi r + Nat.xor (p / 2 ^ 10 % 4) (r % 4) * 2 ^ 9 + p / 2 ^ 8 % 4 * 2 ^ 11 + r * 2 ^ 13
    Config.hbmBase + g * 2 ^ 30 + n * 2 ^ 8 + p % 256

/-- R101: the physical place of byte o of block b of a press unit. -/
def blockPhys (u b o : Nat) : Nat := b / 512 * 2 ^ 30 + u * 2 ^ 21 + b % 512 * 2 ^ 12 + o

/-- R101: the device address of a block of a press unit in a press-mode group. -/
def blockAddr (u b : Nat) : Nat := Config.hbmBase + blockPhys u b 0

/-- Press index of a physical place. -/
def physUnit (p : Nat) : Nat := p / 2 ^ 21 % 512

/-- Block number of a physical place (R101). -/
def physBlock (p : Nat) : Nat := p / 2 ^ 30 * 512 + p / 2 ^ 12 % 512

/-- The byte stored at a physical place; a byte that nothing has written reads as 0 (log entry 1). -/
def State.byteP (s : State) (p : Nat) : Byte := SMap.get 0#8 s.mem p

/-- The bytes stored from a physical place on. -/
def State.bytesP (s : State) (p len : Nat) : Bytes := (List.range len).map fun k => s.byteP (p + k)

/-- Memory with one byte written. -/
def memPut (m : List Host.Cell) (p : Nat) (b : Byte) : List Host.Cell := SMap.put 0#8 m p b

/-- Bytes written from a physical place on, check fields apart. -/
def State.putP (s : State) (p : Nat) : Bytes → State
  | [] => s
  | b :: r => { s with mem := memPut s.mem p b }.putP (p + 1) r

/-! The check code -/

/-- R118: the product by α in GF(2^64). -/
def mulAlpha (x : BitVec 64) : BitVec 64 := (x <<< 1) ^^^ (if x.msb then 0x1b#64 else 0#64)

/-- α^i × x. -/
def mulAlphaN : Nat → BitVec 64 → BitVec 64
  | 0, x => x
  | n + 1, x => mulAlphaN n (mulAlpha x)

/-- R118: the check field of a codeword's data: P and Q. -/
def checkField (d : Bytes) : BitVec 64 × BitVec 64 :=
  let w (i : Nat) : BitVec 64 := BitVec.ofNat 64 (leAt d (8 * i) 8)
  (w 0 ^^^ w 1 ^^^ w 2 ^^^ w 3, w 0 ^^^ mulAlphaN 1 (w 1) ^^^ mulAlphaN 2 (w 2) ^^^ mulAlphaN 3 (w 3))

/-- What reading a codeword finds (R119). -/
inductive CwRead where
  | clean | corrected (symbol : Nat) | poisoned | uncorrectable
deriving DecidableEq, Repr, Inhabited

/-- R119: the outcome of a pair of syndromes. -/
def Syn.read (x : Syn) : CwRead :=
  if x.p = 0#64 then
    if x.q = 0#64 then .clean
    else if x.q = 0x8000000000000000#64 then .poisoned
    else .corrected 5
  else if x.q = 0#64 then .corrected 4
  else match (List.range 4).find? fun i => decide (x.q = mulAlphaN i x.p) with
    | some i => .corrected i
    | none => .uncorrectable

/-- The syndromes of a poisoned codeword (R118). -/
def Syn.poison : Syn := ⟨0#64, 0x8000000000000000#64⟩

def Syn.clean : Syn := ⟨0#64, 0#64⟩

/-- The syndromes of a codeword. -/
def State.syn (s : State) (cw : Nat) : Syn := SMap.get Syn.clean s.ecc cw

def State.setSyn (s : State) (cw : Nat) (x : Syn) : State := { s with ecc := SMap.put Syn.clean s.ecc cw x }

/-- R119: the data that a read of codeword number cw returns. -/
def State.cwData (s : State) (cw : Nat) : Bytes :=
  let d := s.bytesP (32 * cw) 32
  match (s.syn cw).read with
  | .corrected i =>
    if i < 4 then
      putAt d (8 * i) (leBytes 8 (Nat.xor (leAt d (8 * i) 8) (s.syn cw).p.toNat))
    else d
  | _ => d

/-- R119, R135, R136: the counts and the log of the reads of one codeword. -/
def State.noteCw (s : State) (cw : Nat) : State :=
  let p := 32 * cw
  let u := physUnit p
  let note (s : State) (sym cls : Nat) : State :=
    if s.on F.PRESS_ECC_LOG_VALID u then s
    else s.setFs u [(F.PRESS_ECC_LOG_BLOCK, physBlock p), (F.PRESS_ECC_LOG_CW, cw % 128),
      (F.PRESS_ECC_LOG_SYMBOL, sym), (F.PRESS_ECC_LOG_CLASS, cls), (F.PRESS_ECC_LOG_VALID, 1)]
  match (s.syn cw).read with
  | .clean => s
  | .corrected i => note (s.addF F.PRESS_ECC_CNT_CORRECTED u 1) i 1
  | .poisoned => note (s.addF F.PRESS_ECC_CNT_POISON u 1) 0 3
  | .uncorrectable => note (s.addF F.PRESS_ECC_CNT_UNCORR u 1) 0 2

/-- The code of a codeword read for a request (R122). -/
def CwRead.code : CwRead → Code
  | .poisoned => .poison
  | .uncorrectable => .uncorrectable
  | _ => .ok

/-- The codewords that bytes of window 1 touch, in address order. -/
def State.cwsOf (s : State) (addr len : Nat) : List Nat :=
  if len = 0 then [] else
  let lo := addr / 32
  (List.range ((addr + len - 1) / 32 + 1 - lo)).map fun k => s.phys (32 * (lo + k)) / 32

/-- The worst code that a read of bytes of window 1 meets. -/
def State.readCode (s : State) (addr len : Nat) : Code :=
  if s.ecc = [] then .ok else
  (s.cwsOf addr len).foldl (fun c w => c.worst (s.syn w).read.code) .ok

/-- The bytes that a read of window 1 returns. -/
def State.peek (s : State) (addr len : Nat) : Bytes :=
  if s.ecc = [] then (List.range len).map fun k => s.byteP (s.phys (addr + k))
  else (List.range len).map fun k =>
    let p := s.phys (addr + k)
    (s.cwData (p / 32)).getD (p % 32) 0#8

/-- R119, R135: the counts of a read of bytes of window 1. -/
def State.noteBytes (s : State) (addr len : Nat) : State :=
  if s.ecc = [] then s else (s.cwsOf addr len).foldl State.noteCw s

/-- R119, R120: the counts of the codewords that a write of bytes of window 1 reads first, since it changes part of them. -/
def State.noteParts (s : State) (addr len : Nat) : State :=
  if s.ecc = [] then s else
  if len = 0 then s else
  let s := if addr % 32 ≠ 0 ∨ len < 32 then s.noteBytes addr 1 else s
  if (addr + len) % 32 ≠ 0 ∧ addr / 32 ≠ (addr + len - 1) / 32 then s.noteBytes (addr + len - 1) 1 else s

/-- A read of window 1 through its controllers: bytes, worst code, and the state with its counts (R119, R135). -/
def State.load (s : State) (addr len : Nat) : State × Bytes × Code :=
  (s.noteBytes addr len, s.peek addr len, s.readCode addr len)

/-- The little-endian value of n bytes of window 1. -/
def State.peekN (s : State) (addr n : Nat) : Nat := leNat (s.peek addr n)

/-- R120: a codeword before part of it is written: corrected, or poisoned when its data cannot be corrected. -/
def State.repairCw (s : State) (cw : Nat) : State :=
  match (s.syn cw).read with
  | .clean => s
  | .corrected _ => (s.putP (32 * cw) (s.cwData cw)).setSyn cw Syn.clean
  | _ => s.setSyn cw Syn.poison

/-- Bytes written one by one at the places that their addresses map to. -/
def State.putAll (s : State) (addr : Nat) : Bytes → State
  | [] => s
  | b :: r => { s with mem := memPut s.mem (s.phys addr) b }.putAll (addr + 1) r

/-- A write of window 1 through its controllers: a codeword written whole becomes clean, one written in part is
corrected, or stays damaged as poison (R118, R120). -/
def State.store (s : State) (addr : Nat) (d : Bytes) : State :=
  if s.ecc = [] then s.putAll addr d else
  let s1 := (s.cwsOf addr d.length).foldl State.repairCw s
  let s2 := s1.putAll addr d
  let lo := ceilDiv addr 32
  let hi := (addr + d.length) / 32
  (List.range (hi - lo)).foldl (fun s k => s.setSyn (s.phys (32 * (lo + k)) / 32) Syn.clean) s2

/-- A value of n bytes written to window 1. -/
def State.storeN (s : State) (addr n v : Nat) : State := s.store addr (leBytes n v)

/-- The codewords of bytes of window 1 written as poison (R118). -/
def State.poisonAt (s : State) (addr len : Nat) : State :=
  (s.cwsOf addr len).foldl (fun s w => s.setSyn w Syn.poison) s

/-- True when a codeword of an address range is poisoned. -/
def State.anyPoison (s : State) (addr len : Nat) : Bool :=
  s.ecc.any fun (cw, x) => x.read == .poisoned &&
    (let a := s.addrOf (32 * cw); decide (addr ≤ a) && decide (a < addr + len))

/-- An address range of window 1 set to zeros, its codewords clean. -/
def State.zeroRange (s : State) (addr len : Nat) : State :=
  let inside (p : Nat) : Bool := let a := s.addrOf p; decide (addr ≤ a) && decide (a < addr + len)
  { s with mem := s.mem.filter fun (p, _) => !inside p, ecc := s.ecc.filter fun (cw, _) => !inside (32 * cw) }

/-! Parts of the state kept by number -/

/-- What a Nahel port holds. -/
def State.nl (s : State) (p : Nat) : NlPort := if p = 0 then s.nl0 else s.nl1

def State.setNl (s : State) (p : Nat) (f : NlPort → NlPort) : State :=
  if p = 0 then { s with nl0 := f s.nl0 } else { s with nl1 := f s.nl1 }

def State.ctx (s : State) (c : Nat) : CtxSt := SMap.get default s.ctxs c

def State.setCtx (s : State) (c : Nat) (f : CtxSt → CtxSt) : State :=
  { s with ctxs := SMap.put default s.ctxs c (f (s.ctx c)) }

def State.idx (s : State) (i : Nat) : IdxSt := SMap.get default s.idxs i

def State.setIdx (s : State) (i : Nat) (f : IdxSt → IdxSt) : State :=
  { s with idxs := SMap.put default s.idxs i (f (s.idx i)) }

/-- A press unit that nothing has used: no LUT, no shortlist, nothing queued. -/
def State.pu (s : State) (u : Nat) : PressUnit := SMap.get default s.press u

def State.setPu (s : State) (u : Nat) (f : PressUnit → PressUnit) : State :=
  { s with press := SMap.put default s.press u (f (s.pu u)) }

def State.part (s : State) (n : Nat) : PartSt := SMap.get default s.parts n

def State.setPart (s : State) (n : Nat) (f : PartSt → PartSt) : State :=
  { s with parts := SMap.put default s.parts n (f (s.part n)) }

def State.job (s : State) (id : Nat) : Option SearchJob := SMap.find s.jobs id

def State.setJob (s : State) (id : Nat) (j : SearchJob) : State := { s with jobs := SMap.ins s.jobs id j }

def State.dropJob (s : State) (id : Nat) : State := { s with jobs := SMap.del s.jobs id }

def State.comp (s : State) (n : Nat) : CompSt := SMap.get default s.fab.comps n

def State.setFab (s : State) (f : FabSt → FabSt) : State := { s with fab := f s.fab }

def State.setComp (s : State) (n : Nat) (f : CompSt → CompSt) : State :=
  s.setFab fun fb => { fb with comps := SMap.put default fb.comps n (f (s.comp n)) }

def State.setCel (s : State) (f : CellarSt → CellarSt) : State := { s with cellar := f s.cellar }

def State.setPool (s : State) (f : PoolSt → PoolSt) : State := { s with pool := f s.pool }

def State.setFlt (s : State) (f : FltSt → FltSt) : State := { s with flt := f s.flt }

def State.setSec (s : State) (f : SecSt → SecSt) : State := { s with sec := f s.sec }

def State.setPwr (s : State) (f : PwrSt → PwrSt) : State := { s with pwr := f s.pwr }

def State.setPins (s : State) (f : Pins → Pins) : State := { s with pins := f s.pins }

end Sys2Proof.Machine
end

