-- ==== Sys2Proof/Machine/Flags.lean ====
section
/-! DEFINITION. The flags of the node and what raises them: the error summary (R528, R529), the fault log (R434, R461),
the device and context interrupts (R427, R525 to R527), the packets that a Nahel port sends (R415 to R418), and the
frame in which every command runs: nothing acts while the node is stopped, and after a command the summary follows its
sources. -/
namespace Sys2Proof.Machine

/-- A field whose value is the upper bits of an address, as that address. -/
def State.fAddr (s : State) (x : Fld) (i : Nat) : Nat := s.f x i * 2 ^ x.lo

/-! The error summary -/

/-- R528: the kinds of recorded events. -/
inductive ErrKind where
  | access | enable | action
deriving DecidableEq, Repr, Inhabited

def ErrKind.code : ErrKind → Nat
  | .access => 0 | .enable => 1 | .action => 2

/-- R529: the bit of TOP_ERR_SUM of a kind. -/
def ErrKind.bit : ErrKind → Fld
  | .access => F.TOP_ERR_SUM_ACCESS
  | .enable => F.TOP_ERR_SUM_ENABLE
  | .action => F.TOP_ERR_SUM_ACTION

/-- R522: the number of a source. -/
def srcCode : Src → Nat
  | .mgmt => 0 | .nahel0 => 1 | .nahel1 => 2 | .jtag => 3

/-- R529: one event recorded. -/
def State.recordErr (s : State) (k : ErrKind) (src : Src) (addr : Nat) (write : Bool) : State :=
  let s := (s.setF k.bit 0 1).addF F.TOP_ERR_CNT_COUNT 0 1
  if s.on F.TOP_ERR_FIRST_VALID 0 then s
  else s.setFs 0 [(F.TOP_ERR_FIRST_ADDR, addr), (F.TOP_ERR_FIRST_KIND, k.code), (F.TOP_ERR_FIRST_WRITE, b2n write),
    (F.TOP_ERR_FIRST_SOURCE, srcCode src), (F.TOP_ERR_FIRST_VALID, 1)]

/-- An event of a write to one register recorded. -/
def State.writeErr (s : State) (k : ErrKind) (src : Src) (r : Reg) (i : Nat) : State :=
  s.recordErr k src (r.addr i) true

/-! Nahel packets that leave the node -/

/-- R429: the states of a port. -/
def nlDown : Nat := 0
def nlDetect : Nat := 1
def nlEqualize : Nat := 2
def nlAlign : Nat := 3
def nlActive : Nat := 4
def nlRetrain : Nat := 5
def nlFailed : Nat := 6

def State.nlState (s : State) (p : Nat) : Nat := s.f F.NL_PORT_STAT_STATE p

/-- R417: the credit class of a packet that the node sends; none for CPL and CREDIT. -/
def TxPacket.cls (k : TxPacket) : Option Nat :=
  match k.type with
  | 5 => some 0
  | 6 => some 1
  | 4 => some 2
  | _ => none

/-- R418: a packet's bytes: header, body, padding. -/
def TxPacket.bytes (k : TxPacket) : Bytes :=
  leBytes 1 k.type ++ [0#8] ++ leBytes 2 k.body.length ++ leBytes 2 k.tag ++ leBytes 2 k.gen ++ leBytes 8 k.arg
    ++ k.body ++ zeros ((8 - k.body.length % 8) % 8)

/-- R415: a flit of type, sequence number and payload, sealed. -/
def makeFlit (type sq ack : Nat) (payload : Bytes) : Bytes :=
  sealFlit (leBytes 1 type ++ [0#8] ++ leBytes 2 sq ++ leBytes 2 ack ++ zeros 2 ++ slice payload 0 228)

/-- R415: a packet given to the link: DATA flits, kept in the replay buffer until an ACK covers them. A packet starts a
flit of its own (log entry 32). -/
def NlPort.send (n : NlPort) (k : TxPacket) : NlPort :=
  let n := { n with sent := n.sent ++ [k] }
  (pieces 228 k.bytes).foldl (fun n pl =>
    { n with replay := n.replay ++ [(n.txSeq, pl)], flits := n.flits ++ [makeFlit 1 n.txSeq n.rxSeq pl],
             txSeq := (n.txSeq + 1) % 4096 }) n

/-- R416, R417: true when a packet may leave now. -/
def NlPort.mayLeave (n : NlPort) (k : TxPacket) : Bool :=
  decide (n.replay.length + ceilDiv k.bytes.length 228 ≤ 2048) &&
    match k.cls with
    | none => true
    | some c => decide (0 < n.txCred.getD c 0)

/-- R417: packets leave in order, each class as its credits allow. -/
def NlPort.drainList (n : NlPort) : List TxPacket → NlPort
  | [] => n
  | k :: r =>
    if n.mayLeave k && !(n.out.any fun x => x.cls == k.cls) then
      NlPort.drainList ({ n with txCred := match k.cls with
        | none => n.txCred
        | some c => n.txCred.modify c (· - 1) }.send k) r
    else NlPort.drainList { n with out := n.out ++ [k] } r

def NlPort.drain (n : NlPort) : NlPort := { n with out := [] }.drainList n.out

/-- R418: a packet for a port. It leaves at once when the port is ACTIVE and its class has a credit, waits while the
port retrains (replay keeps it), and is lost with a port that is down (R414). -/
def State.sendPacket (s : State) (p : Nat) (k : TxPacket) : State :=
  let st := s.nlState p
  if st = nlActive then s.setNl p fun n => { n with out := n.out ++ [k] }.drain
  else if st = nlRetrain then s.setNl p fun n => { n with out := n.out ++ [k] }
  else s

/-! Interrupts -/

/-- R427: an INTR of a vector falls due on a port. -/
def State.raiseIntr (s : State) (p vec : Nat) : State :=
  if s.nlState p ≠ nlActive then
    s.setNl p fun n => if n.marks.contains vec then n else { n with marks := n.marks ++ [vec] }
  else
    let modr := s.f F.NL_PORT_CFG_MOD_100NS p
    if modr ≠ 0 && ((s.nl p).quiet.any fun q => q.1 == vec) then
      s.setNl p fun n => if n.owed.contains vec then n else { n with owed := n.owed ++ [vec] }
    else
      let s := if modr ≠ 0 then s.setNl p fun n => { n with quiet := n.quiet ++ [(vec, s.now)] } else s
      s.sendPacket p ⟨5, 0, 0, vec, []⟩

/-- R427, R432: the interrupt of a context. -/
def State.ctxIntr (s : State) (c : Nat) : State :=
  if s.on F.NL_CTX_VEC_EN c then s.raiseIntr (s.f F.NL_CTX_VEC_PORT c) (s.f F.NL_CTX_VEC_VECTOR c) else s

/-- R526: the device interrupt on a port whose DEV_EN is 1. -/
def State.devIntrPort (s : State) (p : Nat) : State :=
  if s.on F.NL_PORT_CFG_DEV_EN p then s.raiseIntr p (s.f F.NL_PORT_CFG_DEV_VEC p) else s

/-- R526: the device interrupt, on every port whose DEV_EN is 1. -/
def State.devIntr (s : State) : State := (s.devIntrPort 0).devIntrPort 1

/-- R525: an event of the device summary. -/
def State.event (s : State) (x : Fld) : State := s.setF x 0 1

/-- R527: the interrupt of an index. -/
def State.idxIntr (s : State) (i : Nat) : State := s.setBitF F.TOP_IDX_PEND_PEND (i / 64) (i % 64)

/-- R526: P. -/
def State.intPending (s : State) : Nat := s.reg .topIntStat 0 &&& s.reg .topIntEn 0

/-- R525: INDEX and ERROR follow their sources. -/
def State.follow (s : State) : State :=
  s.setFs 0 [(F.TOP_INT_STAT_INDEX, b2n ((List.range 64).any fun j => decide (s.reg .topIdxPend j ≠ 0))),
    (F.TOP_INT_STAT_ERROR, b2n (decide (s.reg .topErrSum 0 ≠ 0)))]

/-- R526: the device interrupt when P has become nonzero. -/
def State.tellP (s : State) : State := if decide (s.intPending ≠ 0) && !s.intP then s.devIntr else s

/-- What the node remembers of P. -/
def State.setIntP (s : State) (b : Bool) : State := { s with intP := b }

/-- R525, R526: after a command the summary follows its sources, and P becoming nonzero sends the device interrupt. -/
def State.settle (s : State) : State := s.follow.tellP.setIntP (decide (s.follow.intPending ≠ 0))

/-! The fault log -/

/-- R434, R461: a record of the fault log; the answer's second part is its number. -/
def State.logFault (s : State) (cls level action unit cause : Nat) (injected : Bool) : State × Nat :=
  let i := s.f F.FLT_STAT_LOG_NEXT 0
  let s := s.setReg .fltLog (2 * i) 0
  let s := s.setReg .fltLog (2 * i + 1) 0
  let s := s.setFs (2 * i) [(F.FLT_LOG_CLASS, cls), (F.FLT_LOG_LEVEL, level), (F.FLT_LOG_ACTION, action),
    (F.FLT_LOG_INJECTED, b2n injected), (F.FLT_LOG_UNIT, unit), (F.FLT_LOG_CAUSE, cause), (F.FLT_LOG_VALID, 1)]
  let s := s.setF F.FLT_LOG_DETECT_US (2 * i + 1) s.now
  ((s.setF F.FLT_STAT_LOG_NEXT 0 ((i + 1) % 32)).event F.TOP_INT_STAT_FAULT, i)

/-- R461: the end of the reset of a record. -/
def State.logDone (s : State) (i : Nat) : State := s.setF F.FLT_LOG_DONE_US (2 * i + 1) s.now

/-- R461: a class folded into a record under R22. -/
def State.logCause (s : State) (i cause : Nat) : State := s.setF F.FLT_LOG_CAUSE (2 * i) cause

/-- R433, R434: a port or channel that fails writes a LINK_LOST record. -/
def State.linkLost (s : State) (unit : Nat) : State := (s.logFault 0x0A 2 0 unit 0 false).1

/-! When commands act -/

/-- R511, R540, R547, R549, R543: the node's clocks run: no trip, no power-cycle request, PWR_GOOD high, RESET_N
released, and the always-on and core references present. -/
def State.live (s : State) : Bool :=
  !s.pins.tripLow && !s.pins.pcycLow && !s.pins.pwrBad && !s.pins.resetLow && !s.pins.aonLost && !s.pins.coreLost

/-- The queue of another state, and nothing more asked of the node's agent in a command's name. -/
def State.queueOf (t s : State) : State := { t with pending := s.pending, pool := { t.pool with needs := [] } }

/-- The state after a command that found `s` and made `t` of it: the queue is the host's and stays, what the command asked its
node's agent for has been asked, and the summary follows its sources. -/
def State.after (s t : State) : State := (t.queueOf s).settle

/-- A command whose effect needs the node's clocks: nothing happens while they are stopped. -/
def gated (s : State) (f : State → State) : Host.Outcome State Fault Refusal :=
  .next (if s.live then s.after (f s) else s)

/-- A command of the always-on domain or of a pin: it acts whatever clocks run. -/
def always (s : State) (f : State → State) : Host.Outcome State Fault Refusal := .next (s.after (f s))

/-- A timer that started at a clock and lasts some µs has expired (R505). -/
def State.due (s : State) (since period : Nat) : Bool := decide (since + period ≤ s.now)

end Sys2Proof.Machine
end

