-- ==== Sys2Proof/Machine/Requests.lean ====
section
/-! DEFINITION. Requests of contexts: finding one, changing it, and ending it with a completion (R28 to R30, R344,
R424). -/
namespace Sys2Proof.Machine

/-- True once a request has ended; its completion may still wait for earlier ones (R344). -/
def Work.ended : Work → Bool
  | .finished _ => true
  | _ => false

/-- A completion that carries nothing but its status. -/
def Compl.code (c : Code) : Compl := ⟨c, 0, 0, 0⟩

/-- R29: the completion of a request that succeeds under some conditions, with its figures. -/
def Compl.success (short widened cheap : Bool) (count value : Nat) : Compl :=
  ⟨if short then .short else if widened then .widened else if cheap then .deadlineCheap else .ok,
   b2n short + 2 * b2n widened + 4 * b2n cheap, count, value⟩

/-- The completion of a code: with the figures when it reports success, without them otherwise (R424). -/
def Compl.of (c : Code) (count value : Nat) : Compl :=
  if c.bad then Compl.code c else Compl.success (c == .short) (c == .widened) (c == .deadlineCheap) count value

/-- The request of a ring slot that has not ended. -/
def State.req (s : State) (c q : Nat) : Option Req :=
  (s.ctx c).reqs.find? fun r => r.slot == q && !r.work.ended

/-- A request that has not ended, changed. -/
def State.setReq (s : State) (c q : Nat) (f : Req → Req) : State :=
  s.setCtx c fun x => { x with reqs := replaceFirst (fun r => r.slot == q && !r.work.ended) f x.reqs }

/-- The opcode of a descriptor (R422, R423). -/
def descOp (d : Bytes) : Nat := byteAt d 32

/-- The tenant of a context. -/
def State.tenant (s : State) (c : Nat) : Nat := s.f F.CTX_CFG_TENANT c

/-- R356: a request that succeeds adds its A and its E to its tenant's period; SYNC commands do not count. -/
def State.noteSlow (s : State) (c q : Nat) (k : Code) : State :=
  match s.req c q with
  | some r =>
    if k.bad || (decide (0x50 ≤ descOp r.desc) && decide (descOp r.desc ≤ 0x55)) then s
    else
      let (s, n) := s.draw
      let a := (s.now - r.takenAt) * 1800 + Config.subMicrosecond n
      let e := max 1 (Config.soloEstimate n (descOp r.desc) (s.f F.CTX_SLOW_CFG_CAL_CELLAR_US 0) (s.f F.CTX_SLOW_CFG_CAL_FABRIC_NS 0))
      { s with slow := SMap.adj (0, 0, 0) s.slow (s.tenant c) fun x => (x.1 + a, x.2.1 + e, x.2.2 + 1) }
  | none => s

/-- R30, R344: a request ends; its completion is written in its turn. The end is progress for its watchdog (R435). -/
def State.finish (s : State) (c q : Nat) (k : Compl) : State :=
  ((s.noteSlow c q k.status).setReq c q fun r => { r with work := .finished k }).setCtx c fun x => { x with progress := s.now }

/-- A request ends with a code alone. -/
def State.finishCode (s : State) (c q : Nat) (k : Code) : State := s.finish c q (Compl.code k)

/-- What a request waits for, replaced. -/
def State.setWork (s : State) (c q : Nat) (w : Work) : State := s.setReq c q fun r => { r with work := w }

/-- A value of the operation area of a descriptor: n bytes from byte `off` of the area (R422). -/
def opN (d : Bytes) (off n : Nat) : Nat := leAt d (32 + off) n

/-- True when bytes of the operation area are 0 (R15). -/
def opZero (d : Bytes) (off len : Nat) : Bool := allZero d (32 + off) len

/-- The deadline that TIMEOUT_US of the common header gives a request (R422). -/
def Req.limit (r : Req) : Option Nat :=
  let t := leAt r.desc 8 3
  if t = 0 then none else some (r.takenAt + t)

/-- The contexts that hold requests. -/
def State.ctxIds (s : State) : List Nat := s.ctxs.map (·.1)

/-- Requests of a context that have not ended. -/
def State.openReqs (s : State) (c : Nat) : List Req := (s.ctx c).reqs.filter fun r => !r.work.ended

/-- The partition of a context. -/
def State.partOf (s : State) (c : Nat) : Nat := s.f F.CTX_CFG_PARTITION c

/-- R363: the class of a tenant. -/
def State.classOf (s : State) (t : Nat) : Nat := s.f F.CTX_TENANT_CLASS t

end Sys2Proof.Machine
end

