-- ==== Sys2Proof/Machine/Link.lean ====
section
/-! DEFINITION. What the node sends over the fabric (R373 to R384): the peer table, the flows with their sequence numbers
and unacknowledged frames, the egress queues with their credits, and the token buckets. -/
namespace Sys2Proof.Machine

/-- R400: this node's ID. -/
def State.self (s : State) : Nat := s.f F.FAB_NODE_NODE_ID 0

/-! The peer table (R378) -/

def State.peerAddr (s : State) (n : Nat) : Nat := s.fAddr F.FAB_PEER_TAB_ADDR 0 + 64 * n

def peerNone : Nat := 0
def peerAdmitting : Nat := 1
def peerAdmitted : Nat := 2
def peerRefused : Nat := 3
def peerLost : Nat := 4

def State.peerValid (s : State) (n : Nat) : Bool :=
  s.peekN (s.peerAddr n) 2 == n && s.peekN (s.peerAddr n + 2) 1 % 2 == 1

def State.peerState (s : State) (n : Nat) : Nat := s.peekN (s.peerAddr n + 3) 1

def State.setPeerState (s : State) (n v : Nat) : State := s.storeN (s.peerAddr n + 3) 1 v

def State.peerPorts (s : State) (n : Nat) : Nat := s.peekN (s.peerAddr n + 4) 2

/-- An admitted peer (R379); the node itself counts as one. -/
def State.peerOk (s : State) (n : Nat) : Bool := n == s.self || (s.peerValid n && s.peerState n == peerAdmitted)

/-- R402: the states of a port. -/
def portDown : Nat := 0
def portTraining : Nat := 1
def portUp : Nat := 2
def portFailed : Nat := 3

def State.portIsUp (s : State) (p : Nat) : Bool := s.f F.FAB_PORT_STAT_STATE p == portUp

/-- R376: the ports of a peer that are UP, in ascending order. -/
def State.upPorts (s : State) (n : Nat) : List Nat := (onesBelow 16 (s.peerPorts n)).filter s.portIsUp

/-! Flows -/

/-- The key of a flow pair: peer and queue. -/
def flowKey (n q : Nat) : Nat := n * 32 + q

def State.flow (s : State) (n q : Nat) : Flow := SMap.get default s.fab.flows (flowKey n q)

def State.setFlow (s : State) (n q : Nat) (f : Flow → Flow) : State :=
  s.setFab fun fb => { fb with flows := SMap.put default fb.flows (flowKey n q) (f (s.flow n q)) }

/-- R376: the port that a flow uses now; none while no port of the peer is UP. -/
def State.flowPort (s : State) (n q : Nat) : Option Nat :=
  let up := s.upPorts n
  if up = [] then none
  else up[(s.self + n + q + (s.flow n q).moves) % up.length]?

/-- R373: bytes on the wire of a frame with n payload bytes, the frame check sequence apart. -/
def State.wireLen (s : State) (p n : Nat) : Nat :=
  46 + n + (if s.on F.FAB_PORT_CFG_IPV6 p then 48 else 0) + (if s.on F.FAB_PORT_CFG_MACSEC p then 32 else 0)

/-- The key of an egress queue. -/
def queueKey (p q : Nat) : Nat := p * 32 + q

def State.egress (s : State) (p q : Nat) : Egress := SMap.get default s.fab.queues (queueKey p q)

def State.setEgress (s : State) (p q : Nat) (f : Egress → Egress) : State :=
  s.setFab fun fb => { fb with queues := SMap.put default fb.queues (queueKey p q) (f (s.egress p q)) }

/-- R371, R383, R401: the port rate in Gbit/s. -/
def State.portRate (s : State) (p : Nat) : Nat := if s.fab.ethernet.contains p then 800 else 1792

/-- R404: IDLE_SLOPE of a queue in Gbit/s. -/
def State.idleSlope (s : State) (p q : Nat) : Nat := min (s.portRate p) (max 1 (s.f F.FAB_QUEUE_IDLE_SLOPE (queueKey p q)))

/-- R383: credits are counted in 1/44,800 byte, in which every rate of the manual is a whole number. -/
def creditUnit : Nat := 44800

/-- R383: a credit kept within ± CRED_MAX_KIB × 1,024 bytes. -/
def State.boundCredit (s : State) (p q : Nat) (c : Int) : Int :=
  let m : Int := s.f F.FAB_QUEUE_CRED_MAX_KIB (queueKey p q) * 1024 * creditUnit
  max (-m) (min m c)

/-- R383: the credit of a queue that has held a frame without sending since `at_`. -/
def State.credit (s : State) (p q : Nat) : Int :=
  let e := s.egress p q
  if e.frames = [] then e.credit
  else s.boundCredit p q (e.credit + ((s.now - e.at_) * s.idleSlope p q * 125 * creditUnit : Nat))

/-- A frame joins an egress queue; control frames bypass the queues (R382). -/
def State.enqueueFrame (s : State) (p : Nat) (f : TxFrame) : State :=
  if 6 ≤ f.type then
    s.setFab fun fb => { fb with control := SMap.put [] fb.control p (SMap.get [] fb.control p ++ [f]) }
  else
    let c := s.credit p f.queue
    s.setEgress p f.queue fun e => { e with frames := e.frames ++ [f], credit := c, at_ := s.now }

/-- R376: a frame of a flow goes to the port that the flow uses; while none is UP, or the flow holds its frames, it stays
with the flow. -/
def State.dispatchFrame (s : State) (f : TxFrame) : State :=
  match (if (s.flow f.dst f.queue).held then none else s.flowPort f.dst f.queue) with
  | some p => s.enqueueFrame p f
  | none => s

/-- R376, R407: when a resend falls due. -/
def State.rto (s : State) : Nat := s.now + max 1 (s.f F.FAB_TIMERS_RTO_US 0)

/-- R377, R407: when a sub-request times out; 0 for never. -/
def State.subDue (s : State) : Nat :=
  if s.on F.FAB_TIMERS_SUBREQ_MS 0 then s.now + 1000 * s.f F.FAB_TIMERS_SUBREQ_MS 0 else 0

/-- One frame of a message: numbered, kept until acknowledged, given to its port. Nothing is sent to a node that is not an
admitted peer (R379; log entry 59). -/
def State.sendFrame (s : State) (f : TxFrame) : State :=
  if !s.peerOk f.dst then s else
  let fl := s.flow f.dst f.queue
  let g := { f with seq := fl.txNext }
  let s := s.setFlow f.dst f.queue fun fl =>
    { fl with txNext := (fl.txNext + 1) % 2 ^ 32, unacked := fl.unacked ++ [g],
              rtoDue := if fl.unacked = [] then s.rto else fl.rtoDue }
  s.dispatchFrame g

/-- R375: a message to a peer, in frames of at most 4,096 bytes with MORE on every frame but the last. -/
def State.sendMsg (s : State) (dst comp epoch queue type tag rank gen : Nat) (payload : Bytes) : State :=
  let ps := match pieces 4096 payload with
    | [] => [[]]
    | l => l
  let n := ps.length
  (ps.zip (List.range n)).foldl (fun s (pl, k) =>
    s.sendFrame ⟨type, dst, comp, epoch, queue, false, decide (k + 1 < n), 0, tag, rank, gen, pl⟩) s

/-- R382: a control frame to a peer on one port. -/
def State.sendControl (s : State) (p dst type tag : Nat) (payload : Bytes) : State :=
  s.enqueueFrame p ⟨type, dst, 0, 0, 0, false, false, 0, tag, 0xFFFF, 0, payload⟩

/-- A control frame to a peer on the port that its flow uses. An ACK or NAK frame carries QUEUE 0 (R382) and names its
flow's queue in TAG (log entry 33). -/
def State.sendFlowControl (s : State) (dst queue type : Nat) (payload : Bytes) : State :=
  match s.flowPort dst queue with
  | some p => s.sendControl p dst type queue payload
  | none => s

/-- R382: the queue of requests and of answers of a tenant. -/
def State.reqQueue (s : State) (t : Nat) : Nat := 2 * s.classOf t
def State.ansQueue (s : State) (t : Nat) : Nat := 2 * s.classOf t + 1

/-! Token buckets (R384, R385) -/

/-- The edge die of a port. -/
def edgeOf (p : Nat) : Nat := p / 8

/-- The tokens of a bucket now: full at reset (FILL is 1), filled at RATE since it was last looked at. -/
def bucketNow (b : Bucket) (rate burst now : Nat) : Int :=
  let full : Int := burst * 1024
  if b.set_ then min full (b.tokens + ((now - b.at_) * rate * 125 : Nat)) else full

def State.shapeTokens (s : State) (i : Nat) : Int :=
  bucketNow (SMap.get default s.fab.shape i) (s.f F.FAB_SHAPE_RATE i) (s.f F.FAB_SHAPE_BURST_KIB i) s.now

def State.policeTokens (s : State) (i : Nat) : Int :=
  bucketNow (SMap.get default s.fab.police i) (s.f F.FAB_POLICE_RATE i) (s.f F.FAB_POLICE_BURST_KIB i) s.now

def State.setShape (s : State) (i : Nat) (tokens : Int) : State :=
  s.setFab fun fb => { fb with shape := SMap.ins fb.shape i ⟨tokens, s.now, true⟩ }

def State.setPolice (s : State) (i : Nat) (tokens : Int) : State :=
  s.setFab fun fb => { fb with police := SMap.ins fb.police i ⟨tokens, s.now, true⟩ }

/-! Compositions (R386 to R390) -/

/-- The slot that holds a composition ID. -/
def State.slotOfComp (s : State) (id : Nat) : Option Nat :=
  (s.fab.comps.find? fun (_, c) => match c.map with | some m => m.id == id | none => false).map (·.1)

/-- R386: the composition slot of a context whose binding is valid, whose map is installed and whose tenant owns it. -/
def State.ctxComp (s : State) (c : Nat) : Option (Nat × CompMap) :=
  if s.on F.FAB_CTX_COMP_VALID c then
    let n := s.f F.FAB_CTX_COMP_SLOT c
    match (s.comp n).map with
    | some m => if m.tenant = s.tenant c then some (n, m) else none
    | none => none
  else none

/-- The node of a rank. -/
def CompMap.node (m : CompMap) (rank : Nat) : Nat := m.members.getD rank 0

/-- R388: the fields of an object entry. -/
def objKind (o : Word) : Nat := bits o.toNat 3 0
def objFirst (o : Word) : Nat := bits o.toNat 13 4
def objShards (o : Word) : Nat := bits o.toNat 23 14
def objNum (o : Word) : Nat := bits o.toNat 63 32

/-- The entry of an object in a map. -/
def CompMap.object (m : CompMap) (kind num : Nat) : Option Word :=
  m.objects.find? fun o => objKind o == kind && objNum o == num

/-- The slot whose installed map lists an object. -/
def State.slotOfObject (s : State) (kind num : Nat) : Option (Nat × CompMap × Word) :=
  s.fab.comps.findSome? fun (n, c) => match c.map with
    | some m => (m.object kind num).map fun o => (n, m, o)
    | none => none

end Sys2Proof.Machine
end

