-- ==== Sys2Proof/Machine/Cellar.lean ====
section
/-! DEFINITION. The cellar's own work (R237 to R262): frames and their places, superblocks and write streams, the logical
map and its segments, the write buffer, the log, and reads with the decode ladder. Its commands and events are in
CellarCmd.lean. -/
namespace Sys2Proof.Machine

/-! Places (R249): a place is a map entry without its STATE. -/

def placeOf (ch tg lun plane block page slot : Nat) : Nat :=
  ch + tg * 2 ^ 6 + lun * 2 ^ 9 + plane * 2 ^ 11 + block * 2 ^ 13 + page * 2 ^ 29 + slot * 2 ^ 41

def placeCh (p : Nat) : Nat := bits p 5 0
def placeTg (p : Nat) : Nat := bits p 8 6
def placeLun (p : Nat) : Nat := bits p 10 9
def placePlane (p : Nat) : Nat := bits p 12 11
def placeBlock (p : Nat) : Nat := bits p 28 13
def placePage (p : Nat) : Nat := bits p 40 29
def placeSlot (p : Nat) : Nat := bits p 42 41

/-- R249: the entry of a mapped slot; LOST is 2 and zero is 0. -/
def entryOf (place : Nat) : Nat := 4 * place + 1
def entryState (e : Nat) : Nat := e % 4
def entryPlace (e : Nat) : Nat := e / 4
def entryLost : Nat := 2

/-- The key of a LUN. -/
def lunKey (ch tg lun : Nat) : Nat := ch + tg * 2 ^ 6 + lun * 2 ^ 9

/-- The key of a superblock member: the blocks at one number in every plane of a LUN (R244). -/
def memberKey (ch tg lun block : Nat) : Nat := lunKey ch tg lun + block * 2 ^ 11

def placeMember (p : Nat) : Nat := memberKey (placeCh p) (placeTg p) (placeLun p) (placeBlock p)

/-- The key of a logical slot. -/
def mapKey (ns slot : Nat) : Nat := ns * 2 ^ 40 + slot

/-! Channels -/

def chOff : Nat := 0
def chTraining : Nat := 1
def chReady : Nat := 2
def chFailedTrain : Nat := 3
def chFailedPart : Nat := 4
def chFailedRun : Nat := 5

def State.chState (s : State) (c : Nat) : Nat := s.f F.CELLAR_CH_STAT_STATE c

def State.chIsReady (s : State) (c : Nat) : Bool := s.chState c == chReady

/-- The channels that are READY, in ascending order. -/
def State.readyChans (s : State) : List Nat := (List.range 48).filter s.chIsReady

/-- R237: the channel group. -/
def groupOfCh (c : Nat) : Nat := c / 12

/-- The LUNs of a channel: target and LUN. -/
def State.lunsOf (s : State) (c : Nat) : List (Nat × Nat) :=
  match SMap.find s.cellar.chans c with
  | some g => (List.range g.targets).flatMap fun t => (List.range g.luns).map fun l => (t, l)
  | none => []

/-- LUNs of every READY channel. -/
def State.allLuns (s : State) : Nat := s.readyChans.foldl (fun a c => a + (s.lunsOf c).length) 0

def State.geomOr (s : State) : Geom := s.cellar.geom.getD default

def State.blockSt (s : State) (key : Nat) : BlockSt := SMap.get default s.cellar.blocks key

def State.setBlock (s : State) (key : Nat) (f : BlockSt → BlockSt) : State :=
  s.setCel fun x => { x with blocks := SMap.put default x.blocks key (f (s.blockSt key)) }

def State.lunSt (s : State) (key : Nat) : LunSt := SMap.get ⟨.idle, [], []⟩ s.cellar.luns key

def State.setLun (s : State) (key : Nat) (f : LunSt → LunSt) : State :=
  s.setCel fun x => { x with luns := SMap.put ⟨.idle, [], []⟩ x.luns key (f (s.lunSt key)) }

/-! Namespaces (R247) -/

structure NsDesc where
  size     : Nat
  kind     : Nat
  resident : Bool
  readOnly : Bool
  tenant   : Nat
  map      : Nat
  wellFormed : Bool
deriving DecidableEq, Repr, Inhabited

def nsData : Nat := 0
def nsLog : Nat := 1
def nsCkpt : Nat := 2
def nsPool : Nat := 3

def State.nsAddr (s : State) (n : Nat) : Nat := s.fAddr F.CELLAR_NS_DESC_ADDR 0 + 64 * n

/-- R247: a namespace descriptor. -/
def nsDescOf (d : Bytes) : NsDesc :=
  let sz := leAt d 0 8
  let mp := leAt d 16 8
  let res := bit (byteAt d 9) 0
  ⟨bits sz 39 0, byteAt d 8 % 4, res, bit (byteAt d 9) 1, byteAt d 10, bits mp 51 0,
    decide (sz < 2 ^ 40) && decide (byteAt d 8 < 4) && decide (byteAt d 9 < 4) && allZero d 11 5 && allZero d 24 40 &&
    (if res then decide (mp < 2 ^ 52) else decide (mp = 0))⟩

/-- R247: a namespace descriptor as it stands in memory. -/
def State.nsDesc (s : State) (n : Nat) : NsDesc := nsDescOf (s.peek (s.nsAddr n) 64)

def State.nsOn (s : State) (n : Nat) : Bool := bit (s.reg .cellarNsEn (n / 64)) (n % 64)

/-- The enabled namespaces. -/
def State.nsEnabled (s : State) : List Nat :=
  (List.range 64).flatMap fun j => (onesBelow 64 (s.reg .cellarNsEn j)).map (64 * j + ·)

/-- The enabled LOG namespace. -/
def State.logNs (s : State) : Option Nat := s.nsEnabled.find? fun n => (s.nsDesc n).kind == nsLog

/-! The logical map -/

def State.mapEntry (s : State) (key : Nat) : Nat := SMap.get 0 s.cellar.map key

/-- R249, R250: an entry written: in the map, in the copy at MAP of a resident namespace, and its segment noted as
changed. -/
def State.setMap (s : State) (key e : Nat) : State :=
  let ns := key / 2 ^ 40
  let s := s.setCel fun x =>
    { x with map := SMap.put 0 x.map key e,
             dirty := if (SMap.find x.dirty (key / 512)).isSome then x.dirty else SMap.ins x.dirty (key / 512) s.now }
  if s.nsOn ns then
    let d := s.nsDesc ns
    if d.resident then s.storeN (d.map + 8 * (key % 2 ^ 40)) 8 e else s
  else s

def State.frameAt (s : State) (place : Nat) : Option FrameRec := SMap.find s.cellar.flash place

/-- The superblock that holds a place. -/
def State.superOf (s : State) (place : Nat) : Option Super :=
  s.cellar.supers.find? fun b => b.members.any fun m => memberKey m.ch m.tg m.lun m.block == placeMember place

/-- R245: the frames of the stripe row of a place in its superblock: the same page, plane and slot in every member. -/
def State.stripe (s : State) (b : Super) (place : Nat) : List (Nat × FrameRec) :=
  b.members.filterMap fun m =>
    let p := placeOf m.ch m.tg m.lun (placePlane place) m.block (placePage place) (placeSlot place)
    (s.frameAt p).map fun f => (p, f)

/-- R245, R258, R553: parity is still held for a place, and the other frames of its stripe row can be read. -/
def State.hasParity (s : State) (place : Nat) : Bool :=
  match s.superOf place with
  | some b => !b.verified && b.parity && (s.stripe b place).all fun x => x.1 == place || s.chIsReady (placeCh x.1)
  | none => false

/-- True when a place is the live copy of what it holds. -/
def State.isLive (s : State) (place : Nat) : Bool :=
  match s.frameAt place with
  | none => false
  | some f =>
    match f.kind with
    | 1 => s.mapEntry (mapKey f.ns f.lslot) == entryOf place
    | 2 => SMap.find s.cellar.logRing f.lslot == some (f.seq + 1)
    | 3 => SMap.find s.cellar.segments (mapKey f.ns f.lslot) == some place
    | _ => false

/-- The places of a superblock that hold frames. -/
def State.placesOf (s : State) (b : Super) : List Nat :=
  (s.cellar.flash.filter fun (p, _) => b.members.any fun m => memberKey m.ch m.tg m.lun m.block == placeMember p).map (·.1)

/-! Streams and superblocks (R244) -/

def stLog : Nat := 0
def stMap : Nat := 1
def stHost : Nat := 2
def stReloc : Nat := 3

def State.modSuper (s : State) (id : Nat) (f : Super → Super) : State :=
  s.setCel fun x => { x with supers := replaceFirst (fun b => b.id == id) f x.supers }

def State.openSuper (s : State) (stream : Nat) : Option Super :=
  s.cellar.supers.find? fun b => b.stream == stream && !b.closed

/-- The blocks of a channel that a new superblock may take: good and not taken. -/
def State.freeMembers (s : State) (c : Nat) : List Member :=
  (s.lunsOf c).flatMap fun (t, l) =>
    ((List.range s.geomOr.blocks).filter fun b =>
      let k := s.blockSt (memberKey c t l b)
      !k.bad && !k.taken).map fun b => ⟨c, t, l, b, 0⟩

/-- R245, R246: superblocks of parity that the region of CELLAR_PARITY holds. -/
def State.parityRoom (s : State) : Nat :=
  s.f F.CELLAR_PARITY_SIZE 0 * 2 ^ 28 / max 1 (s.geomOr.pages * s.geomOr.planes * 4 * 4640)

/-- R246: the parity region has no room for another superblock. -/
def State.parityFull (s : State) : Bool := decide (s.parityRoom ≤ (s.cellar.supers.filter fun b => !b.verified && b.parity).length)

/-- R255: the least-worn (or the most-worn) free block of a channel; of equals the first by target, LUN and block. -/
def State.pickMember (s : State) (worn : Bool) (c : Nat) : Option Member :=
  let pe (m : Member) : Nat := (s.blockSt (memberKey m.ch m.tg m.lun m.block)).pe
  (s.freeMembers c).foldl (fun best m =>
    match best with
    | none => some m
    | some b => if (if worn then pe b < pe m else pe m < pe b) then some m else some b) none

/-- R244: the healthy channels in the order in which a superblock that starts at channel `start` takes them. -/
def State.chanOrder (s : State) (start : Nat) : List Nat :=
  let l := s.readyChans
  l.filter (start ≤ ·) ++ l.filter (· < start)

/-- Closed superblocks that wait for verification (R246). -/
def State.unverified (s : State) : Nat := (s.cellar.supers.filter fun b => b.closed && !b.verified).length

/-- R244, R246: a stream opens its next superblock; none when the parity region is full or a block is missing. -/
def State.openNext (s : State) (stream : Nat) : Option State :=
  let w := min 16 s.readyChans.length
  if w = 0 || decide (4 ≤ s.unverified) || s.parityFull then none else
  let start := SMap.get 0 s.cellar.streamAt stream
  let worn := stream == stReloc && s.cellar.supers.any (·.wear)
  let cand := (s.chanOrder start).filterMap (s.pickMember worn)
  if cand.length < w then none else
  let ms := cand.take w
  let s := ms.foldl (fun s m => s.setBlock (memberKey m.ch m.tg m.lun m.block) fun b => { b with taken := true }) s
  some (s.setCel fun x => { x with
    supers := x.supers ++ [⟨x.nextSb, stream, ms, 0, false, false, false, false, true⟩],
    nextSb := x.nextSb + 1,
    streamAt := SMap.ins x.streamAt stream ((start + 16) % 48) })

/-- Frames that one member holds. -/
def State.memberFrames (s : State) : Nat := s.geomOr.pages * s.geomOr.planes * 4

/-- A member that can take a frame: not full, on a READY channel. -/
def State.takesFrame (s : State) (m : Member) : Bool := decide (m.pos < s.memberFrames) && s.chIsReady m.ch

/-- R244, R252, R261: the member of an open superblock that takes the next frame: in rotation; the frames of one log page
lie in one page; a relocated frame stays on its channel, on another LUN where one can be had. -/
def State.nextMember (s : State) (b : Super) (p : Purpose) : Option Nat :=
  let ok (k : Nat) : Bool := s.takesFrame (b.members.getD k default)
  let n := b.members.length
  let turn := ((List.range n).map fun k => (b.rot + k) % n).find? ok
  let last := (b.rot + n - 1) % n
  if b.stream = stLog ∧ (b.members.getD last default).pos % 4 ≠ 0 ∧ ok last then some last
  else match p with
    | .reloc e =>
      let near (k : Nat) : Bool := ok k && (b.members.getD k default).ch == placeCh (entryPlace e)
      let other (k : Nat) : Bool := near k && (b.members.getD k default).lun != placeLun (entryPlace e)
      ((List.range n).find? other).orElse fun _ => ((List.range n).find? near).orElse fun _ => turn
    | _ => turn

/-- R244: a frame takes its place in the stream's open superblock and joins the page program of its LUN. -/
def State.placeFrame (s : State) (b : Super) (k : Nat) (f : FrameRec) (p : Purpose) : State :=
  let m := b.members.getD k default
  let g := s.geomOr
  let page := m.pos / (4 * g.planes)
  let plane := m.pos / 4 % g.planes
  let slot := m.pos % 4
  let lk := lunKey m.ch m.tg m.lun
  let joins (o : ProgOp) : Bool := o.sb == b.id && o.page == page && o.plane == plane
  let addTo (l : List ProgOp) : List ProgOp :=
    if l.any joins then replaceFirst joins (fun o => { o with frames := o.frames ++ [(slot, f, p)] }) l
    else l ++ [⟨b.stream, b.id, m.ch, m.tg, m.lun, plane, m.block, page, [(slot, f, p)]⟩]
  let s := s.setLun lk fun l => { l with progs := addTo l.progs }
  let members := b.members.modify k fun m => { m with pos := m.pos + 1 }
  s.modSuper b.id fun b => { b with members := members, rot := (k + 1) % b.members.length,
                                    closed := b.closed || members.all fun m => !s.takesFrame m }

/-- A frame goes to its stream; it waits when the stream can open no superblock (R246, R251). -/
def State.appendFrame (s : State) (stream : Nat) (f : FrameRec) (p : Purpose) : State :=
  let wait (s : State) : State := s.setCel fun x => { x with waiting := x.waiting ++ [(stream, f, p)] }
  let put (s : State) : State :=
    match s.openSuper stream with
    | none => wait s
    | some b => match s.nextMember b p with
      | none => wait s
      | some k => s.placeFrame b k f p
  match s.openSuper stream with
  | some _ => put s
  | none => match s.openNext stream with
    | some s => put s
    | none => wait s

/-- The frames that wait try again. -/
def State.retryWaiting (s : State) : State :=
  let w := s.cellar.waiting
  w.foldl (fun s (st, f, p) => s.appendFrame st f p) (s.setCel fun x => { x with waiting := [] })

/-- R242: the next frame sequence number. -/
def State.drawSeq (s : State) : State × Nat := (s.setCel fun x => { x with frameSeq := x.frameSeq + 1 }, s.cellar.frameSeq)

/-- A logical slot written: its data is readable at once from the write buffer (R253). -/
def State.writeSlot (s : State) (ns slot : Nat) (data : Bytes) (p : Purpose) : State :=
  let (s, sq) := s.drawSeq
  let s := s.setCel fun x => { x with buffer := SMap.ins x.buffer (mapKey ns slot) (sq, data) }
  s.appendFrame stHost ⟨ns, 1, 0, slot, sq, data⟩ p

/-- R254: a logical slot discarded. -/
def State.discardSlot (s : State) (ns slot : Nat) : State :=
  (s.setCel fun x => { x with buffer := SMap.del x.buffer (mapKey ns slot) }).setMap (mapKey ns slot) 0

/-- R242, R252: a frame whose data are in hand is moved, under a SEQ of its own (log entry 306); a slot whose newer write is in the
buffer needs no move. -/
def State.relocate (s : State) (place : Nat) : State :=
  match s.frameAt place with
  | none => s
  | some f =>
    if (SMap.find s.cellar.buffer (mapKey f.ns f.lslot)).isSome && f.kind == 1 then s else
    let (s, sq) := s.drawSeq
    s.appendFrame stReloc { f with seq := sq } (.reloc (entryOf place))

/-! Reads -/

/-- What a read of a logical slot finds as it is accepted (R253, R254). -/
inductive SlotRead where
  | here (data : Bytes) | lost | flash (place : Nat) | unready (place : Nat)
deriving DecidableEq, Repr, Inhabited

def State.slotRead (s : State) (ns slot : Nat) : SlotRead :=
  match SMap.find s.cellar.buffer (mapKey ns slot) with
  | some (_, d) => .here d
  | none =>
    let e := s.mapEntry (mapKey ns slot)
    match entryState e with
    | 0 => .here (zeros 4096)
    | 1 => if s.chIsReady (placeCh (entryPlace e)) then .flash (entryPlace e) else .unready (entryPlace e)
    | _ => .lost

/-- R258, R553: the data of a place on a channel that takes no operation: rebuilt from parity while it is held. -/
def State.rebuilt (s : State) (place : Nat) : Option Bytes :=
  if s.hasParity place then (s.frameAt place).map (·.data) else none

/-- R258, R276, R553: the same as stage 4 of a read: counted, and the frame relocated. -/
def State.rebuildRead (s : State) (place : Nat) : State × Option Bytes :=
  match s.rebuilt place with
  | some d => ((s.addF F.CELLAR_ERR_A_PARITY (groupOfCh (placeCh place)) 1).relocate place, some d)
  | none => (s, none)

/-- The counts of a frame read on a channel (R269). -/
def State.noteRead (s : State) (place : Nat) : State := s.addF F.CELLAR_CH_STAT_READS (placeCh place) 1

/-- R258: what stage a frame's decode ended in can be. -/
def State.stageMay (s : State) (place : Nat) : DecodeOut → Bool
  | .retry k => s.on F.CELLAR_RETRY_VALID k.toNat
  | .parity => s.hasParity place
  | _ => true

/-- R258, R276: the count of a stage. -/
def State.noteStage (s : State) (g : Nat) : DecodeOut → State
  | .retry _ => s.addF F.CELLAR_ERR_A_RETRY g 1
  | .soft => s.addF F.CELLAR_ERR_A_SOFT g 1
  | .parity => s.addF F.CELLAR_ERR_A_PARITY g 1
  | _ => s

/-- R258: META agrees with the request. -/
def State.frameMatches (s : State) (place ns slot : Nat) : Bool :=
  match s.frameAt place with
  | some f => f.ns == ns && f.lslot == slot
  | none => false

/-- R254, R258: a frame that no stage decodes makes its slot LOST, if the map still names it. -/
def State.loseFrame (s : State) (key entry : Nat) : State :=
  if s.mapEntry key = entry then
    (s.setMap key entryLost).addF F.CELLAR_ERR_A_UNCORR (groupOfCh (placeCh (entryPlace entry))) 1
  else s

/-- R258: the stage that a read of the node's own ends in. -/
def State.ladder (s : State) (place : Nat) : State × DecodeOut :=
  let (s, n) := s.draw
  let k := Config.ladderOut n
  let o : DecodeOut :=
    if k = 0 then .hard else if k ≤ 16 then .retry (BitVec.ofNat 4 (k - 1)) else if k = 17 then .soft else if k = 18 then .parity else .failed
  (s, if s.stageMay place o then o else .failed)

/-- R250: a lookup of a map that is not resident reads the segment from flash when the cache does not hold it. -/
def State.lookup (s : State) (ns slot : Nat) : State :=
  match SMap.find s.cellar.segments (mapKey ns slot / 512) with
  | none => s
  | some p =>
    if (s.nsDesc ns).resident ∨ (SMap.find s.cellar.dirty (mapKey ns slot / 512)).isSome ∨ (SMap.find s.cellar.buffer (mapKey ns slot)).isSome
    then s
    else
      let (s, n) := s.draw
      if Config.mapCached n ∧ s.f F.CELLAR_MAP_CACHE_SIZE 0 ≠ 0 then s else s.noteRead p

/-- A frame read through the stages of R258 at once, for a read of the node's own (log entry 56): data, or none where it is LOST. -/
def State.ladderRead (s : State) (ns slot place : Nat) : State × Option Bytes :=
  let (s, o) := (s.noteRead place).ladder place
  if o == .failed || !s.frameMatches place ns slot then (s.loseFrame (mapKey ns slot) (entryOf place), none)
  else
    let s := s.noteStage (groupOfCh (placeCh place)) o
    (if (o == .soft || o == .parity) && s.isLive place then s.relocate place else s, (s.frameAt place).map (·.data))

/-- A read of the node's own (a cold row, a page of a cask, a restore), taken whole: data, or none where the slot is LOST
or lies on a channel that takes no operation and no parity is held. -/
def State.readSlot (s : State) (ns slot : Nat) : State × Option Bytes :=
  let s := s.lookup ns slot
  match s.slotRead ns slot with
  | .here d => (s, some d)
  | .flash p => s.ladderRead ns slot p
  | .unready p => s.rebuildRead p
  | .lost => (s, none)

/-- The slots from `first` on, read whole: bytes, and whether every slot could be read. -/
def State.readSlots (s : State) (ns first n : Nat) : State × Bytes × Bool :=
  (List.range n).foldl (fun (s, b, ok) k =>
    match s.readSlot ns (first + k) with
    | (s, some d) => (s, b ++ d, ok)
    | (s, none) => (s, b ++ zeros 4096, false)) (s, [], true)

/-! The log (R261) -/

/-- Ring slots, from the next one on, that a frame may take. -/
def State.logRoom (s : State) (need : Nat) : Bool :=
  match s.logNs with
  | none => false
  | some n =>
    let size := (s.nsDesc n).size
    decide (need ≤ size) && (List.range need).all fun k =>
      match SMap.find s.cellar.logRing ((s.cellar.logNext + k) % size) with
      | none => true
      | some sq => decide (sq - 1 < s.f F.CELLAR_LOG_TRIM_SEQ 0)

/-- R261: a record handed to the log; none while no LOG namespace is enabled or its ring has no free frame. The answer's
second part is the record's number. -/
def State.logHand (s : State) (rec : Bytes) : Option (State × Nat) :=
  let pend := s.cellar.logBuf.length + 1
  if s.logRoom (4 * ceilDiv pend 128) then
    let k := s.cellar.logNum
    some (s.setCel fun x => { x with logBuf := x.logBuf ++ [⟨k, s.now, rec⟩], logNum := k + 1 }, k)
  else none

/-- True when a record's page is programmed. -/
def State.logDurable (s : State) (k : Nat) : Bool :=
  decide (k < s.cellar.logNum) && !(s.cellar.logBuf.any fun r => r.number == k) &&
    !(s.cellar.logPend.any fun (a, b) => decide (a ≤ k) && decide (k < b))

/-- R261: a frame that takes the next ring slot. -/
def State.ringFrame (s : State) (ns size : Nat) (kind count : Nat) (data : Bytes) : State × FrameRec :=
  let (s, sq) := s.drawSeq
  let at_ := s.cellar.logNext % size
  (s.setCel fun x => { x with logNext := (at_ + 1) % size, logRing := SMap.ins x.logRing at_ (sq + 1) }, ⟨ns, kind, count, at_, sq, data⟩)

/-- A log frame programmed into the next ring slot. -/
def State.logFrame (s : State) (ns size : Nat) (kind count : Nat) (data : Bytes) (p : Purpose) : State :=
  let (s, f) := s.ringFrame ns size kind count data
  s.appendFrame stLog f p

/-- R241, R261: a filler of a page: one in the LOG stream takes a ring slot. -/
def State.fillerFrame (s : State) (stream : Nat) : State × FrameRec :=
  match (if stream = stLog then s.logNs else none) with
  | some n => s.ringFrame n (max 1 (s.nsDesc n).size) 5 0 (zeros 4096)
  | none =>
    let (s, sq) := s.drawSeq
    (s, ⟨0, 5, 0, 0, sq, zeros 4096⟩)

/-- R261: the pages that are due are programmed: full pages of 128 records, or all records when `all`; the last page is
completed with fillers. -/
def State.flushLog (s : State) (all : Bool) : State :=
  match s.logNs with
  | none => s
  | some ns =>
    let size := (s.nsDesc ns).size
    if size = 0 then s else
    let n := s.cellar.logBuf.length
    let take := if all then n else n / 128 * 128
    let out := s.cellar.logBuf.take take
    let s := s.setCel fun x => { x with logBuf := x.logBuf.drop take }
    let frames := pieces 32 out
    let s := frames.foldl (fun s fr =>
      let lo := (fr.headD default).number
      let hi := lo + fr.length
      let s := s.setCel fun x => { x with logPend := x.logPend ++ [(lo, hi)] }
      s.logFrame ns size 2 fr.length (slice ((fr.map (·.bytes)).flatten) 0 4096) (.log lo hi)) s
    let fill := (4 - frames.length % 4) % 4
    (List.range fill).foldl (fun s _ => s.logFrame ns size 5 0 (zeros 4096) .filler) s

/-! Map segments (R250) -/

/-- The data of a map segment: its 512 entries. -/
def State.segmentData (s : State) (seg : Nat) : Bytes :=
  (List.range 512).flatMap fun k => leBytes 8 (s.mapEntry (512 * seg + k))

/-- A changed segment waits while the first write of a slot that it does not map is not programmed yet: a segment that names a slot
as unmapped is then newer than every write of that slot before it (R250, R251). -/
def State.segmentWaits (s : State) (seg : Nat) : Bool :=
  s.cellar.buffer.any fun (k, _) => k / 512 == seg && entryState (s.mapEntry k) != 1

/-- R250: every changed segment is programmed through the MAP stream. -/
def State.flushSegments (s : State) : State :=
  let segs := (s.cellar.dirty.map (·.1)).filter fun k => !s.segmentWaits k
  segs.foldl (fun s seg =>
    let (s, sq) := s.drawSeq
    s.appendFrame stMap ⟨seg / 2 ^ 31, 3, 0, seg % 2 ^ 31, sq, s.segmentData seg⟩ (.segment seg))
    (s.setCel fun x => { x with dirty := x.dirty.filter fun y => !segs.contains y.1 })

/-! Health (R256, R257, R275) -/

/-- R256: good blocks over the READY channels. -/
def State.goodBlocks (s : State) : Nat :=
  s.readyChans.foldl (fun a c => a + (s.lunsOf c).foldl (fun a (t, l) =>
    a + ((List.range s.geomOr.blocks).filter fun b => !(s.blockSt (memberKey c t l b)).bad).length) 0) 0

/-- R256: usable slots. -/
def State.userSlots (s : State) : Nat :=
  let spare := s.allLuns * (2 + s.f F.CELLAR_CFG_RO_SPARE 0)
  (s.goodBlocks - spare) * s.geomOr.pages * s.geomOr.planes * 4 * (256 - s.f F.CELLAR_CFG_OP_256 0) / 256

/-- R257, R525: READ_ONLY is set when the spare blocks fall below RO_SPARE per LUN. -/
def State.checkSpare (s : State) : State :=
  if s.cellar.started && s.f F.CELLAR_HEALTH_SPARE_LEFT 0 < s.f F.CELLAR_CFG_RO_SPARE 0 * s.allLuns
      && !s.on F.CELLAR_HEALTH_READ_ONLY 0 then
    (s.setF F.CELLAR_HEALTH_READ_ONLY 0 1).event F.TOP_INT_STAT_CELLAR
  else s

/-- R275: the mean P/E count over RATED_PE in 1/256. -/
def State.noteWear (s : State) : State :=
  let n := s.goodBlocks
  let rated := s.f F.CELLAR_CFG_RATED_PE 0
  let sum := s.cellar.blocks.foldl (fun a (_, b) => if b.bad then a else a + b.pe) 0
  s.setF F.CELLAR_HEALTH_WEAR_USED 0 (if n = 0 || rated = 0 then 0 else min 0xFFFF (256 * sum / (n * rated)))

/-- R256: a block is retired; a spare block stands in for it. -/
def State.retire (s : State) (key : Nat) : State :=
  if (s.blockSt key).bad then s else
  let s := s.setBlock key fun b => { b with bad := true }
  (s.setF F.CELLAR_HEALTH_SPARE_LEFT 0 (s.f F.CELLAR_HEALTH_SPARE_LEFT 0 - 1)).checkSpare

/-- R257: true when a write to a namespace kind completes with QUOTA for lack of spare blocks. -/
def State.writeRefused (s : State) (kind : Nat) : Bool :=
  (s.on F.CELLAR_HEALTH_READ_ONLY 0 && (kind == nsData || kind == nsPool)) ||
    (s.cellar.started && s.f F.CELLAR_HEALTH_SPARE_LEFT 0 == 0)

/-! Raw frames (R241 to R243, R265) -/

/-- R243: n bytes of the whitening stream from a state of the LFSR. -/
def whitenStream : Nat → Nat → Bytes
  | 0, _ => []
  | n + 1, st =>
    let step (st : Nat) : Nat :=
      let fb := Nat.xor (Nat.xor (st % 2) (st / 2 % 2)) (Nat.xor (st / 4 % 2) (st / 2 ^ 22 % 2))
      st / 2 + fb * 2 ^ 31
    let st8 := step (step (step (step (step (step (step (step st)))))))
    BitVec.ofNat 8 st :: whitenStream n st8

/-- R243: the seed of a frame. -/
def whitenSeed (block page slot : Nat) : Nat := ((block * 4096 + page) * 4 + slot) ||| 1

/-- R242: the metadata of a frame. -/
def FrameRec.metaBytes (f : FrameRec) : Bytes :=
  let m := leBytes 2 f.ns ++ leBytes 1 f.kind ++ leBytes 1 f.count ++ leBytes 8 f.lslot ++ leBytes 8 f.seq ++
    leBytes 4 (crc32c f.data) ++ zeros 4
  m ++ leBytes 4 (crc32c m)

/-- R243: whether a number has an odd number of bits set below bit n. -/
def oddBits (n x : Nat) : Bool := (List.range n).foldl (fun a k => a != bit x k) false

/-- R243, R278: row r of the parity-check matrix over n circulants of the base matrix from column `first` on: bit 128 × j + c is the entry
of circulant j in its column c (log entry 13). -/
def ldpcRow (r first n : Nat) : Nat :=
  (List.range n).foldl (fun m j =>
    let e := (Config.ldpcBaseByte (290 * (r / 128) + first + j)).toNat
    if e = 0xFF then m else m ||| 2 ^ (128 * j + (r % 128 + e) % 128)) 0

/-- Equations over n unknown bits, bit n being the right side: those solved for a column, and the others, after one column. -/
def solveStep (n : Nat) (st : List (Nat × Nat) × List Nat) (col : Nat) : List (Nat × Nat) × List Nat :=
  match st.2.find? fun e => bit e col with
  | none => st
  | some p =>
    let clear (e : Nat) : Nat := if bit e col then Nat.xor e p else e
    (st.1.map (fun (k, e) => (k, clear e)) ++ [(col, p)], (dropFirst (fun e => e == p) st.2).map clear)

/-- R243: the parity of a whitened frame: the 4,096 bits under which every row of the base matrix checks; bits that the matrix leaves open
are free. -/
def ldpcParity (body : Bytes) : Bytes :=
  let d := leNat body
  let eqs := (List.range 4096).map fun r => ldpcRow r 258 32 + (if oddBits 33024 (ldpcRow r 0 258 &&& d) then 2 ^ 4096 else 0)
  let solved := ((List.range 4096).foldl (solveStep 4096) ([], eqs)).1
  let open_ := (List.range 4096).filter fun c => !solved.any fun x => x.1 == c
  let free := open_.foldl (fun m c => if bit (Config.ldpcParityByte body (c / 8)).toNat (c % 8) then m + 2 ^ c else m) 0
  leBytes 512 (solved.foldl (fun m (c, e) => if oddBits 4096 (e &&& free) != bit e 4096 then m + 2 ^ c else m) free)

/-- R241, R243: the stored bytes of a frame at a place: whitened data and metadata, then the parity of the code. -/
def FrameRec.raw (f : FrameRec) (place : Nat) : Bytes :=
  let plain := slice f.data 0 4096 ++ f.metaBytes
  let w := whitenStream 4128 (whitenSeed (placeBlock place) (placePage place) (placeSlot place))
  let body : Bytes := (plain.zip w).map fun (a, b) => a ^^^ b
  body ++ ldpcParity body

/-- R241: a page as it is programmed: its frames at 4,640 × s, and 0xFF to the end of its spare area. -/
def pageImage (size : Nat) (frames : List (Nat × FrameRec × Nat)) : Bytes :=
  frames.foldl (fun b (slot, f, place) => putAt b (4640 * slot) (f.raw place)) (List.replicate (max size 18560) 0xFF#8)

/-- R245: the parity frame of the stripe row of a place: the XOR of the frames stored there. -/
def State.parityFrame (s : State) (b : Super) (place : Nat) : Bytes :=
  (s.stripe b place).foldl (fun a (p, f) => (a.zip (f.raw p)).map fun (x, y) => x ^^^ y) (zeros 4640)

end Sys2Proof.Machine
end

