-- ==== Sys2Proof/Machine/Pool.lean ====
section
/-! DEFINITION. The shared pool and its coherence protocol (R280 to R307): the cask access table, cask records and the
directory in memory, the lender's service of line requests, recalls, agent loss, withdrawal, and the pages of flash-backed
casks. -/
namespace Sys2Proof.Machine

/-! Names (R280, R287) -/

def caskLocal (id : Nat) : Nat := id % 2 ^ 10
def caskLender (id : Nat) : Nat := id / 2 ^ 10 % 2 ^ 16
def State.caskIdOf (s : State) (c : Nat) : Nat := c + 2 ^ 10 * s.self

def agentNode (a : Nat) : Nat := a % 2 ^ 16
/-- 0 for a pool cache, 1 and 2 for the host behind Nahel port 0 and 1. -/
def agentKind (a : Nat) : Nat := a / 2 ^ 16
def State.hostAgent (s : State) (port : Nat) : Nat := s.self + (port + 1) * 2 ^ 16
/-- The agent of this node's pool cache. -/
def State.ownAgent (s : State) : Nat := s.self

/-- R291: the codes of the requests. -/
def LineOp.code : LineOp → Nat
  | .rdS => 1 | .rdM => 2 | .rdNc => 3 | .wrNc => 4 | .wb => 5 | .drop => 6

def LineOp.ofCode : Nat → Option LineOp
  | 1 => some .rdS | 2 => some .rdM | 3 => some .rdNc | 4 => some .wrNc | 5 => some .wb | 6 => some .drop
  | _ => none

/-- True when a message of a code carries the line (R425). -/
def cohHasLine (code : Nat) (withLine : Bool) : Bool :=
  match code with
  | 4 => true
  | 5 => true
  | 0x12 => withLine
  | 0x20 => withLine
  | _ => false

/-! The access table (R282, R283) -/

/-- R281: the cask-space slot of an address in window 2. -/
def caskSlot (addr : Nat) : Nat := (addr - Config.caskBase) / 2 ^ 30

/-- R281: the line within a cask of an address in window 2. -/
def caskLine (addr : Nat) : Nat := addr % 2 ^ 30 / 64

def inCaskSpace (addr len : Nat) : Bool :=
  decide (Config.caskBase ≤ addr) && decide (addr + len ≤ Config.caskBase + Config.caskSlots * 2 ^ 30)

/-- R283: the entry of a slot; once read it is kept until POOL_CAT_INVAL drops it. -/
def State.catEntry (s : State) (slot : Nat) : State × Bytes :=
  match SMap.find s.pool.catCache slot with
  | some e => (s, e)
  | none =>
    let e := s.peek (s.fAddr F.POOL_CAT_ADDR 0 + 128 * slot) 128
    (s.setPool fun p => { p with catCache := SMap.ins p.catCache slot e }, e)

/-- R282: the check of an access to a cask-space slot; a refusal counts in POOL_STAT.DENIED. -/
def State.caskCheck (s : State) (slot tenant : Nat) (read write : Bool) : State × Option Nat :=
  let (s, e) := s.catEntry slot
  let r := bit (byteAt e (64 + tenant / 8)) (tenant % 8)
  let w := bit (byteAt e (96 + tenant / 8)) (tenant % 8)
  if bit (byteAt e 4) 0 && (!read || r) && (!write || w) then (s, some (leAt e 0 4))
  else (s.addF F.POOL_STAT_DENIED 0 1, none)

/-- R425: the lowest slot of the access table bound to a cask and VALID, else one that names it. -/
def State.slotOfCask (s : State) (id : Nat) : Nat :=
  let names (slot : Nat) : Bool := s.peekN (s.fAddr F.POOL_CAT_ADDR 0 + 128 * slot) 4 == id
  let valid (slot : Nat) : Bool := s.peekN (s.fAddr F.POOL_CAT_ADDR 0 + 128 * slot + 4) 1 % 2 == 1
  match (List.range Config.caskSlots).find? fun k => names k && valid k with
  | some k => k
  | none => ((List.range Config.caskSlots).find? names).getD 0

/-! Cask records (R288, R289) -/

def State.lentCask (s : State) (c : Nat) : Option Lent := SMap.find s.pool.lent c

def State.recAddr (s : State) (c : Nat) : Nat := s.fAddr F.DIR_REC_ADDR 0 + 131072 * c

def State.setLent (s : State) (c : Nat) (f : Lent → Lent) : State :=
  s.setPool fun p => { p with lent := SMap.upd p.lent c f }

/-- The agent list of a cask. -/
def State.agentsOf (s : State) (c : Nat) : List (Nat × Nat × Bool) :=
  match s.lentCask c with
  | some l => l.agents
  | none => []

def State.agentIndex (s : State) (c a : Nat) : Option Nat := ((s.agentsOf c).find? fun x => x.2.1 == a).map (·.1)

def State.agentFenced (s : State) (c a : Nat) : Bool := (s.agentsOf c).any fun x => x.2.1 == a && x.2.2

/-- R288: an agent-list entry written in the record and in the list. -/
def State.putAgent (s : State) (c i a : Nat) (fenced : Bool) : State :=
  (s.setLent c fun l => { l with agents := SMap.ins l.agents i (a, fenced) }).storeN (s.recAddr c + 0x4000 + 4 * i) 4
    (a + b2n fenced * 2 ^ 30 + 2 ^ 31)

/-- An agent leaves the list of a cask. -/
def State.dropAgent (s : State) (c a : Nat) : State :=
  match s.agentIndex c a with
  | some i => (s.setLent c fun l => { l with agents := SMap.del l.agents i }).storeN (s.recAddr c + 0x4000 + 4 * i) 4 0
  | none => s

def State.compat (s : State) : Bool := s.on F.FLT_CFG_COMPAT 0

/-- R307: the generation of an agent for a cask; 0 outside compatibility mode. -/
def State.agentGen (s : State) (c a : Nat) : Nat :=
  if s.compat then
    match s.agentIndex c a with
    | some i => s.peekN (s.recAddr c + 2 * i) 2
    | none => 0
  else 0

/-- R426: an older generation: nonzero and 1 to 32,767 behind the current one. -/
def genOlder (gen cur : Nat) : Bool :=
  gen != 0 && (let d := (cur + 2 ^ 16 - gen) % 2 ^ 16; decide (1 ≤ d) && decide (d ≤ 32767))

/-- A generation advanced by 1, skipping 0. -/
def genNext (g : Nat) : Nat := if (g + 1) % 2 ^ 16 = 0 then 1 else (g + 1) % 2 ^ 16

/-- R289: an agent joins a cask; none when the list is full. A 65th agent switches the cask to coarse mode. -/
def State.join (s : State) (c a : Nat) : Option State :=
  if (s.agentIndex c a).isSome then some s else
  let used := (s.agentsOf c).map (·.1)
  match (List.range 4096).find? fun i => !used.contains i with
  | none => none
  | some i =>
    let s := s.putAgent c i a false
    let s := if s.compat && s.peekN (s.recAddr c + 2 * i) 2 == 0 then s.storeN (s.recAddr c + 2 * i) 2 1 else s
    some (if 64 < (s.agentsOf c).length && !s.pool.coarse.contains c then
      s.setPool fun p => { p with coarse := p.coarse ++ [c] } else s)

/-! Pages of flash-backed casks (R298, R299) -/

structure PageEnt where
  frame    : Nat
  resident : Bool
  dirty    : Bool
  hint     : Nat
  moving   : Bool
  poisoned : Bool
deriving DecidableEq, Repr, Inhabited

def pageOfLine (line : Nat) : Nat := line / 1024

def State.pageEnt (s : State) (c page : Nat) : PageEnt :=
  let w := s.peekN (s.recAddr c + 0x10000 + 4 * page) 4
  ⟨bits w 23 0, bit w 24, bit w 25, bits w 27 26, bit w 28, bit w 29⟩

def State.setPage (s : State) (c page : Nat) (f : PageEnt → PageEnt) : State :=
  let e := f (s.pageEnt c page)
  s.storeN (s.recAddr c + 0x10000 + 4 * page) 4 (e.frame + b2n e.resident * 2 ^ 24 + b2n e.dirty * 2 ^ 25 +
    e.hint * 2 ^ 26 + b2n e.moving * 2 ^ 28 + b2n e.poisoned * 2 ^ 29)

/-- The device address of a frame. -/
def frameAddr (f : Nat) : Nat := Config.hbmBase + f / 16384 * 2 ^ 30 + 65536 * (f % 16384)

/-- The device address of a line of a lent cask in the lender's memory. -/
def State.lineAddr (s : State) (c line : Nat) : Nat :=
  match s.lentCask c with
  | some l => if l.flash then frameAddr (s.pageEnt c (pageOfLine line)).frame + line % 1024 * 64
      else Config.hbmBase + l.group * 2 ^ 30 + line * 64
  | none => 0

def State.isFlash (s : State) (c : Nat) : Bool := match s.lentCask c with | some l => l.flash | none => false

/-- R300: the access counter of a page. -/
def State.pageCount (s : State) (c page : Nat) : Nat := s.peekN (s.recAddr c + 0x8000 + 2 * page) 2
def State.setPageCount (s : State) (c page v : Nat) : State := s.storeN (s.recAddr c + 0x8000 + 2 * page) 2 v

def State.markDirty (s : State) (c line : Nat) : State :=
  if s.isFlash c then s.setPage c (pageOfLine line) fun e => { e with dirty := true } else s

/-- R297: the frames of the marked groups, and those that hold no page. -/
def State.frameGroups (s : State) : List Nat :=
  (List.range 12).flatMap fun j => (onesBelow 64 (s.reg .poolFrames j)).map (64 * j + ·)

def State.frameCount (s : State) : Nat := 16384 * s.frameGroups.length
def State.freeFrames (s : State) : Nat := s.frameCount - s.pool.frames.length

/-! The directory (R290) -/

/-- The number of sets, a power of two; 0 without a store. -/
def State.dirSets (s : State) : Nat :=
  let bytes := s.f F.DIR_STORE_SIZE 0 * 2 ^ 24
  if bytes = 0 then 0 else 2 ^ (bytes / 256).log2

def dirTag (c line : Nat) : Nat := c * 2 ^ 24 + line

def State.dirSet (s : State) (c line : Nat) : Nat :=
  dirTag c line * 0x9E3779B97F4A7C15 % 2 ^ 64 / 2 ^ (64 - s.dirSets.log2)

structure DirEnt where
  tag     : Nat
  st      : Nat
  coarse  : Bool
  busy    : Bool
  owner   : Nat
  sharers : Nat
deriving DecidableEq, Repr, Inhabited

def State.dirEntAddr (s : State) (n : Nat) : Nat := s.fAddr F.DIR_STORE_ADDR 0 + 16 * n

def State.dirEnt (s : State) (n : Nat) : DirEnt :=
  let w := s.peekN (s.dirEntAddr n) 16
  ⟨bits w 33 0, bits w 35 34, bit w 36, bit w 37, bits w 55 38, bits w 127 64⟩

def State.putDir (s : State) (n : Nat) (e : DirEnt) : State :=
  s.storeN (s.dirEntAddr n) 16 (e.tag + e.st * 2 ^ 34 + b2n e.coarse * 2 ^ 36 + b2n e.busy * 2 ^ 37 +
    e.owner * 2 ^ 38 + e.sharers * 2 ^ 64)

/-- R290: the entry of a line. -/
def State.dirFind (s : State) (c line : Nat) : Option (Nat × DirEnt) :=
  if s.dirSets = 0 then none else
  let base := 16 * s.dirSet c line
  (((List.range 16).map fun k => (base + k, s.dirEnt (base + k))).find? fun (_, e) =>
    e.st != 0 && e.tag == dirTag c line)

/-- The entry becomes the most recently used. -/
def State.dirTouch (s : State) (n : Nat) : State :=
  s.setPool fun p => { p with lru := (p.lru.filter (· != n)) ++ [n] }

/-- An entry freed: its line is in state I. -/
def State.dirFree (s : State) (n : Nat) : State :=
  (s.putDir n default).setPool fun p => { p with lru := p.lru.filter (· != n) }

def dirS : Nat := 1
def dirM : Nat := 2

/-- R289: the sharer bit of an agent in an entry's encoding. -/
def State.sharerBit (s : State) (c a : Nat) (coarse : Bool) : Nat :=
  if coarse then a % 64 else (s.agentIndex c a).getD 0

/-- R289, R293: the agents that hold a line according to its entry. -/
def State.holders (s : State) (c : Nat) (e : DirEnt) : List Nat :=
  if e.st = dirM then [e.owner]
  else if e.st = dirS then
    ((s.agentsOf c).filter fun x => e.sharers.testBit (if e.coarse then x.2.1 % 64 else x.1)).map (·.2.1)
  else []

/-- R289: a sharer vector in the encoding that the cask now uses. -/
def State.recode (s : State) (c : Nat) (e : DirEnt) : DirEnt :=
  if s.pool.coarse.contains c && !e.coarse then
    { e with coarse := true, sharers := (s.holders c e).foldl (fun v a => v ||| 2 ^ (a % 64)) 0 }
  else e

/-- An entry without some agents; a coarse bit stays while another joined agent has it. -/
def State.without (s : State) (c : Nat) (e : DirEnt) (gone : List Nat) : DirEnt :=
  if e.st = dirM then (if gone.contains e.owner then default else e)
  else
    let keep := (s.holders c e).filter fun a => !gone.contains a
    let v := keep.foldl (fun v a => v ||| 2 ^ s.sharerBit c a e.coarse) 0
    if v = 0 then default else { e with sharers := v }

/-! Answers (R291) -/

/-- A cask access of a host packet: one line has come back. -/
def State.hostLine (s : State) (port tag line : Nat) (code : Code) (data : Option Bytes) : State :=
  match (s.nl port).casks.find? fun x => x.tag == tag with
  | none => s
  | some x =>
    let y := { x with left := x.left - 1, worst := x.worst.worst code,
                      got := match data with
                        | some d => x.got ++ [(line, d)]
                        | none => x.got }
    if y.left = 0 then
      let s := s.setNl port fun n => { n with casks := dropFirst (fun z => z.tag == tag) n.casks }
      -- lines in the order of the packet's bytes: an access may run into the next slot
      let key (l : Nat) : Nat := (l + 2 ^ 24 - y.first % 2 ^ 30 / 64) % 2 ^ 24
      let bytes := (sortBy (fun a b => decide (key a.1 < key b.1)) y.got).flatMap (·.2)
      s.sendPacket port ⟨3, tag, y.gen, y.worst.num, if y.read && y.worst == .ok then slice bytes (y.first % 64) y.len else []⟩
    else s.setNl port fun n => { n with casks := replaceFirst (fun z => z.tag == tag) (fun _ => y) n.casks }

/-- R425: a coherence message to a host of this node. -/
def State.toHost (s : State) (port id line code status mask gen : Nat) (data : Option Bytes) : State :=
  let body := leBytes 1 code ++ leBytes 1 status ++ zeros 6 ++ (if code = 4 then leBytes 8 mask else []) ++ data.getD []
  s.sendPacket port ⟨4, 0, gen, Config.caskBase + s.slotOfCask id * 2 ^ 30 + line * 64, body⟩

/-- R375: a coherence message to a peer, under the composition that lists the cask. -/
def State.toPeer (s : State) (node id line agent code status mask gen queue : Nat) (data : Option Bytes) : State :=
  let (comp, epoch) := match s.slotOfObject 3 id with
    | some (_, m, _) => (m.id, m.epoch)
    | none => (0, 0)
  s.sendMsg node comp epoch queue 4 0 0xFFFF gen
    (leBytes 1 code ++ leBytes 1 status ++ leBytes 3 agent ++ zeros 3 ++ leBytes 4 id ++ leBytes 4 line ++
      leBytes 8 mask ++ zeros 40 ++ data.getD [])

/-- The pool cache takes a line. -/
def State.cacheInstall (s : State) (id line : Nat) (owned : Bool) (d : Bytes) : State :=
  let rest := s.pool.cache.filter fun x => !(x.cask == id && x.line == line)
  s.setPool fun p => { p with cache := rest ++ [⟨id, line, owned, d⟩] }

def State.cacheLine (s : State) (id line : Nat) : Option CacheLine :=
  s.pool.cache.find? fun x => x.cask == id && x.line == line

def State.cacheDrop (s : State) (id line : Nat) : State :=
  s.setPool fun p => { p with cache := p.cache.filter fun x => !(x.cask == id && x.line == line) }

def State.noteFailed (s : State) (id line : Nat) (c : Code) : State :=
  s.setPool fun p => { p with failed := p.failed.filter (fun x => !(x.1 == id && x.2.1 == line)) ++ [(id, line, c)] }

/-- DATA or CMP for a line of a cask ID, to where its request came from. -/
def State.answerAt (s : State) (id : Nat) (r : LineReq) (code : Code) (data : Option Bytes) : State :=
  let isData := match r.op with | .rdS | .rdM | .rdNc => true | _ => false
  let msg := if isData then 0x20 else 0x21
  let s := if code == .fenced then s.addF F.POOL_STAT_FENCED 0 1 else s
  let gen := s.agentGen r.cask r.agent
  match r.origin with
  | .agent =>
    if agentNode r.agent = s.self then
      if agentKind r.agent = 0 then s else s.toHost (agentKind r.agent - 1) id r.line msg code.num 0 gen data
    else s.toPeer (agentNode r.agent) id r.line r.agent msg code.num 0 gen (r.queue ||| 1) data
  | .host port tag => s.hostLine port tag r.line code data
  | .cache =>
    if isData then
      match data with
      | some d => if code == .ok then s.cacheInstall id r.line (r.op == .rdM) d else s.noteFailed id r.line code
      | none => s.noteFailed id r.line code
    else if code == .ok then s else s.noteFailed id r.line code
  | .lender => s

/-- DATA or CMP of this lender. -/
def State.answer (s : State) (r : LineReq) (code : Code) (data : Option Bytes) : State :=
  s.answerAt (s.caskIdOf r.cask) r code data

/-! Lines in the lender's memory -/

/-- R295: a line poisoned; its entry is freed and its page marked. -/
def State.poisonLine (s : State) (c line : Nat) : State :=
  let s := (s.poisonAt (s.lineAddr c line) 64).addF F.DIR_STAT_POISONED_LINES 0 1
  let s := match s.dirFind c line with
    | some (n, _) => s.dirFree n
    | none => s
  if s.isFlash c then s.setPage c (pageOfLine line) fun e => { e with poisoned := true } else s

/-- R293: the line written to memory. A full write clears poison, and the page's mark with its last poisoned line. -/
def State.writeLine (s : State) (c line : Nat) (d : Bytes) : State :=
  let s := (s.store (s.lineAddr c line) (slice d 0 64)).markDirty c line
  if s.isFlash c && (s.pageEnt c (pageOfLine line)).poisoned &&
      !s.anyPoison (frameAddr (s.pageEnt c (pageOfLine line)).frame) 65536 then
    s.setPage c (pageOfLine line) fun e => { e with poisoned := false }
  else s

/-- Bytes merged into a line under a mask. -/
def mergeLine (old new : Bytes) (mask : Nat) : Bytes :=
  (List.range 64).map fun k => if mask.testBit k then new.getD k 0#8 else old.getD k 0#8

/-! Recalls (R290 to R293) -/

def State.recallOn (s : State) (c line : Nat) : Bool := s.pool.recalls.any fun r => r.cask == c && r.line == line

/-- A snoop to an agent that is not this node's pool cache; an M holder is asked for the line. -/
def State.snoop (s : State) (c line agent : Nat) (wantData : Bool) : State :=
  let code := if wantData then 0x11 else 0x10
  let gen := s.agentGen c agent
  let s := s.addF F.DIR_STAT_RECALLS 0 1
  if agentNode agent = s.self then s.toHost (agentKind agent - 1) (s.caskIdOf c) line code 0 0 gen none
  else s.toPeer (agentNode agent) (s.caskIdOf c) line agent code 0 0 gen 0 none

/-- The answer of this node's pool cache to a snoop of its own node: the line written back when it was owned. -/
def State.snoopOwn (s : State) (c line : Nat) : State :=
  let id := s.caskIdOf c
  let s := s.addF F.DIR_STAT_RECALLS 0 1
  match s.cacheLine id line with
  | some x => (if x.owned then s.writeLine c line x.bytes else s).cacheDrop id line
  | none => s

/-- Agents are asked to give up a line. The second part tells that the recall is over at once, because only this node's
own cache had to answer. -/
def State.startRecall (s : State) (c line : Nat) (agents : List Nat) (cause : LineReq) : State × Bool :=
  match s.dirFind c line with
  | none => (s, true)
  | some (n, e) =>
    let wantData := e.st == dirM
    let own := agents.contains s.ownAgent
    let s := if own then s.snoopOwn c line else s
    let others := agents.filter (· != s.ownAgent)
    if others = [] then
      let e' := s.without c e agents
      ((if e'.st = 0 then s.dirFree n else s.putDir n e'), true)
    else
      let s := s.putDir n { e with busy := true }
      let s := s.setPool fun p => { p with recalls := p.recalls ++ [⟨c, line, agents, others, s.now + s.f F.DIR_CFG_RECALL_TIMEOUT_US 0, cause⟩] }
      (others.foldl (fun s a => s.snoop c line a wantData) s, false)

/-! The lender's service of one request (R293) -/

/-- What service of a request did: done, or it must wait. -/
abbrev Served := State × Bool

/-- R293: DATA from memory, the requester recorded as told. `grant` is 0 for no copy, 1 for S and 2 for M. -/
def State.grantLine (s : State) (r : LineReq) (ent : Option (Nat × DirEnt)) (grant : Nat) (slot : Nat) : State :=
  let a := s.lineAddr r.cask r.line
  let (s, d, code) := s.load a 64
  match code with
  | .poison =>
    let s := match ent with | some (n, _) => s.dirFree n | none => s
    s.answer r .poison none
  | .uncorrectable => (s.poisonLine r.cask r.line).answer r .uncorrectable none
  | _ =>
    let coarse := s.pool.coarse.contains r.cask
    let tag := dirTag r.cask r.line
    let s := match grant with
      | 1 =>
        let e := match ent with
          | some (_, e) => s.recode r.cask e
          | none => ⟨tag, dirS, coarse, false, 0, 0⟩
        let e := { e with st := dirS, busy := false, owner := 0,
                          sharers := e.sharers ||| 2 ^ s.sharerBit r.cask r.agent e.coarse }
        (s.putDir slot e).dirTouch slot
      | 2 => ((s.putDir slot ⟨tag, dirM, coarse, false, r.agent, 0⟩).dirTouch slot).markDirty r.cask r.line
      | _ => s
    s.answer r .ok (some d)

/-- R293, R295: WR_NC of a line that no agent holds. -/
def State.writeNc (s : State) (r : LineReq) : State :=
  if r.mask.toNat = 2 ^ 64 - 1 then (s.writeLine r.cask r.line r.data).answer r .ok none
  else
    let (s, d, code) := s.load (s.lineAddr r.cask r.line) 64
    match code with
    | .poison => s.answer r .poison none
    | .uncorrectable => (s.poisonLine r.cask r.line).answer r .uncorrectable none
    | _ => (s.writeLine r.cask r.line (mergeLine d r.data r.mask.toNat)).answer r .ok none

/-- The lender's own recall as the cause of a snoop. -/
def ownReq (c line : Nat) : LineReq := ⟨.lender, 0, c, line, .drop, 0#64, [], 0⟩

/-- R290: a free entry of the line's set; a full set has its least recently used line recalled first. The second part is
none while the request must wait. -/
def State.dirAlloc (s : State) (c line : Nat) : State × Option Nat :=
  if s.dirSets = 0 then (s, none) else
  let base := 16 * s.dirSet c line
  let ways := (List.range 16).map (base + ·)
  match ways.find? fun n => (s.dirEnt n).st == 0 with
  | some n => (s, some n)
  | none =>
    match s.pool.lru.find? fun n => ways.contains n && !(s.dirEnt n).busy with
    | none => (s, none)
    | some n =>
      let e := s.dirEnt n
      let c' := e.tag / 2 ^ 24
      let l' := e.tag % 2 ^ 24
      let (s, atOnce) := s.startRecall c' l' (s.holders c' e) (ownReq c' l')
      if atOnce then (s, some n) else (s, none)

/-- R293: a request whose line is free to be served. With recalls of other agents it waits; a recall that only this
node's cache had to answer is over at once. -/
def State.serveLine : Nat → State → LineReq → Served
  | 0, s, _ => (s, false)
  | fuel + 1, s, r =>
    let a := r.agent
    let callIn (s : State) (agents : List Nat) : Served :=
      let (s, atOnce) := s.startRecall r.cask r.line agents r
      if atOnce then State.serveLine fuel s r else (s, true)
    match s.dirFind r.cask r.line with
    | none =>
      match r.op with
      | .rdS | .rdM =>
        match s.dirAlloc r.cask r.line with
        | (s, some n) => (s.grantLine r none (if r.op == .rdM then 2 else 1) n, true)
        | (s, none) => (s, false)
      | .rdNc => (s.grantLine r none 0 0, true)
      | .wrNc => (s.writeNc r, true)
      | .wb => ((s.addF F.DIR_STAT_LATE_DROP 0 1).answer r .ok none, true)
      | .drop => (s.answer r .ok none, true)
    | some (n, e) =>
      let mine := e.st == dirM && e.owner == a
      if e.st = dirS then
        match r.op with
        | .rdS => (s.grantLine r (some (n, e)) 1 n, true)
        | .rdM =>
          let rest := (s.holders r.cask e).filter (· != a)
          if rest = [] then (s.grantLine r (some (n, e)) 2 n, true) else callIn s rest
        | .rdNc => ((s.dirTouch n).grantLine r (some (n, e)) 0 0, true)
        | .wrNc => callIn s (s.holders r.cask e)
        | .wb => ((s.addF F.DIR_STAT_LATE_DROP 0 1).answer r .ok none, true)
        | .drop =>
          if (s.holders r.cask e).contains a && !e.coarse then
            let e' := s.without r.cask e [a]
            ((if e'.st = 0 then s.dirFree n else s.putDir n e').answer r .ok none, true)
          else (s.answer r .ok none, true)
      else if mine then
        match r.op with
        | .wb => (((s.writeLine r.cask r.line r.data).dirFree n).answer r .ok none, true)
        | .rdS | .rdM | .rdNc => ((s.dirTouch n).grantLine r (some (n, e)) 0 0, true)
        | .wrNc | .drop => callIn s [a]
      else
        match r.op with
        | .wb => ((s.addF F.DIR_STAT_LATE_DROP 0 1).answer r .ok none, true)
        | .drop => (s.answer r .ok none, true)
        | _ => callIn s [e.owner]

/-- R299: a page that a request may use. -/
def State.pageReady (s : State) (c line : Nat) : Bool :=
  !s.isFlash c || (let e := s.pageEnt c (pageOfLine line); e.resident && !e.moving)

/-- R294, R299: queued requests are served in order, one line at a time. -/
def State.serveQueue (s : State) : State :=
  let q := s.pool.queue
  q.foldl (fun s r =>
    let waits := s.recallOn r.cask r.line || !s.pageReady r.cask r.line ||
      s.pool.queue.any fun x => x.cask == r.cask && x.line == r.line
    let keep (s : State) : State := s.setPool fun p => { p with queue := p.queue ++ [r] }
    if waits then keep s
    else
      let (s', ok) := State.serveLine 4 s r
      if ok then s' else keep s') (s.setPool fun p => { p with queue := [] })

/-! Withdrawals, page write-back and reclaims: what goes on when something has ended -/

/-- The context number under which page work of a peer's command is kept; no context has it (R341). -/
def peerCtx : Nat := 4096

/-- A page of a cask command has ended with a code. -/
def State.caskPart (s : State) (owner : Option (Nat × Nat)) (code : Code) : State :=
  match owner with
  | none => s
  | some (c, q) =>
    if c = peerCtx then
      match s.pool.peerWork.find? fun w => w.id == q with
      | none => s
      | some w =>
        let k := w.worst.worst code
        if w.left ≤ 1 then
          (s.setPool fun p => { p with peerWork := p.peerWork.filter fun x => x.id != q }).sendMsg w.node 0 0 w.queue 2 w.tag 0xFFFF 0
            (leBytes 1 k.num ++ zeros 63)
        else s.setPool fun p => { p with peerWork := p.peerWork.map fun x => if x.id = q then { x with left := x.left - 1, worst := k } else x }
    else
    match s.req c q with
    | some r => match r.work with
      | .cask left worst =>
        let w := worst.worst code
        if left ≤ 1 then s.finishCode c q w else s.setWork c q (.cask (left - 1) w)
      | _ => s
    | none => s

/-- The entries of the directory that hold lines of a page. -/
def State.pageEntries (s : State) (c page : Nat) : List (Nat × DirEnt) :=
  (s.pool.lru.map fun n => (n, s.dirEnt n)).filter fun (_, e) =>
    e.st != 0 && e.tag / 2 ^ 24 == c && pageOfLine (e.tag % 2 ^ 24) == page

def State.pageRecalled (s : State) (j : PageJob) : Bool :=
  !(s.pool.recalls.any fun r => r.cask == j.cask && pageOfLine r.line == j.page) &&
    (s.pageEntries j.cask j.page).all fun (_, e) => !j.evict && e.st == dirS

/-- R262: the cellar slot of a page's 4 KiB piece k. -/
def Lent.pageSlot (l : Lent) (page k : Nat) : Nat := l.slot + 16 * page + k

/-- R299, R303: one page job goes on; the second part tells that it has ended. -/
def State.pageStep (s : State) (j : PageJob) : State × Bool :=
  match s.lentCask j.cask with
  | none => (s, true)
  | some l =>
    let e := s.pageEnt j.cask j.page
    let ended (s : State) : State × Bool :=
      let s := if j.evict then
          ((s.setPage j.cask j.page fun e => { e with resident := false, moving := false, frame := 0 }).setPool
            fun p => { p with frames := p.frames.filter (· != e.frame) }).addF F.POOL_STAT_EVICTS 0 1
        else s
      (s.caskPart j.owner .ok, true)
    if j.writing then
      if (List.range 16).all fun k => (SMap.find s.cellar.buffer (mapKey l.ns (l.pageSlot j.page k))).isNone then ended s
      else (s, false)
    else if s.pageRecalled j then
      let stop (k : Code) : State × Bool :=
        (((if j.evict then s.setPage j.cask j.page fun e => { e with moving := false } else s).caskPart j.owner k), true)
      if e.poisoned then stop .poison
      else if e.dirty && s.writeRefused nsPool then stop .quota
      else if e.dirty then
        let d := s.peek (frameAddr e.frame) 65536
        let s := (List.range 16).foldl (fun s k =>
          s.writeSlot l.ns (l.pageSlot j.page k) (slice d (4096 * k) 4096) .own) s
        ((s.setPage j.cask j.page fun e => { e with dirty := false }).setPool fun p =>
          { p with pageJobs := p.pageJobs.map fun x => if x == j then { x with writing := true } else x }, false)
      else ended s
    else (s, false)

/-- R299, R303: a page is to be written back: its lines are recalled first. -/
def State.startPageJob (s : State) (c page : Nat) (evict : Bool) (owner : Option (Nat × Nat)) : State :=
  let s := if evict then s.setPage c page fun e => { e with moving := true } else s
  let s := s.setPool fun p => { p with pageJobs := p.pageJobs ++ [⟨c, page, evict, false, owner⟩] }
  ((s.pageEntries c page).filter fun (_, e) => evict || e.st == dirM).foldl (fun s (_, e) =>
    let line := e.tag % 2 ^ 24
    if s.recallOn c line then s else (s.startRecall c line (s.holders c e) (ownReq c line)).1) s

/-- R304 step 3: a request of an agent that a withdrawal names is still queued. -/
def State.drainBusy (s : State) (w : Withdraw) : Bool :=
  s.pool.queue.any (fun r => r.cask == w.cask && w.agents.contains r.agent) ||
    s.pool.recalls.any fun r => r.cask == w.cask && w.agents.contains r.cause.agent && r.cause.origin != .lender

/-- R304 step 2: entries of a cask that a named agent holds and whose recall has not ended. -/
def State.walkBusy (s : State) (w : Withdraw) : Bool :=
  s.pool.recalls.any fun r => r.cask == w.cask && r.waits.any w.agents.contains

/-- R304 step 5: a withdrawal that has ended removes its agents and completes its command. -/
def State.endWithdraw (s : State) (w : Withdraw) : State :=
  let s := w.agents.foldl (fun s a => s.dropAgent w.cask a) s
  let s := s.setPool fun p => { p with withdraws := p.withdraws.filter (· != w) }
  match w.owner with
  | some (c, q) => s.finishCode c q .ok
  | none => s

/-- R304 step 2: the lines that named agents hold are recalled. -/
def State.walk (s : State) (c : Nat) (agents : List Nat) : State :=
  s.pool.lru.foldl (fun s n =>
    let e := s.dirEnt n
    let line := e.tag % 2 ^ 24
    if e.st = 0 || e.tag / 2 ^ 24 != c || s.recallOn c line then s
    else
      let named := (s.holders c e).filter agents.contains
      if named = [] then s else (s.startRecall c line named (ownReq c line)).1) s

/-- R304: a withdrawal starts: the agents are fenced, their lines recalled; in compatibility mode their generations
advance and their queued requests end at once (R307). -/
def State.startWithdraw (s : State) (c : Nat) (agents : List Nat) (owner : Option (Nat × Nat)) : State :=
  let s := agents.foldl (fun s a =>
    match s.agentIndex c a with
    | some i =>
      let s := s.putAgent c i a true
      if s.compat then s.storeN (s.recAddr c + 2 * i) 2 (genNext (s.peekN (s.recAddr c + 2 * i) 2)) else s
    | none => s) s
  let s := if s.compat then
      let gone := s.pool.queue.filter fun r => r.cask == c && agents.contains r.agent
      gone.foldl (fun s r => s.answer r .fenced none)
        (s.setPool fun p => { p with queue := p.queue.filter fun r => !(r.cask == c && agents.contains r.agent) })
    else s
  let s := s.setPool fun p => { p with withdraws := p.withdraws ++ [⟨c, agents, s.now + s.f F.DIR_CFG_DRAIN_TIMEOUT_US 0, false, owner⟩] }
  s.walk c agents

/-- Pages of a lent flash-backed cask that are in HBM. -/
def State.residentPages (s : State) (c : Nat) : List Nat :=
  (List.range 16384).filter fun p => (s.pageEnt c p).resident

/-- R286: one reclaim goes on: agents withdrawn, then dirty pages written and frames freed, then the cask is no longer
lent. -/
def State.reclaimStep (s : State) (r : Reclaim) : State :=
  let left := r.casks.filter fun c =>
    s.pool.withdraws.any (fun w => w.cask == c) || s.pool.pageJobs.any (fun j => j.cask == c) ||
      (s.isFlash c && !(s.residentPages c).all fun p => (s.pageEnt c p).poisoned)
  let done := r.casks.filter fun c => !left.contains c
  let s := done.foldl (fun s c =>
    match s.lentCask c with
    | none => s
    | some l =>
      let gone := if l.flash then (s.residentPages c).map fun p => (s.pageEnt c p).frame else []
      let s := s.zeroRange (s.recAddr c) 131072
      let s := s.setPool fun p => { p with lent := SMap.del p.lent c, coarse := p.coarse.filter (· != c),
                                           frames := p.frames.filter fun f => !gone.contains f }
      if l.flash then s else s.setReg .poolLent (l.group / 64) (setBit (s.reg .poolLent (l.group / 64)) (l.group % 64) false)) s
  let s := left.foldl (fun s c =>
    if s.isFlash c && !(s.pool.withdraws.any fun w => w.cask == c) && !(s.pool.pageJobs.any fun j => j.cask == c) then
      ((s.residentPages c).filter fun p => !(s.pageEnt c p).poisoned).foldl (fun s p => s.startPageJob c p true none) s
    else s) s
  if left = [] then
    (s.setPool fun p => { p with reclaims := p.reclaims.filter (· != r) }).finishCode r.ctx r.req .ok
  else s.setPool fun p => { p with reclaims := p.reclaims.map fun x => if x == r then { x with casks := left } else x }

/-- What waits for recalls, services and programs goes on. -/
def State.poolTick (s : State) : State :=
  let s := s.serveQueue
  let jobs := s.pool.pageJobs
  let s := jobs.foldl (fun s j =>
    let (s, done) := s.pageStep j
    if done then s.setPool fun p => { p with pageJobs := p.pageJobs.filter (· != j) } else s) s
  let s := s.pool.withdraws.foldl (fun s w =>
    if !s.walkBusy w && (w.drained || !s.drainBusy w) then s.endWithdraw w else s) s
  s.pool.reclaims.foldl (fun s r => s.reclaimStep r) s

/-- A recall has ended: its agents no longer hold the line; the request that it served goes on. -/
def State.endRecall (s : State) (rc : Recall) : State :=
  let s := s.setPool fun p => { p with recalls := p.recalls.filter fun x => !(x.cask == rc.cask && x.line == rc.line) }
  let s := match s.dirFind rc.cask rc.line with
    | some (n, e) =>
      let e' := { s.without rc.cask e rc.asked with busy := false }
      if e'.st = 0 then s.dirFree n else s.putDir n e'
    | none => s
  match rc.cause.origin with
  | .lender => s
  | _ =>
    let (s', ok) := State.serveLine 4 s rc.cause
    if ok then s' else s'.setPool fun p => { p with queue := rc.cause :: p.queue }

/-- R292, R293: an agent's answer to a snoop; one that no recall waits for is dropped (R306). -/
def State.snoopAnswer (s : State) (agent c line : Nat) (ans : SnoopAns) : State :=
  match s.pool.recalls.find? fun r => r.cask == c && r.line == line && r.waits.contains agent with
  | none => s.addF F.DIR_STAT_LATE_DROP 0 1
  | some rc =>
    let owner := match s.dirFind c line with | some (_, e) => e.st == dirM && e.owner == agent | none => false
    let s := match ans with
      | .withLine d => if owner then s.writeLine c line d else s
      | _ => s
    let rc' := { rc with waits := rc.waits.filter (· != agent) }
    if rc'.waits = [] then (s.endRecall rc').poolTick
    else s.setPool fun p => { p with recalls := replaceFirst (fun x => x.cask == c && x.line == line) (fun _ => rc') p.recalls }

/-- R286, R289, R293, R294, R307: a request reaches the lender. -/
def State.lenderTake (s : State) (r : LineReq) (gen : Nat) : State :=
  match s.lentCask r.cask with
  | none => s.answer r .fenced none
  | some _ =>
    if s.compat && genOlder gen (s.agentGen r.cask r.agent) then s.addF F.DIR_STAT_LATE_DROP 0 1
    else if s.agentFenced r.cask r.agent then
      -- a WB of a fenced agent that answers a snoop still counts as that answer (R293)
      if r.op == .wb && s.pool.recalls.any (fun x => x.cask == r.cask && x.line == r.line && x.waits.contains r.agent) then
        (s.snoopAnswer r.agent r.cask r.line (.withLine r.data)).answer r .ok none
      else s.answer r .fenced none
    else
      let joined := match r.op with
        | .wb | .drop => some s
        | _ => s.join r.cask r.agent
      match joined with
      | none => s.answer r .quota none
      | some s =>
        let page := pageOfLine r.line
        let s := s.setPageCount r.cask page (min 0xFFFF (s.pageCount r.cask page + 1))
        if r.op == .wb && s.pool.recalls.any (fun x => x.cask == r.cask && x.line == r.line && x.waits.contains r.agent) then
          (s.snoopAnswer r.agent r.cask r.line (.withLine r.data)).answer r .ok none
        else
          (s.setPool fun p => { p with queue := p.queue ++ [r] }).poolTick

/-! This node as an agent -/

/-- A request of this node (its pool cache, or a host behind it) to the lender of a cask: served here, sent to a peer, or
ended with FENCED when the peer is not admitted (R393). -/
def State.agentSend (s : State) (r : LineReq) (id tenant : Nat) : State :=
  if caskLender id = s.self then s.lenderTake r 0
  else if s.peerOk (caskLender id) then
    let q := s.reqQueue tenant
    let data := match r.op with | .wrNc | .wb => some r.data | _ => none
    (s.setPool fun p => { p with sent := p.sent ++ [{ r with cask := id, queue := q }] }).toPeer (caskLender id) id r.line
      r.agent r.op.code 0 r.mask.toNat 0 q data
  else s.answerAt id r .fenced none

/-- R286: the pool cache holds 131,072 lines; when it is full its oldest line leaves, an owned one with a WB (R292). -/
def State.cacheRoom (s : State) (tenant : Nat) : State :=
  if s.pool.cache.length < 131072 then s
  else match s.pool.cache with
    | [] => s
    | x :: rest =>
      let s := s.setPool fun p => { p with cache := rest }
      if x.owned then s.agentSend ⟨.cache, s.ownAgent, caskLocal x.cask, x.line, .wb, 0#64, x.bytes, 0⟩ x.cask tenant else s

/-- The lines that a command needs are asked for. -/
def State.askFor (s : State) (tenant : Nat) (needs : List (Nat × Nat × Bool)) : State :=
  needs.foldl (fun s (id, line, w) =>
    let asked := s.pool.sent.any (fun r => r.cask == id && r.line == line && r.agent == s.ownAgent) ||
      s.pool.queue.any fun r => s.caskIdOf r.cask == id && r.line == line && r.origin == .cache
    if asked then s
    else (s.cacheRoom tenant).agentSend ⟨.cache, s.ownAgent, caskLocal id, line, if w then .rdM else .rdS, 0#64, [], 0⟩ id tenant) s

/-- R296: what an agent that is lost leaves at this lender. -/
def State.loseAgent (s : State) (a : Nat) : State :=
  let was := s.pool.lent.any fun (_, l) => l.agents.any fun x => x.2.1 == a
  let ended := s.pool.queue.filter fun r => r.agent == a
  let s := s.setPool fun p => { p with queue := p.queue.filter fun r => r.agent != a }
  let s := s.pool.lru.foldl (fun s n =>
    let e := s.dirEnt n
    let c := e.tag / 2 ^ 24
    if e.st = dirM && e.owner = a then s.poisonLine c (e.tag % 2 ^ 24)
    else if e.st = dirS && !e.coarse then
      let e' := { s.without c e [a] with busy := e.busy }
      if e'.st = 0 && !e.busy then s.dirFree n else s.putDir n (if e'.st = 0 then { e with sharers := 0 } else e')
    else s) s
  let s := s.pool.recalls.foldl (fun s rc =>
    if rc.waits.contains a then
      let rc' := { rc with waits := rc.waits.filter (· != a) }
      if rc'.waits = [] then s.endRecall rc'
      else s.setPool fun p => { p with recalls := replaceFirst (fun x => x.cask == rc.cask && x.line == rc.line) (fun _ => rc') p.recalls }
    else s) s
  let s := s.pool.lent.foldl (fun s (c, _) => s.dropAgent c a) s
  let s := ended.foldl (fun s r => s.answer r .fenced none) s
  (if was then s.event F.TOP_INT_STAT_DIR else s).poolTick

end Sys2Proof.Machine
end

