-- ==== Sys2Proof/Machine/Operands.lean ====
section
/-! DEFINITION. The operands of commands: a context's page tables and the checks of an access (R103, R346, R347, R519), loads
and stores through them (local HBM, and cask space through the node's pool cache, R282, R291), and how a command runs on
the request that a ring slot holds (R15, R343, R555). -/
namespace Sys2Proof.Machine

/-- R346: a level of the page tables: lowest and highest virtual bit, bytes of a table, leaf allowed. -/
structure PtLevel where
  lo   : Nat
  hi   : Nat
  size : Nat
deriving DecidableEq, Repr, Inhabited

def ptLevels : List PtLevel := [⟨39, 51, 65536⟩, ⟨30, 38, 4096⟩, ⟨21, 29, 4096⟩, ⟨16, 20, 256⟩]

/-- R347: the walk below a table: leaf entry and log2 of its page size, or the code of the access. -/
def State.walkTables (s : State) (va : Nat) : List PtLevel → Nat → State × Except Code (Nat × Nat)
  | [], _ => (s, .error .denied)
  | lv :: rest, table =>
    if table % lv.size ≠ 0 || !inHbm table lv.size then (s, .error .denied)
    else
      let (s, d, code) := s.load (table + 8 * bits va lv.hi lv.lo) 8
      if code != .ok then (s, .error code)
      else
        let e := leNat d
        let addr := bits e 51 8 * 256
        let leaf := bit e 1
        if !bit e 0 || bits e 7 5 ≠ 0 || bits e 63 52 ≠ 0 then (s, .error .denied)
        else if leaf then
          if lv.lo = 39 || addr % 2 ^ lv.lo ≠ 0 then (s, .error .denied) else (s, .ok (e, lv.lo))
        else if rest = [] then (s, .error .denied)
        else s.walkTables va rest addr

/-- R103: the stack whose controller an address reaches. -/
def State.stackOf (s : State) (addr : Nat) : Nat := physUnit (s.phys addr) / 64

/-- R347, R519: the device address that a leaf entry gives, after the checks of the access. -/
def State.checkLeaf (s : State) (e log2 va : Nat) (write : Bool) : State × Except Code Nat :=
  let a := bits e 51 8 * 256 + va % 2 ^ log2
  let press := bit e 4
  if (if write then !bit e 3 else !bit e 2) then (s, .error .denied)
  else if inHbm a 1 then
    if press != s.pressMode (groupOf a) then (s.addF F.PRESS_ERR_MODE_MISMATCH (s.stackOf a) 1, .error .denied)
    else (s, .ok a)
  else if inCaskSpace a 1 then (if press then (s, .error .denied) else (s, .ok a))
  else (s, .error .denied)

/-- R346, R347: a virtual address of a context translated for a read or a write. -/
def State.translate (s : State) (c va : Nat) (write : Bool) : State × Except Code Nat :=
  match s.tlb.find? fun t => t.ctx == c && va / 2 ^ t.log2 == t.page with
  | some t => s.checkLeaf t.entry t.log2 va write
  | none =>
    let root := s.fAddr F.CTX_PT_ROOT c
    if root = 0 || 2 ^ 52 ≤ va then (s, .error .denied)
    else
      match s.walkTables va ptLevels root with
      | (s, .error code) => (s, .error code)
      | (s, .ok (e, log2)) =>
        let s : State := { s with tlb := s.tlb ++ [⟨c, va / 2 ^ log2, e, log2⟩] }
        s.checkLeaf e log2 va write

/-- A range of addresses cut at multiples of n. -/
def cutRange (n : Nat) : Nat → Nat → Nat → List (Nat × Nat)
  | 0, _, _ => []
  | fuel + 1, a, len =>
    if len = 0 then [] else
    let k := min len (n - a % n)
    (a, k) :: cutRange n fuel (a + k) (len - k)

def pieceRange (n a len : Nat) : List (Nat × Nat) := cutRange n (len / n + 2) a len

/-- The device addresses of a range of a context's space: pieces of one page each, or the first code met. -/
def State.ctxMap (s : State) (c va len : Nat) (write : Bool) : State × Except Code (List (Nat × Nat)) :=
  (pieceRange 65536 va len).foldl (fun (s, r) (a, k) =>
    match r with
    | .error e => (s, .error e)
    | .ok l => match s.translate c a write with
      | (s, .ok d) => (s, .ok (l ++ [(d, k)]))
      | (s, .error e) => (s, .error e)) (s, .ok [])

/-- One line of cask space for a command: from the pool cache, or asked for (R291). The command runs again when it
has come. -/
def State.caskBytes (s : State) (tenant addr len : Nat) (write : Bool) : State × Option CacheLine × Code :=
  match s.caskCheck (caskSlot addr) tenant (!write) write with
  | (s, none) => (s, none, .denied)
  | (s, some id) =>
    let line := caskLine addr
    match s.pool.failed.find? fun x => x.1 == id && x.2.1 == line with
    | some (_, _, code) =>
      (s.setPool fun p => { p with failed := p.failed.filter fun x => !(x.1 == id && x.2.1 == line) }, none, code)
    | none =>
      match s.cacheLine id line with
      | some x => if !write || x.owned then (s, some x, .ok)
          else (s.setPool fun p => { p with needs := p.needs ++ [(id, line, true)] }, none, .ok)
      | none =>
        (s.setPool fun p => { p with needs := p.needs ++ [(id, line, write)] }, some ⟨id, line, write, zeros (64 + 0 * len)⟩, .ok)

/-- Bytes read from a device address that a context may reach. -/
def State.devLoad (s : State) (tenant addr len : Nat) : State × Bytes × Code :=
  if inHbm addr len then s.load addr len
  else
    (pieceRange 64 addr len).foldl (fun (s, b, code) (a, k) =>
      match s.caskBytes tenant a k false with
      | (s, some x, c) => (s, b ++ slice x.bytes (a % 64) k, code.worst c)
      | (s, none, c) => (s, b ++ zeros k, code.worst c)) (s, [], .ok)

/-- Bytes written to a device address that a context may reach. -/
def State.devStore (s : State) (tenant addr : Nat) (d : Bytes) : State × Code :=
  if inHbm addr d.length then ((s.noteParts addr d.length).store addr d, .ok)
  else
    (pieceRange 64 addr d.length).foldl (fun (s, code) (a, k) =>
      match s.caskBytes tenant a k true with
      | (s, some x, c) => (s.cacheInstall x.cask x.line x.owned (putAt x.bytes (a % 64) (slice d (a - addr) k)), code.worst c)
      | (s, none, c) => (s, code.worst c)) (s, .ok)

/-- R346: bytes read from a context's space. -/
def State.ctxLoad (s : State) (c va len : Nat) : State × Bytes × Code :=
  match s.ctxMap c va len false with
  | (s, .error e) => (s, zeros len, e)
  | (s, .ok l) => l.foldl (fun (s, b, code) (a, k) =>
      let (s, d, c') := s.devLoad (s.tenant c) a k
      (s, b ++ d, code.worst c')) (s, [], .ok)

/-- R346: bytes written to a context's space; nothing is written unless the whole range may be. -/
def State.ctxStore (s : State) (c va : Nat) (d : Bytes) : State × Code :=
  match s.ctxMap c va d.length true with
  | (s, .error e) => (s, e)
  | (s, .ok l) =>
    let (s, code, _) := l.foldl (fun (s, code, off) (a, k) =>
      let (s, c') := s.devStore (s.tenant c) a (slice d off k)
      (s, code.worst c', off + k)) (s, .ok, 0)
    (s, code)

/-- Several stores of one command; the worst code. -/
def State.ctxStores (s : State) (c : Nat) (l : List (Nat × Bytes)) : State × Code :=
  l.foldl (fun (s, code) (a, d) => let (s, c') := s.ctxStore c a d; (s, code.worst c')) (s, .ok)

/-- A store that needs no line of cask space which the node does not hold; otherwise nothing is written. -/
def State.tryStore (s : State) (c va : Nat) (d : Bytes) : State :=
  let (t, _) := s.ctxStore c va d
  if t.pool.needs = s.pool.needs then t else s

/-! Running a command -/

/-- R342: the states of a context. -/
def ctxDisabled : Nat := 0
def ctxEnabled : Nat := 1
def ctxSuspending : Nat := 2
def ctxSuspended : Nat := 3
def ctxFaulted : Nat := 4

def State.ctxState (s : State) (c : Nat) : Nat := s.f F.CTX_STAT_STATE c

/-- True when a line that a command asked for has come, or has come back with a code. -/
def State.haveLine (s : State) (n : Nat × Nat × Bool) : Bool :=
  (match s.cacheLine n.1 n.2.1 with | some x => !n.2.2 || x.owned | none => false) ||
    s.pool.failed.any fun x => x.1 == n.1 && x.2.1 == n.2.1

/-- A command that may need lines of cask space: when the pool cache lacks some, nothing of it takes effect but the
requests for them, and it runs once they have come. -/
def State.withLines : Nat → State → Nat → (State → State) → State
  | 0, s, _, _ => s
  | fuel + 1, s, tenant, f =>
    let t := f s
    if t.pool.needs = [] then t
    else
      let u := s.askFor tenant t.pool.needs
      if t.pool.needs.all u.haveLine then State.withLines fuel u tenant f else u

/-! Waking a domain (R498 to R502) -/

def State.dom (s : State) (d : Nat) : DomSt := SMap.get default s.pwr.doms d

def State.setDom (s : State) (d : Nat) (f : DomSt → DomSt) : State :=
  s.setPwr fun p => { p with doms := SMap.put default p.doms d (f (SMap.get default p.doms d)) }

def State.depth (s : State) (d : Nat) : Nat := s.f F.CLK_DOM_STATE d

/-- R500: the domains whose wake a wake asks for: the base die of a stack brings its PHY, ahead of it. -/
def State.wakeSet (s : State) (d : Nat) : List Nat :=
  if 14 ≤ d ∧ d < 22 ∧ s.depth d = 2 then [d - 8, d] else [d]

/-- R501, R502: work for a domain: a gated one starts to wake, a stopped one joins the queue of wakes, one that runs is no longer
idle. -/
def State.askWake (s : State) (d : Nat) : State :=
  let now := s.now
  if s.depth d = 0 then s.setDom d fun x => { x with idleAt := now, times := none }
  else if (s.dom d).wakeReq.isSome then s
  else
    let s := s.setDom d fun x => { x with wakeReq := some now }
    if s.depth d = 1 then s.setF F.CLK_DOM_WAKING d 1
    else s.setPwr fun p => { p with wakeQ := p.wakeQ ++ [d] }

/-- R501: work has come for a domain and for the domains that must wake before it. -/
def State.wakeFor (s : State) (d : Nat) : State := (s.wakeSet d).foldl State.askWake s

/-- R498: the domain of the quarter in which the ingress tile of a partition lies. -/
def State.partDom (s : State) (n : Nat) : Option Nat :=
  match (s.part n).img with
  | some g => (g.tiles.find? fun t => t.pers == 1).map fun t => 2 + t.tile / 16
  | none => none

/-- R501: the quarter of a partition's ingress tile is in RUN. -/
def State.partAwake (s : State) (n : Nat) : Bool :=
  match s.partDom n with
  | some d => s.depth d == 0
  | none => true

/-! The turns of a tile's command queue (R349) -/

/-- R320: the depth of the command queue through which the requests of a partition pass: that of its ingress tile (16 without
one; log entry 300). -/
def State.queueDepth (s : State) (n : Nat) : Nat :=
  match (s.part n).img with
  | some g => match g.tiles.find? fun t => t.pers == 1 with
    | some t => 2 ^ t.qdepth
    | none => 16
  | none => 16

/-- The requests of a partition's ENABLED contexts whose first operation has not begun, in the order in which they were taken:
context and slot. -/
def State.opsWaiting (s : State) (n : Nat) : List (Nat × Nat) :=
  let l := (s.ctxs.filter fun (c, _) => s.partOf c == n && s.f F.CTX_STAT_STATE c == 1).flatMap fun (c, x) =>
    (x.reqs.filter fun r => r.work == .fresh && !r.begun).map fun r => (r.takenAt, c, r.slot)
  (sortBy (fun a b => decide (a.1 < b.1)) l).map (·.2)

/-- R349: the operations in the queue: no context holds more than a quarter of the entries while another one waits. -/
def State.tileQueue (s : State) (n : Nat) : List (Nat × Nat) :=
  let w := s.opsWaiting n
  let depth := s.queueDepth n
  w.foldl (fun l x =>
    if decide (l.length < depth) && (w.all (·.1 == x.1) || decide ((l.filter (·.1 == x.1)).length < depth / 4)) then l ++ [x] else l) []

/-- The number that follows another in a round of numbers: the least above it, or the least of all. -/
def turnAfter (l : List Nat) (k : Nat) : Option Nat :=
  let m := sortBy (fun a b => decide (a < b)) l
  (m.find? fun x => decide (k < x)).or m.head?

/-- R349: whose operation starts next: tenant, operations left to it in this round, context. -/
def State.turnOf (s : State) (n : Nat) : Option (Nat × Nat × Nat) :=
  let l := (s.tileQueue n).map (·.1)
  let p := s.part n
  let ts := l.map s.tenant
  let t := if ts.contains p.turnTenant && decide (0 < p.turnLeft) then some (p.turnTenant, p.turnLeft)
    else (turnAfter ts p.turnTenant).map fun t => (t, max 1 (s.f F.CTX_TENANT_WEIGHT t))
  t.bind fun (t, left) => (turnAfter (l.filter fun c => s.tenant c == t) (SMap.get 4096 p.turnLast t)).map fun c => (t, left, c)

/-- R349: the first operation of a request may start now: it is in the queue, and its context has the turn. -/
def State.hasTurn (s : State) (c q : Nat) : Bool :=
  (match s.turnOf (s.partOf c) with
  | some (_, _, x) => x == c
  | none => false) && (s.tileQueue (s.partOf c)).contains (c, q)

/-- R233, R248: the table or namespace that a descriptor names is enabled (no other command names one). -/
def State.objOn (s : State) (d : Bytes) : Bool :=
  let k := leAt d 34 2
  if 0x20 ≤ descOp d ∧ descOp d ≤ 0x23 then bit (s.reg .tileEmbEn (k / 64)) (k % 64)
  else bit (s.reg .cellarNsEn (k / 64)) (k % 64)

/-- R213: where the descriptor of an embedding table lies. -/
def State.tabAddr (s : State) (t : Nat) : Nat := s.fAddr F.TILE_EMB_DESC_ADDR 0 + 64 * t

/-- A request as its partition's ingress tile accepts it (R230, R233, R235, R248): it has begun, and what counts from then on is
kept: whether its table or namespace is enabled, the version of its table, and TILE_EMB_CFG. -/
def State.accept (s : State) (c : Nat) (r : Req) : Req :=
  if r.begun then r
  else
    { r with begun := true, on := s.objOn r.desc
             pinned := if descOp r.desc = 0x20 ∧ bit (byteAt r.desc 33) 2 then
                 some (leAt r.desc 34 2, s.f F.TILE_EMB_VER_VERSION (leAt r.desc 34 2 % 1024)) else r.pinned
             snap := if 0x20 ≤ descOp r.desc ∧ descOp r.desc ≤ 0x23 then
               [s.f F.TILE_EMB_VER_VERSION (leAt r.desc 34 2 % 1024), s.reg .tileEmbCfg (s.partOf c),
                 leNat (s.peek (s.tabAddr (leAt r.desc 34 2 % 1024)) 64), (s.readCode (s.tabAddr (leAt r.desc 34 2 % 1024)) 64).num]
               else if descOp r.desc = 0x18 ∨ descOp r.desc = 0x19 then [s.reg .tileAttnCfg (s.partOf c)]
               else if 0x30 ≤ descOp r.desc ∧ descOp r.desc ≤ 0x32 then [leNat (s.peek (s.nsAddr (leAt r.desc 34 2 % 4096)) 64)] else [] }

/-- R349: a request's first operation starts: its context's turn passes on, and one operation of its tenant's round is used. -/
def State.begin (s : State) (c q : Nat) (r : Req) : State :=
  if r.begun then s
  else
    let t := match s.turnOf (s.partOf c) with
      | some (t, left, x) =>
        s.setPart (s.partOf c) fun p => { p with turnTenant := t, turnLeft := left - 1, turnLast := SMap.put 4096 p.turnLast t x }
      | none => s
    t.setReq c q fun _ => s.accept c r

/-- A request whose command has not taken effect: new, or waiting for room to begin. -/
def Work.mayRun : Work → Bool
  | .fresh | .logWait _ | .blockWait _ | .rowHeld => true
  | _ => false

/-- R343, R349, R423: a command runs when the ring slot holds a taken request with its opcode that has not taken effect, its
context is ENABLED, and the request's first operation has begun or has the turn. Where the tile's quarter sleeps, the first
operation is the work that wakes it, and waits (R501). -/
def State.runCmd (s : State) (c q op : Nat) (f : State → Req → State) : State :=
  match s.req c q with
  | some r =>
    if r.work.mayRun && descOp r.desc == op && s.ctxState c == ctxEnabled && (r.begun || s.hasTurn c q) then
      if r.begun || s.partAwake (s.partOf c) then State.withLines 64 (s.begin c q r) (s.tenant c) fun t => f t (s.accept c r)
      else s.wakeFor ((s.partDom (s.partOf c)).getD 2)
    else s
  | none => s

/-! The image of a partition (R320, R555) -/

def persIngress : Nat := 1
def persRoute : Nat := 2
def persDispatch : Nat := 3
def persMerge : Nat := 4
def persVector : Nat := 5
def persGather : Nat := 6
def persUpdate : Nat := 7
def persEgress : Nat := 8

/-- R555: the image of a partition holds a personality. -/
def State.hasPers (s : State) (n pers : Nat) : Bool :=
  match (s.part n).img with
  | some g => g.tiles.any fun t => t.pers == pers
  | none => false

/-- The tile of a partition on which work of a personality is counted: its first. -/
def State.tileOf (s : State) (n pers : Nat) : Nat :=
  match (s.part n).img with
  | some g => ((g.tiles.find? fun t => t.pers == pers).map (·.tile)).getD 0
  | none => 0

/-- R54: NaN scores and saturations counted on the tile of a personality. -/
def State.noteNum (s : State) (n pers nan sat : Nat) : State :=
  (s.addF F.TILE_NUM_STAT_NAN_COUNT (s.tileOf n pers) nan).addF F.TILE_NUM_STAT_SAT_COUNT (s.tileOf n pers) sat

end Sys2Proof.Machine
end

