-- ==== Sys2Proof/Machine/Sync.lean ====
section
/-! DEFINITION. Barrier objects and their SYNC commands (R357 to R362, R370), and the trees on which objects of composition
scope meet (R359, R395, R396). Object o of partition n is number 1,024 × n + o, as in SYNC_OBJ. -/
namespace Sys2Proof.Machine

/-! The trees of a composition (R395) -/

/-- R395: the rank that leads the group of a rank in the lowest level in which it does not lead itself. -/
def treeParent (r : Nat) : Nat :=
  if r % 16 ≠ 0 then r / 16 * 16 else if r % 256 ≠ 0 then r / 256 * 256 else 0

/-- R395: the ranks that a rank leads directly, in a composition of n ranks. -/
def treeChildren (n r : Nat) : List Nat :=
  let level (w : Nat) : List Nat := ((List.range 16).map fun k => r + k * w).filter fun x => decide (r < x ∧ x < n)
  level 1 ++ (if r % 16 = 0 then level 16 else []) |>.append (if r % 256 = 0 then level 256 else [])
    |>.filter fun x => treeParent x == r

/-- The TAG of a GLOBAL message: it matches no sub-request (log entry 60). -/
def globalTag : Nat := 0xFFFFFFFF

/-- R375: a GLOBAL message to a rank of a composition; broadcast data goes on the odd queue (R382). -/
def State.sendGlobal (s : State) (m : CompMap) (rank op num value : Nat) (data : Bytes) : State :=
  let queue := if op = 9 then s.ansQueue m.tenant else s.reqQueue m.tenant
  s.sendMsg (m.node rank) m.id m.epoch queue 5 globalTag rank 0
    (leBytes 1 op ++ zeros 3 ++ leBytes 4 num ++ leBytes 8 value ++ data)

/-- A GLOBAL message to every rank that this one leads and that is not down. -/
def State.sendChildren (s : State) (n : Nat) (m : CompMap) (op num value : Nat) (data : Bytes) : State :=
  ((treeChildren m.members.length m.rank).filter fun r => !(s.comp n).down.contains r).foldl
    (fun s r => s.sendGlobal m r op num value data) s

/-! Sub-requests (R141, R375, R377) -/

/-- A sub-request to a rank of a composition: pinned vintage or version, time left, PHASE, descriptor, operation data. -/
def State.sendSub (s : State) (m : CompMap) (rank : Nat) (owner : SubOwner) (pin left phase : Nat) (desc data : Bytes) : State :=
  let tag := s.fab.nextTag
  let q := s.reqQueue m.tenant
  let pl := leBytes 8 pin ++ leBytes 4 left ++ leBytes 1 m.tenant ++ leBytes 1 phase ++ zeros 18 ++ slice desc 0 128 ++ data
  let s := s.setFab fun x =>
    { x with nextTag := (tag + 1) % globalTag
             subs := x.subs ++ [⟨tag, m.node rank, m.id, m.epoch, rank, q, false, s.subDue, owner, pl, none⟩] }
  s.sendMsg (m.node rank) m.id m.epoch q 1 tag rank 0 pl

/-- R375, R382: the answer to a sub-request. -/
def State.sendReply (s : State) (node queue tag comp epoch : Nat) (k : Code) (data : Bytes) : State :=
  s.sendMsg node comp epoch queue 2 tag 0xFFFF 0 (leBytes 1 k.num ++ zeros 63 ++ data)

/-- A descriptor that carries nothing but an opcode, an index and a pin handle: the UNPIN that another node gets. -/
def unpinDesc (i h : Nat) : Bytes := zeros 32 ++ leBytes 1 5 ++ zeros 1 ++ leBytes 2 i ++ leBytes 2 h ++ zeros 90

/-- R80: the pin of a global index under a handle is released on the other nodes of its composition. -/
def State.unpinPeers (s : State) (i h : Nat) : State :=
  if !s.on F.VINT_IDX_CFG_SCOPE i then s
  else match s.slotOfObject 0 i with
    | some (n, m, _) =>
      ((List.range m.members.length).filter fun r => r != m.rank && !(s.comp n).down.contains r).foldl
        (fun s r => s.sendSub m r .quiet 0 0 0 (unpinDesc i h) (leBytes 2 h)) s
    | none => s

def opArrive : Nat := 1
def opRelease : Nat := 2
def opCloseTrigger : Nat := 3
def opPrepare : Nat := 4
def opPrepared : Nat := 5
def opCommit : Nat := 6
def opReset : Nat := 7
def opResetDone : Nat := 8
def opBcastData : Nat := 9
def opBcastDone : Nat := 10

/-! Objects -/

def syncUnarmed : Nat := 0
def syncArmed : Nat := 1
def syncAbandoned : Nat := 2

/-- R325: the record of an object in its partition's image. -/
def State.barrier (s : State) (i : Nat) : Option Barrier :=
  match (s.part (i / 1024)).img with
  | some g => g.barriers.find? fun b => b.object == i % 1024
  | none => none

/-- R359: the number of the current episode; the first is 1 (log entry 40). -/
def State.episode (s : State) (i : Nat) : Nat := SMap.get 1 s.episodes i

def State.setEpisode (s : State) (i e : Nat) : State := { s with episodes := SMap.put 1 s.episodes i e }

/-- R357: PRODUCED − CONSUMED. -/
def State.syncDiff (s : State) (i : Nat) : Nat := s.f F.SYNC_CNT_PRODUCED i - s.f F.SYNC_CNT_CONSUMED i

/-- The requests that wait on an object, in arrival order: arrival number, context, slot, what they wait for. -/
def State.waiters (s : State) (i : Nat) : List (Nat × Nat × Nat × SyncKind) :=
  sortBy (fun a b => decide (a.1 < b.1)) <| s.ctxs.flatMap fun (c, x) => x.reqs.filterMap fun r =>
    match r.work with
    | .sync o k n _ => if o = i then some (n, c, r.slot, k) else none
    | _ => none

/-- R357, R424: a SYNC command ends well: its report, then its completion with arrivals and episode. -/
def State.endSync (s : State) (i c q arrivals ep : Nat) : State :=
  match s.req c q with
  | none => s
  | some r =>
    let report := opN r.desc 24 8
    if report = 0 then s.finish c q (Compl.success false false false arrivals ep)
    else
      let (s, code) := s.ctxStore c report (leBytes 8 ep ++ leBytes 4 arrivals ++ leBytes 4 (s.syncDiff i))
      s.finish c q (Compl.of code arrivals ep)

/-- R361: takes are served in arrival order while the counters allow. -/
def State.serveTakes (s : State) (i : Nat) : List (Nat × Nat × Nat × SyncKind) → State
  | [] => s
  | (_, c, q, .take n) :: rest =>
    if n ≤ s.syncDiff i then
      State.serveTakes ((s.setF F.SYNC_CNT_CONSUMED i (s.f F.SYNC_CNT_CONSUMED i + n)).endSync i c q
        (s.f F.SYNC_OBJ_ARRIVED i) (s.episode i)) i rest
    else s
  | _ :: rest => State.serveTakes s i rest

/-- R359, R361: an episode completes: its waiters are released, the count returns to 0, the counters realign. -/
def State.completeEpisode (s : State) (i : Nat) : State :=
  let ep := s.episode i
  let n := s.f F.SYNC_OBJ_COUNT i
  let waits := (s.waiters i).filter fun w => w.2.2.2 == .arrive ep || w.2.2.2 == .wait ep
  let s := (s.setF F.SYNC_OBJ_ARRIVED i 0).setFs i [(F.SYNC_CNT_PRODUCED, s.syncDiff i), (F.SYNC_CNT_CONSUMED, 0)]
  let s := (s.setEpisode i (ep + 1)).addF F.SYNC_STAT_EPISODES (i / 1024) 1
  waits.foldl (fun s (_, c, q, _) => s.endSync i c q n ep) s

/-- R359: the composition in which an object of composition scope is counted: that of its owner; none for others. -/
def State.syncComp (s : State) (i : Nat) : Option (Nat × CompMap) :=
  match s.barrier i with
  | some b => if b.scope = 2 then s.ctxComp (s.f F.SYNC_OBJ_OWNER i) else none
  | none => none

/-- R359: the episode completes at this node and, for composition scope, is released down the tree. -/
def State.releaseEpisode (s : State) (i : Nat) : State :=
  let s := match s.syncComp i with
    | some (n, m) => s.sendChildren n m opRelease i (s.episode i) []
    | none => s
  s.completeEpisode i

/-- R359: an arrival is counted at the object's home; below the root it goes up the tree. -/
def State.countArrival (s : State) (i : Nat) : State :=
  let a := s.f F.SYNC_OBJ_ARRIVED i + 1
  let s := s.setF F.SYNC_OBJ_ARRIVED i a
  match s.syncComp i with
  | some (_, m) =>
    if m.rank ≠ 0 then s.sendGlobal m (treeParent m.rank) opArrive i (s.episode i) []
    else if a = s.f F.SYNC_OBJ_COUNT i then s.releaseEpisode i else s
  | none => if a = s.f F.SYNC_OBJ_COUNT i then s.releaseEpisode i else s

/-- Every waiter of an object ends with a code. -/
def State.dropWaiters (s : State) (i : Nat) (k : Code) : State :=
  (s.waiters i).foldl (fun s (_, c, q, _) => s.finishCode c q k) s

/-- R362: an object whose owner is reset. -/
def State.abandon (s : State) (i : Nat) : State :=
  let n := (s.waiters i).length
  ((s.setF F.SYNC_OBJ_STATE i syncAbandoned).dropWaiters i .ownerLost).addF F.SYNC_STAT_LOST (i / 1024) n

/-- The armed objects: unlisted registers are at their reset value, and so unarmed. -/
def State.armedObjects (s : State) : List Nat :=
  let base := Reg.syncObj.addr 0
  (s.regs.filterMap fun (a, _) => if base ≤ a ∧ a < base + 8 * 8192 then some ((a - base) / 8) else none).filter
    fun i => s.f F.SYNC_OBJ_STATE i == syncArmed

/-- R362: every object that a context owns is abandoned. -/
def State.abandonOwned (s : State) (c : Nat) : State :=
  (s.armedObjects.filter fun i => s.f F.SYNC_OBJ_OWNER i == c).foldl State.abandon s

/-- R331, R438: a reset of every owner in a partition. -/
def State.abandonPart (s : State) (n : Nat) : State := (s.armedObjects.filter fun i => i / 1024 == n).foldl State.abandon s

/-- R397: a reset of the owner of every object of composition scope of a slot. -/
def State.abandonComp (s : State) (n : Nat) : State :=
  (s.armedObjects.filter fun i => match s.syncComp i with | some (k, _) => k == n | none => false).foldl State.abandon s

/-! Commands -/

/-- R15, R357: the fields of a SYNC command that must hold for its opcode. -/
def syncFieldsOk (d : Bytes) (op : Nat) : Bool :=
  decide (byteAt d 33 < 2 ∧ opN d 2 2 < 1024) && opZero d 19 5 && opZero d 32 64 && decide (opN d 24 8 < 2 ^ 52) &&
    (if op = 0x50 then true else if op = 0x54 ∨ op = 0x55 then decide (opN d 4 4 ≤ 2 ^ 31) else opZero d 4 4) &&
    (op == 0x52 || opZero d 8 8)

/-- R358, R362, R386: what ends a command on an object before it acts. -/
def State.syncCheck (s : State) (c i : Nat) : Option Code :=
  let st := s.f F.SYNC_OBJ_STATE i
  if st = syncUnarmed then some .invalidArg
  else if s.f F.SYNC_OBJ_TENANT i ≠ s.tenant c then some .denied
  else if st = syncAbandoned then some .ownerLost
  else none

/-- R386, R389, R395: what ends a command that needs the tree of a composition-scope object. -/
def State.syncTreeCheck (s : State) (c i : Nat) : Option Code :=
  match s.barrier i with
  | some b =>
    if b.scope ≠ 2 then none
    else match s.ctxComp c with
      | none => some .denied
      | some (n, m) =>
        if (s.comp n).removing then some .routeStale
        else if (s.comp n).down.contains 0 || (s.comp n).down.contains (treeParent m.rank) then some .fenced
        else none
  | none => none

/-- A SYNC command on its object: checks, then its own effect on object number, episode and descriptor. -/
def syncRun (op : Nat) (f : State → Nat → Nat → Nat → Req → State) (c q : Nat) (s : State) : State :=
  s.runCmd c q op fun s r =>
    let i := 1024 * s.partOf c + opN r.desc 2 2 % 1024
    let code := (if syncFieldsOk r.desc op then Code.ok else .invalidArg).worst ((s.syncCheck c i).getD .ok)
    if code.bad then s.finishCode c q code else f s i c q r

/-- A request waits on an object. -/
def State.syncWait (s : State) (i c q : Nat) (k : SyncKind) : State :=
  let s := s.setWork c q (.sync i k s.arrivals s.now)
  { s with arrivals := s.arrivals + 1 }

/-- R358, R362: an object armed for n arrivals by a context; an abandoned one goes on with the next episode. -/
def State.armSync (s : State) (i c n : Nat) : State :=
  let left := decide (s.f F.SYNC_OBJ_STATE i = syncAbandoned)
  let s := (s.setFs i [(F.SYNC_OBJ_STATE, syncArmed), (F.SYNC_OBJ_COUNT, n), (F.SYNC_OBJ_ARRIVED, 0),
    (F.SYNC_OBJ_OWNER, c), (F.SYNC_OBJ_TENANT, s.tenant c)]).setFs i [(F.SYNC_CNT_PRODUCED, 0), (F.SYNC_CNT_CONSUMED, 0)]
  if left then s.setEpisode i (s.episode i + 1) else s

/-- SYNC_ARM: R358, R362. -/
def execSyncArm (c : BitVec 12) (q : BitVec 16) (s : State) : Host.Outcome State Fault Refusal :=
  gated s fun s => s.runCmd c.toNat q.toNat 0x50 fun s r =>
    let c := c.toNat
    let q := q.toNat
    let i := 1024 * s.partOf c + opN r.desc 2 2 % 1024
    let n := opN r.desc 4 4
    let st := s.f F.SYNC_OBJ_STATE i
    let most := match s.barrier i with | some b => b.count | none => 0
    let args : Code := if !syncFieldsOk r.desc 0x50 || n == 0 || decide (most < n) || st == syncArmed then .invalidArg else .ok
    let own : Code := if st ≠ syncUnarmed ∧ s.f F.SYNC_OBJ_TENANT i ≠ s.tenant c then .denied else .ok
    let code := (args.worst own).worst ((s.syncTreeCheck c i).getD .ok)
    if code.bad then s.finishCode c q code
    else
      let s := s.armSync i c n
      s.endSync i c q 0 (s.episode i)

/-- R141, R386: a request that meets on the tree of a composition is pinned to the composition's epoch. -/
def State.bindSync (s : State) (i c q : Nat) : State :=
  match s.syncComp i with
  | some (n, m) => s.setReq c q fun r => { r with comp := some n, epoch := m.epoch }
  | none => s

/-- R359: an arrival of a context. -/
def syncArrive (s : State) (i c q : Nat) (r : Req) : State :=
  match s.syncTreeCheck c i with
  | some code => s.finishCode c q code
  | none =>
    let ep := s.episode i
    let s := s.bindSync i c q
    let s := if bit (byteAt r.desc 33) 0 then s.syncWait i c q (.arrive ep)
      else s.endSync i c q (s.f F.SYNC_OBJ_ARRIVED i + 1) ep
    s.countArrival i

/-- SYNC_ARRIVE: R359. -/
def execSyncArrive (c : BitVec 12) (q : BitVec 16) (s : State) : Host.Outcome State Fault Refusal :=
  gated s (syncRun 0x51 syncArrive c.toNat q.toNat)

/-- SYNC_WAIT: R359. -/
def execSyncWait (c : BitVec 12) (q : BitVec 16) (s : State) : Host.Outcome State Fault Refusal :=
  gated s (syncRun 0x52 (fun s i c q r =>
    let asked := opN r.desc 8 8
    let ep := if asked = 0 then s.episode i else asked
    if ep < s.episode i then s.endSync i c q (s.f F.SYNC_OBJ_COUNT i) ep
    else match s.syncTreeCheck c i with
      | some code => s.finishCode c q code
      | none => (s.bindSync i c q).syncWait i c q (.wait ep)) c.toNat q.toNat)

/-- SYNC_DISARM: R358, R362. -/
def execSyncDisarm (c : BitVec 12) (q : BitVec 16) (s : State) : Host.Outcome State Fault Refusal :=
  gated s (syncRun 0x53 (fun s i c q _ =>
    if s.f F.SYNC_OBJ_OWNER i ≠ c then s.finishCode c q .denied
    else
      let arrived := s.f F.SYNC_OBJ_ARRIVED i
      ((s.dropWaiters i .aborted).setF F.SYNC_OBJ_STATE i syncUnarmed).endSync i c q arrived (s.episode i)) c.toNat q.toNat)

/-- SYNC_POST: R361. -/
def execSyncPost (c : BitVec 12) (q : BitVec 16) (s : State) : Host.Outcome State Fault Refusal :=
  gated s (syncRun 0x54 (fun s i c q r =>
    let p := s.f F.SYNC_CNT_PRODUCED i + opN r.desc 4 4
    if 2 ^ 32 ≤ p then s.finishCode c q .quota
    else
      let s := (s.setF F.SYNC_CNT_PRODUCED i p).endSync i c q (s.f F.SYNC_OBJ_ARRIVED i) (s.episode i)
      s.serveTakes i (s.waiters i)) c.toNat q.toNat)

/-- SYNC_TAKE: R361; an amount of 0 takes nothing and waits for nothing (R32, R358). -/
def execSyncTake (c : BitVec 12) (q : BitVec 16) (s : State) : Host.Outcome State Fault Refusal :=
  gated s (syncRun 0x55 (fun s i c q r =>
    let n := opN r.desc 4 4
    if n = 0 then s.endSync i c q (s.f F.SYNC_OBJ_ARRIVED i) (s.episode i)
    else
      let s := s.syncWait i c q (.take n)
      s.serveTakes i (s.waiters i)) c.toNat q.toNat)

/-- SYNC_TIMEOUT: R359: the TIMEOUT_US of a waiter passes; its arrival still counts. -/
def execSyncTimeout (c : BitVec 12) (q : BitVec 16) (s : State) : Host.Outcome State Fault Refusal :=
  gated s fun s =>
    match s.req c.toNat q.toNat with
    | some r =>
      match r.work with
      | .sync i k _ since =>
        let t := opN r.desc 16 3
        if t = 0 ∨ !s.due since t then s
        else
          let s := (s.finishCode c.toNat q.toNat .timeout).addF F.SYNC_STAT_TIMEOUTS (i / 1024) 1
          match k with
          | .take _ => State.withLines 64 s (s.tenant c.toNat) fun s => s.serveTakes i (s.waiters i)
          | _ => s
      | _ => s
    | none => s

end Sys2Proof.Machine
end

