-- ==== Sys2Proof/Machine/Contexts.lean ====
section
/-! DEFINITION. Contexts and their queue pairs (R341 to R345, R422, R424), pre-emption (R350 to R352), aborts and teardown
(R348, R353 to R355, R362), request timeouts (R422) and the measured slowdown (R356). -/
namespace Sys2Proof.Machine

/-! Rings -/

/-- R343: the depths of the two rings. -/
def State.sqDepth (s : State) (c : Nat) : Nat := 2 ^ s.f F.CTX_CFG_SQ_LOG2 c
def State.cqDepth (s : State) (c : Nat) : Nat := 2 ^ s.f F.CTX_CFG_CQ_LOG2 c

/-- R343: taken requests of a context that are not completed. -/
def State.taken (s : State) (c : Nat) : Nat := ((s.ctx c).reqs.filter fun r => !r.flushed).length

/-- R368: CTX_STAT.TAKEN. -/
def State.setTaken (s : State) (c : Nat) : State := s.setF F.CTX_STAT_TAKEN c (s.taken c)

/-- Both rings empty: R341, R354. -/
def State.emptyRings (s : State) (c : Nat) : State :=
  (s.setFs c [(F.CTX_STAT_SQ_HEAD, 0), (F.CTX_STAT_CQ_TAIL, 0)]).setCtx c fun x =>
    { x with sqTail := 0, cqHead := 0, cqUsed := 0, phase := true }

/-- R336: the states of a partition. -/
def trlEmpty : Nat := 0
def trlVerify : Nat := 1
def trlDrain : Nat := 2
def trlProgram : Nat := 3
def trlRunning : Nat := 4

def State.trlState (s : State) (n : Nat) : Nat := s.f F.TRL_STAT_STATE n

/-- R441: the domain of a partition is fenced. -/
def State.partFenced (s : State) (n : Nat) : Bool :=
  s.flt.resets.any fun r => match r.dom with
    | .part p => p.toNat == n
    | .chip => true
    | .engine _ => false

/-- R441: an engine is under a reset: a tile, or 64 + s for the press block of STs. -/
def State.engineFenced (s : State) (e : Nat) : Bool :=
  s.flt.resets.any fun r => match r.dom with
    | .engine t => t.toNat == e
    | _ => false

/-- R441: a partition takes no request for some personalities: it is fenced, or every tile of one of them is under a reset. -/
def State.fencedFor (s : State) (n : Nat) (pers : List Nat) : Bool :=
  s.partFenced n || match (s.part n).img with
    | some g => s.flt.resets != [] && pers.any fun p =>
        let ts := g.tiles.filter fun t => t.pers == p
        ts != [] && ts.all fun t => s.engineFenced t.tile
    | none => false

/-- R441: a press unit whose reset has taken effect and not ended grants no window. -/
def State.pressHalted (s : State) (u : Nat) : Bool :=
  s.flt.resets.any fun r => !r.draining && match r.dom with
    | .engine t => t.toNat == 64 + u / 64
    | .part p => bits (s.reg .trlPressOwn (u / 16)) (4 * (u % 16) + 3) (4 * (u % 16)) == 8 + p.toNat
    | .chip => true

/-- R441, R442: the press unit of a pass is under a reset of its stack's press block. -/
def State.pressFenced (s : State) (u : Nat) : Bool := s.engineFenced (64 + u / 64)

/-- R441: the whole chip is fenced. -/
def State.chipFenced (s : State) : Bool := s.flt.resets.any fun r => r.dom == .chip

/-! Ending requests -/

/-- A program of a request that has ended is the node's own. -/
def Purpose.forget (c q : Nat) : Purpose → Purpose
  | .host a b => if a = c ∧ b = q then .own else .host a b
  | p => p

def ProgOp.forget (c q : Nat) (p : ProgOp) : ProgOp :=
  { p with frames := p.frames.map fun (i, f, w) => (i, f, w.forget c q) }

def LunSt.forget (c q : Nat) (l : LunSt) : LunSt :=
  { l with progs := l.progs.map (·.forget c q),
           op := match l.op with | .program p => .program (p.forget c q) | o => o }

/-- The reads of a request dropped, and its programs made the node's own. -/
def CellarSt.forget (x : CellarSt) (c q : Nat) (jobs : List Nat) : CellarSt :=
  { x with reads := x.reads.filter fun r => match r.owner with
             | .cmd a b _ => !(a == c && b == q)
             | .rerank j _ _ _ => !jobs.contains j
             | .reloc => true
           waiting := x.waiting.map fun (st, f, w) => (st, f, w.forget c q)
           luns := x.luns.map fun (k, l) => (k, l.forget c q) }

/-- What the pool does for a request goes on without it. -/
def PoolSt.forget (x : PoolSt) (c q : Nat) : PoolSt :=
  let drop (o : Option (Nat × Nat)) : Option (Nat × Nat) := if o = some (c, q) then none else o
  { x with fetches := x.fetches.map fun f => { f with owner := drop f.owner }
           pageJobs := x.pageJobs.map fun f => { f with owner := drop f.owner }
           withdraws := x.withdraws.map fun f => { f with owner := drop f.owner }
           reclaims := x.reclaims.filter fun f => !(f.ctx == c && f.req == q) }

/-- Everything that waits in the node for a request forgets it. -/
def State.detach (s : State) (c q : Nat) : State :=
  let jobs := (s.jobs.filter fun (_, j) => match j.owner with | .ctx a b => a == c && b == q | _ => false).map (·.1)
  let s := (s.setCel fun x => x.forget c q jobs).setPool fun x => x.forget c q
  let s := jobs.foldl State.dropJob s
  s.setFab fun x =>
    { x with subs := x.subs.filter fun o => match o.owner with
               | .job i _ | .handoff i => !jobs.contains i
               | .gather a b _ | .scatter a b | .cask a b | .pin a b => !(a == c && b == q)
               | .quiet | .prefetch _ _ _ => true }

/-- R348, R422, R470: an update past step 3 of R71 and a SEARCH_DELETE that has handed off its batch complete normally. -/
def State.keeps (s : State) (r : Req) : Bool :=
  match r.work with
  | .stamped _ _ _ => true
  | .job id => match s.job id with | some j => j.phase == .handoff && decide (0 < j.accepted) | none => false
  | _ => false

/-- R181: the results of a search or selection that a code ends and that are not yet written: STATUS, and zeros. A command that its
checks refuse has no effect (R15). -/
def State.failResults (s : State) (c : Nat) (r : Req) (k : Code) : State :=
  let op := descOp r.desc
  let due := match r.work with
    | .grouped _ => true
    | .fresh => k != .invalidArg && k != .denied
    | .job id => match s.job id with | some j => j.phase != .handoff | none => false
    | _ => false
  if !due then s
  else if op = 0x14 then (if opN r.desc 32 8 % 64 = 0 then s.tryStore c (opN r.desc 32 8) (leBytes 1 k.num ++ zeros 63) else s)
  else if op < 0x10 ∨ 0x12 < op ∨ 1024 < opN r.desc 4 2 ∨ 2 ^ 20 < opN r.desc 8 4 ∨ opN r.desc 40 8 % 64 ≠ 0 then s
  else
    let stride := ceilDiv (64 + 16 * (opN r.desc 8 4 % 2 ^ 21)) 64 * 64 + 64
    (List.range (opN r.desc 4 2)).foldl (fun s n => s.tryStore c (opN r.desc 40 8 + n * stride) (leBytes 1 k.num ++ zeros 63)) s

/-- A request ends early with a code. -/
def State.endReq (s : State) (c q : Nat) (k : Code) : State :=
  let s := match s.req c q with
    | some r => s.failResults c r k
    | none => s
  (s.detach c q).finishCode c q k

/-- A job and everything that waits for it dropped. -/
def State.killJob (s : State) (id : Nat) : State :=
  let s := s.setCel fun x => { x with reads := x.reads.filter fun r => match r.owner with | .rerank i _ _ _ => i != id | _ => true }
  (s.setFab fun x => { x with subs := x.subs.filter fun o => match o.owner with
    | .job i _ | .handoff i => i != id
    | _ => true }).dropJob id

/-- A job ends with a code. -/
def State.failJob (s : State) (id : Nat) (k : Code) : State :=
  match s.job id with
  | none => s
  | some j => match j.owner with
    | .ctx c q => s.endReq c q k
    | .peer node queue tag comp epoch _ => (s.killJob id).sendReply node queue tag comp epoch k []

/-- R348: every taken request stops with a code, but for those that complete normally. -/
def State.endReqs (s : State) (c : Nat) (k : Code) : State :=
  ((s.openReqs c).filter fun r => !s.keeps r).foldl (fun s r => s.endReq c r.slot k) s

/-- A request as it stands when its descriptor is taken. -/
def newReq (slot : Nat) (desc : Bytes) (now : Nat) (work : Work) (flushed : Bool) : Req :=
  ⟨slot, desc, now, work, none, 0, none, 0, false, flushed, none, 0, [], false, false, []⟩

/-- R348: the descriptors between the head and the tail last written complete with ABORTED without running. -/
def State.flushRing : Nat → State → Nat → State
  | 0, s, _ => s
  | fuel + 1, s, c =>
    let head := s.f F.CTX_STAT_SQ_HEAD c
    if head = (s.ctx c).sqTail then s
    else
      let (s, d, _) := s.load (s.fAddr F.CTX_SQ_ADDR c + 128 * head) 128
      let s := s.setCtx c fun x =>
        { x with reqs := x.reqs ++ [newReq head d s.now (.finished (Compl.code .aborted)) true] }
      State.flushRing fuel (s.setF F.CTX_STAT_SQ_HEAD c ((head + 1) % s.sqDepth c)) c

/-- R348: ABORT. -/
def State.abortCtx (s : State) (c : Nat) : State :=
  let s := (s.endReqs c .aborted).flushRing (s.sqDepth c) c
  let s := if s.ctxState c = ctxSuspended then s.setCtx c fun x => { x with release := true } else s
  s.setTaken c

/-- R354: the reset of a FAULTED context; it waits until the completions of its requests are written. -/
def State.resetDue (s : State) (c : Nat) : State :=
  if s.on F.CTX_CTL_RESET c ∧ (s.ctx c).reqs = [] ∧ s.ctxState c = ctxFaulted then
    ((s.emptyRings c).setF F.CTX_STAT_STATE c ctxEnabled).setF F.CTX_CTL_RESET c 0
  else s

/-- R342, R348: DISABLED is reached once a closing context has no request left. -/
def State.ctxIdle (s : State) (c : Nat) : State :=
  let s := s.setTaken c
  if (s.ctx c).closing ∧ (s.ctx c).reqs = [] then
    ((s.setF F.CTX_STAT_STATE c ctxDisabled).setF F.CTX_CTL_RESET c 0).setCtx c fun x => { x with closing := false, release := false }
  else s.resetDue c

/-! Teardown -/

/-- R353: the causes of a context fault. -/
def causeDoorbell : Nat := 1
def causeRing : Nat := 2
def causeStage : Nat := 3
def causeSave : Nat := 4
def causeWatchdog : Nat := 5

/-- R433: the class of a context fault. -/
def causeClass (cause : Nat) : Nat := if cause = causeStage then 3 else if cause = causeWatchdog then 5 else 4

/-! Where the requests of a context sit (R446) -/

/-- The partition in which a request runs: that of its index or job, else that of its context. -/
def State.reqPart (s : State) (c : Nat) (r : Req) : Nat :=
  match r.work with
  | .job id => match s.job id with | some j => j.part | none => s.partOf c
  | .grouped _ => match r.index with | some i => s.f F.VINT_IDX_CFG_PARTITION i | none => s.partOf c
  | .logWait _ | .blockWait _ =>
    if 1 ≤ descOp r.desc ∧ descOp r.desc ≤ 3 then s.f F.VINT_IDX_CFG_PARTITION (opN r.desc 2 2 % 4096) else s.partOf c
  | _ => s.partOf c

/-- The personalities on which a search job sits. -/
def JobPhase.pers : JobPhase → List Nat
  | .scan => [persRoute, persDispatch, persMerge]
  | .park => [persMerge]
  | .rerank => [persVector, persMerge]
  | .write => [persMerge, persEgress]
  | .handoff => [persUpdate]

/-- The personalities on which a request sits. -/
def State.reqPers (s : State) (r : Req) : List Nat :=
  match r.work with
  | .fresh => [persIngress]
  | .grouped _ => [persDispatch]
  | .logWait _ | .blockWait _ => [persUpdate]
  | .job id => match s.job id with | some j => j.phase.pers | none => []
  | .remote _ _ | .rowHeld => [persGather]
  | _ => []

/-- The engines that still hold operations of a context. -/
def State.enginesOf (s : State) (c : Nat) : List Nat :=
  dedupNat ((s.openReqs c).flatMap fun r => (s.reqPers r).map fun p => s.tileOf (s.reqPart c r) p)

/-- R22, R446: a reset that runs and covers a fault of a context: of the chip, of its partition, or of an engine that holds its
operations. -/
def State.coverOf (s : State) (c : Nat) : Option ResetRun :=
  s.flt.resets.find? fun r => match r.dom with
    | .chip => true
    | .part p => p.toNat == s.partOf c
    | .engine e => (s.enginesOf c).contains e.toNat

/-- R80: the pins of a context released, those of a global index on every node. -/
def State.releasePins (s : State) (c : Nat) : State :=
  let keep (p : Pin) : Bool := p.ckpt || p.home.isSome || p.ctx != c
  let gone := s.idxs.flatMap fun (i, x) => (x.pins.filter fun p => !keep p).map fun p => (i, p.handle)
  let s : State := { s with idxs := s.idxs.map fun (i, x) => (i, { x with pins := x.pins.filter keep }) }
  gone.foldl (fun s (i, h) => s.unpinPeers i h) s

/-- R350, R354: the press slots of a context cleared, and its passes ended. -/
def State.clearSlots (s : State) (c : Nat) : State :=
  (s.press.map (·.1)).foldl (fun s u => s.setPu u fun p =>
    { p with slots := p.slots.filter fun (_, z) => z.owner != some c
             passes := p.passes.filter fun t => t / 2 ^ 32 != c }) s

/-- R354: a context is torn down for a cause; `q` is the request that faulted, and `slot` and `code` are what CTX_FAULT
records. -/
def State.tearCtx (s : State) (c cause : Nat) (q : Option Nat) (slot : Nat) (code : Code) (injected : Bool) : State :=
  let s := (s.setF F.CTX_STAT_STATE c ctxFaulted).setFs c [(F.CTX_CTL_PREEMPT, 0), (F.CTX_CTL_RESUME, 0)]
  let s := match q with
    | some q => s.endReq c q code
    | none => s
  let s := ((((s.endReqs c .aborted).clearSlots c).releasePins c).abandonOwned c).setCtx c fun x =>
    { x with reqs := x.reqs.map fun r => { r with saved := false } }
  let s := if s.on F.CTX_FAULT_VALID c then s
    else s.setFs c [(F.CTX_FAULT_CAUSE, cause), (F.CTX_FAULT_STATUS, code.num), (F.CTX_FAULT_SQ_INDEX, slot),
      (F.CTX_FAULT_VALID, 1)]
  let (s, n) := s.logFault (causeClass cause) 1 1 c 0 injected
  ((s.logDone n).ctxIntr c).ctxIdle c

/-- R22, R354, R446: a fault of a context: it is torn down, or, where a running reset covers it, it becomes the CAUSE of that
reset's record and the context is left as it is. -/
def State.teardown (s : State) (c cause : Nat) (q : Option Nat) (slot : Nat) (code : Code) (injected : Bool) : State :=
  match s.coverOf c with
  | some r => s.logCause r.record (causeClass cause)
  | none => s.tearCtx c cause q slot code injected

/-! Enabling and disabling -/

/-- R341: enabled contexts of a tenant; an enabled context's registers are listed. -/
def State.enabledCtxs (s : State) (t : Nat) : List Nat :=
  let base := Reg.ctxCfg.addr 0
  (s.regs.filterMap fun (a, _) => if base ≤ a ∧ a < base + 8 * 4096 then some ((a - base) / 8) else none).filter
    fun c => s.on F.CTX_CFG_ENABLE c && s.tenant c == t

/-- R341: a range of interleaved HBM in window 1. -/
def State.plainHbm (s : State) (addr len : Nat) : Bool :=
  inHbm addr len && (pieceRange (2 ^ 30) addr len).all fun (a, _) => !s.pressMode (groupOf a)

/-- R341: true when a write that sets ENABLE takes effect; the fields are those of the write. -/
def State.mayEnable (s : State) (c : Nat) : Bool :=
  let t := s.tenant c
  let others := ((s.enabledCtxs t).filter (· != c)).length
  s.on F.CTX_TENANT_ENABLE t && decide (others < s.f F.CTX_TENANT_MAX_CONTEXTS t) &&
    s.trlState (s.partOf c) != trlEmpty && s.plainHbm (s.fAddr F.CTX_SQ_ADDR c) (128 * s.sqDepth c) &&
    s.plainHbm (s.fAddr F.CTX_CQ_ADDR c) (32 * s.cqDepth c) &&
    !(s.f F.CTX_SAVE_SIZE_MIB c != 0 && s.f F.CTX_SAVE_ADDR c == 0) && !(s.ctx c).closing

/-- R341: ENABLE takes effect as 1. -/
def State.enableCtx (s : State) (c : Nat) : State :=
  ((s.emptyRings c).setFs c [(F.CTX_STAT_STATE, ctxEnabled), (F.CTX_STAT_TAKEN, 0)]).setCtx c fun x =>
    { x with reqs := [], progress := s.now, release := false }

/-- R348: ENABLE takes effect as 0: an abort, then DISABLED. -/
def State.disableCtx (s : State) (c : Nat) : State :=
  ((s.abortCtx c).setCtx c fun x => { x with closing := true }).ctxIdle c

/-! Taking and completing -/

/-- R343, R363: requests of a tenant that are taken and not completed. -/
def State.tenantTaken (s : State) (t : Nat) : Nat :=
  ((s.ctxIds.filter fun c => s.tenant c == t).map s.taken).sum

/-- R397: new commands of a composition wait while its reset runs. -/
def State.compWaits (s : State) (c : Nat) : Bool :=
  s.on F.FAB_CTX_COMP_VALID c && (s.comp (s.f F.FAB_CTX_COMP_SLOT c)).resetting

/-- R343: a descriptor may be taken. -/
def State.mayTake (s : State) (c : Nat) : Bool :=
  let t := s.tenant c
  let limit := min 1024 (max 1 (s.f F.CTX_CFG_INFLIGHT c))
  let most := s.f F.CTX_TENANT_MAX_INFLIGHT t
  let st := s.trlState (s.partOf c)
  s.ctxState c == ctxEnabled && !(s.ctx c).closing && s.f F.CTX_STAT_SQ_HEAD c != (s.ctx c).sqTail &&
    decide (s.taken c < limit) && (most == 0 || decide (s.tenantTaken t < most)) &&
    decide ((s.ctx c).cqUsed + (s.ctx c).reqs.length < s.cqDepth c) && st != trlDrain && st != trlProgram && !s.compWaits c

/-- R423: the listed opcodes. -/
def opListed (op : Nat) : Bool :=
  [1, 2, 3, 4, 5, 0x10, 0x11, 0x12, 0x14, 0x18, 0x19, 0x20, 0x21, 0x22, 0x23, 0x30, 0x31, 0x32, 0x40, 0x41, 0x42, 0x43, 0x44,
    0x50, 0x51, 0x52, 0x53, 0x54, 0x55, 0x60].contains op

/-- R15, R422: the common header is in order. -/
def headerOk (d : Bytes) (c : Nat) : Bool :=
  leAt d 4 2 == c && decide (byteAt d 6 < 4) && byteAt d 7 == 1 && byteAt d 11 == 0 && allZero d 12 4 && allZero d 24 8 &&
    opListed (descOp d)

/-- R343: the next descriptor is taken. One that meets several conditions ends with the largest code (R30). -/
def State.takeDescriptor (s : State) (c : Nat) : State :=
  if !s.mayTake c then s
  else
    let head := s.f F.CTX_STAT_SQ_HEAD c
    let (t, d, code) := s.load (s.fAddr F.CTX_SQ_ADDR c + 128 * head) 128
    if code != .ok then t.teardown c causeRing none head code false
    else if bit (byteAt d 6) 1 && (s.ctx c).reqs != [] then s
    else
      let n := s.partOf c
      let w : Work :=
        if s.fencedFor n [persIngress] then .finished (Compl.code .reset)
        else if s.trlState n = trlEmpty then .finished (Compl.code .aborted)
        else if !headerOk d c then .finished (Compl.code .invalidArg)
        else .fresh
      let t := t.setCtx c fun x =>
        { x with reqs := x.reqs ++ [newReq head d s.now w false], progress := if x.reqs = [] then s.now else x.progress }
      (t.setF F.CTX_STAT_SQ_HEAD c ((head + 1) % s.sqDepth c)).setTaken c

/-- TAKE_DESCRIPTOR: R343. -/
def execTakeDescriptor (c : BitVec 12) (s : State) : Host.Outcome State Fault Refusal :=
  gated s fun s => s.takeDescriptor c.toNat

/-- R424: the bytes of a completion. -/
def complBytes (r : Req) (c : Nat) (phase : Bool) (k : Compl) : Bytes :=
  slice r.desc 0 4 ++ leBytes 1 k.status.num ++ leBytes 1 (b2n phase) ++ leBytes 2 k.cond ++ leBytes 2 r.slot ++ leBytes 2 c
    ++ leBytes 4 k.count ++ leBytes 8 k.value ++ slice r.desc 16 8

/-- R344: the oldest request's completion is written once it has ended; a SUSPENDED context's wait for RESUME (R470)
unless an abort released them (R355). -/
def State.writeCompletion (s : State) (c : Nat) : State :=
  match (s.ctx c).reqs with
  | [] => s
  | r :: rest =>
    match r.work with
    | .finished k =>
      if (s.ctxState c = ctxSuspended ∧ !(s.ctx c).release) ∨ s.cqDepth c ≤ (s.ctx c).cqUsed then s
      else
        let tail := s.f F.CTX_STAT_CQ_TAIL c
        let s := s.store (s.fAddr F.CTX_CQ_ADDR c + 32 * tail) (complBytes r c (s.ctx c).phase k)
        let next := (tail + 1) % s.cqDepth c
        let s := (s.setF F.CTX_STAT_CQ_TAIL c next).setCtx c fun x =>
          { x with reqs := rest, cqUsed := x.cqUsed + 1, phase := if next = 0 then !x.phase else x.phase, progress := s.now }
        let s := if bit (byteAt r.desc 6) 0 then s.ctxIntr c else s
        s.ctxIdle c
    | _ => s

/-- WRITE_COMPLETION: R344. -/
def execWriteCompletion (c : BitVec 12) (s : State) : Host.Outcome State Fault Refusal :=
  gated s fun s => s.writeCompletion c.toNat

/-- R343, R353, R366: a write of a doorbell. -/
def State.doorbell (s : State) (src : Src) (c v : Nat) : State :=
  let st := s.ctxState c
  let tail := bits v 15 0
  let head := bits v 31 16
  let setSq := bit v 32
  let setCq := bit v 33
  let depth := s.cqDepth c
  let given := (head + depth - (s.ctx c).cqHead) % depth
  if st = ctxDisabled ∨ st = ctxFaulted then s.writeErr .action src .ctxDb c
  else if (setSq ∧ s.sqDepth c ≤ tail) ∨ (setCq ∧ (depth ≤ head ∨ (s.ctx c).cqUsed < given)) then
    s.teardown c causeDoorbell none 0 .ok false
  else
    s.setCtx c fun x =>
      { x with sqTail := if setSq then tail else x.sqTail
               cqHead := if setCq then head else x.cqHead
               cqUsed := if setCq then x.cqUsed - given else x.cqUsed }

/-- R366: a write of CTX_TLB_INVAL. -/
def State.tlbInval (s : State) (v : Nat) : State :=
  { s with tlb := if bit v 12 then [] else s.tlb.filter fun t => t.ctx != bits v 11 0 }

/-! Pre-emption -/

/-- R351: bytes that the save area must hold. -/
def State.saveLen (s : State) (c : Nat) : Nat :=
  4096 + 64 * s.f F.TRL_STAT_MAX_LIVE (s.partOf c) * s.f F.TRL_STAT_TILES (s.partOf c)

/-- R350, R351, R355: PREEMPT. -/
def State.preempt (s : State) (src : Src) (c : Nat) : State :=
  if s.ctxState c ≠ ctxEnabled ∨ (s.ctx c).closing then
    (s.setF F.CTX_CTL_PREEMPT c (b2n (s.ctxState c == ctxSuspending))).writeErr .action src .ctxCtl c
  else
    let s := s.setF F.CTX_STAT_NO_SPACE c 0
    if s.f F.CTX_SAVE_SIZE_MIB c * 2 ^ 20 < s.saveLen c then
      (s.setF F.CTX_STAT_NO_SPACE c 1).setF F.CTX_CTL_PREEMPT c 0
    else s.setFs c [(F.CTX_STAT_STATE, ctxSuspending), (F.CTX_CTL_PREEMPT, 1)]

/-- R350: the live state of every running request is in the save area, and the slots of the context's passes are cleared. -/
def State.suspendDone (s : State) (c : Nat) : State :=
  if s.ctxState c ≠ ctxSuspending then s
  else
    let (s, n) := s.draw
    let s := (s.clearSlots c).store (s.fAddr F.CTX_SAVE_ADDR c) ((List.range (s.saveLen c)).map (Config.saveByte n))
    let t := s
    (s.setFs c [(F.CTX_STAT_STATE, ctxSuspended), (F.CTX_CTL_PREEMPT, 0)]).setCtx c fun x =>
      { x with release := false, reqs := x.reqs.map fun r => if r.work.ended || t.keeps r then r else { r with saved := true } }

/-- SUSPEND_DONE: R350. -/
def execSuspendDone (c : BitVec 12) (s : State) : Host.Outcome State Fault Refusal :=
  gated s fun s => s.suspendDone c.toNat

/-- R352, R353, R355: RESUME. -/
def State.resume (s : State) (src : Src) (c : Nat) : State :=
  let s := s.setF F.CTX_CTL_RESUME c 0
  if s.ctxState c ≠ ctxSuspended then s.writeErr .action src .ctxCtl c
  else
    let saved := (s.ctx c).reqs.filter (·.saved)
    let (s, _, code) := if saved = [] then (s, [], .ok) else s.load (s.fAddr F.CTX_SAVE_ADDR c) (s.saveLen c)
    if code != .ok then
      let q := (saved.map (·.slot)).head?
      s.teardown c causeSave q (q.getD 0) code false
    else
      (s.setF F.CTX_STAT_STATE c ctxEnabled).setCtx c fun x =>
        { x with release := false, progress := s.now, reqs := x.reqs.map fun r => { r with saved := false } }

/-- R354, R367: RESET leaves FAULTED and has no effect in other states. -/
def State.ctxReset (s : State) (c : Nat) : State :=
  if s.ctxState c = ctxFaulted then ((s.setF F.CTX_CTL_RESET c 1).abandonOwned c).resetDue c
  else s.setF F.CTX_CTL_RESET c 0

/-- R355, R367: a write of CTX_CTL: ABORT with PREEMPT acts as ABORT alone. -/
def State.ctxCtl (s : State) (src : Src) (c v : Nat) : State :=
  let s := if bit v 2 then (s.setF F.CTX_CTL_ABORT c 0).abortCtx c
    else s
  let s := if bit v 0 then (if bit v 2 then (if s.ctxState c = ctxSuspending then s else s.setF F.CTX_CTL_PREEMPT c 0) else s.preempt src c)
    else s
  let s := if bit v 1 then s.resume src c else s
  if bit v 3 then s.ctxReset c else s

/-! Partitions as a whole -/

/-- Contexts of a partition that hold requests or are suspended. -/
def State.partCtxs (s : State) (n : Nat) : List Nat := s.ctxIds.filter fun c => s.partOf c == n

/-- R331, R438: every running request of a partition ends with a code, suspended ones too (with a code of their own), and
suspended contexts become ENABLED. -/
def State.endPart (s : State) (n : Nat) (k ks : Code) : State :=
  (s.partCtxs n).foldl (fun s c =>
    let st := s.ctxState c
    let held := decide (st = ctxSuspended ∨ st = ctxSuspending)
    let s := s.endReqs c (if held then ks else k)
    if held then (s.setFs c [(F.CTX_STAT_STATE, ctxEnabled), (F.CTX_CTL_PREEMPT, 0)]).setCtx c fun x =>
      { x with release := false, reqs := x.reqs.map fun r => { r with saved := false } }
    else s) s

/-- R330: a request of the partition is running. -/
def State.partBusy (s : State) (n : Nat) : Bool :=
  (s.partCtxs n).any fun c => (s.openReqs c).any fun r => !s.keeps r

/-! Timers -/

/-- REQUEST_TIMEOUT: R422. -/
def execRequestTimeout (c : BitVec 12) (q : BitVec 16) (s : State) : Host.Outcome State Fault Refusal :=
  gated s fun s =>
    match s.req c.toNat q.toNat with
    | some r =>
      match r.limit with
      | some t => if t ≤ s.now && !s.keeps r then s.endReq c.toNat q.toNat .timeout else s
      | none => s
    | none => s

/-- R356: one tenant's latch. -/
def State.latchSlow (s : State) (t : Nat) : State :=
  let (a, e, n) := SMap.get (0, 0, 0) s.slow t
  s.setFs t [(F.CTX_SLOW_SLOWDOWN, if n = 0 then 0 else min 0xFFFF (256 * a / e)), (F.CTX_SLOW_REQUESTS, min n (2 ^ 32 - 1))]

/-- SLOWDOWN_LATCH: R356, R369: the end of a period; the next one takes PERIOD_MS as it stands. -/
def execSlowdownLatch (s : State) : Host.Outcome State Fault Refusal :=
  gated s fun s =>
    if s.slowPer ≠ 0 ∧ !s.due s.slowAt (1000 * s.slowPer) then s
    else
      let s := if s.slowPer = 0 then s else (List.range Config.nTenants).foldl State.latchSlow s
      { s with slow := [], slowAt := s.now, slowPer := s.f F.CTX_SLOW_CFG_PERIOD_MS 0 }

end Sys2Proof.Machine
end

