-- ==== Sys2Proof/Machine/Blocks.lean ====
section
/-! DEFINITION. List blocks as press units and the update tile see them (R57 to R65, R101, R120): the codewords of a block,
headers and entries, visibility, list descriptors, the item locator (R70), the free-block map (R104, R552), and the copy
that a RACK window makes (R83, R84, R559). -/
namespace Sys2Proof.Machine

/-! Bytes of a block of a press unit -/

/-- The codewords that bytes of a block touch. -/
def blkCws (u b off len : Nat) : List Nat :=
  if len = 0 then [] else
  (List.range ((off + len - 1) / 32 + 1 - off / 32)).map fun k => blockPhys u b 0 / 32 + off / 32 + k

/-- The worst code that a read of bytes of a block meets. -/
def State.blkCode (s : State) (u b off len : Nat) : Code :=
  if s.ecc = [] then .ok else (blkCws u b off len).foldl (fun c w => c.worst (s.syn w).read.code) .ok

/-- Bytes of a block, corrected. -/
def State.blkRead (s : State) (u b off len : Nat) : Bytes :=
  if s.ecc = [] then s.bytesP (blockPhys u b off) len
  else slice ((blkCws u b off len).flatMap s.cwData) (off % 32) len

/-- The counts of a read of bytes of a block (R119, R135). -/
def State.blkNote (s : State) (u b off len : Nat) : State :=
  if s.ecc = [] then s else (blkCws u b off len).foldl State.noteCw s

/-- A codeword that bytes of a block touch reads as given. -/
def State.blkSome (s : State) (u b off len : Nat) (x : CwRead) : Bool :=
  s.ecc != [] && (blkCws u b off len).any fun w => (s.syn w).read == x

/-- Codewords corrected in a read of bytes of a block (R112). -/
def State.blkCorrected (s : State) (u b off len : Nat) : List Nat :=
  (blkCws u b off len).filter fun w => match (s.syn w).read with | .corrected _ => true | _ => false

/-- R119, R121: bytes of a block read in a window: the counts, and the codewords that the controller will rewrite. -/
def State.winRead (s : State) (u b off len : Nat) : State :=
  if s.ecc = [] then s else
  let l := s.blkCorrected u b off len
  (s.blkNote u b off len).setPu u fun p => { p with rewrites := p.rewrites ++ l }

/-- R120: bytes written to a block: whole codewords, those written in part read and corrected first. -/
def State.blkWrite (s : State) (u b off : Nat) (d : Bytes) : State :=
  if s.ecc = [] then s.putP (blockPhys u b off) d
  else
    let s := ((blkCws u b off d.length).foldl State.repairCw s).putP (blockPhys u b off) d
    let lo := ceilDiv off 32
    (List.range ((off + d.length) / 32 - lo)).foldl (fun s k => s.setSyn (blockPhys u b 0 / 32 + lo + k) Syn.clean) s

/-- A codeword of a block written as poison. -/
def State.blkPoison (s : State) (u b cw : Nat) : State := s.setSyn (blockPhys u b 0 / 32 + cw) Syn.poison

/-! Headers and entries -/

/-- R60: a block header. -/
structure Hdr where
  format   : Nat
  size     : Nat
  index    : Nat
  list     : Nat
  base     : Nat
  next     : Nat
  used     : Nat
  dead     : Nat
  spill    : Bool
  tail     : Bool
deriving DecidableEq, Repr, Inhabited

def hdrOf (d : Bytes) : Hdr :=
  ⟨byteAt d 0, byteAt d 1 % 4, leAt d 2 2 % 4096, leAt d 4 4, leAt d 8 8, leAt d 16 3, byteAt d 20, byteAt d 21,
   bit (byteAt d 22) 0, bit (byteAt d 22) 1⟩

/-- R60: the 64 bytes of a header. -/
def Hdr.bytes (h : Hdr) : Bytes :=
  leBytes 1 h.format ++ leBytes 1 h.size ++ leBytes 2 h.index ++ leBytes 4 h.list ++ leBytes 8 h.base ++ leBytes 3 h.next ++
    zeros 1 ++ leBytes 1 h.used ++ leBytes 1 h.dead ++ leBytes 1 (b2n h.spill + 2 * b2n h.tail) ++ zeros 41

def State.hdr (s : State) (u b : Nat) : Hdr := hdrOf (s.blkRead u b 0 32)

/-- R61: code length, entry size and slots of a block by its ENTRY_SIZE. -/
def codeLen (cl : Nat) : Nat := 16 * 2 ^ cl
def entSize (cl : Nat) : Nat := codeLen cl + 24
def slotsPer (cl : Nat) : Nat := 4032 / entSize cl

/-- R125: the checks of a header against an index, a list and an entry size. -/
def Hdr.ok (h : Hdr) (index list cl : Nat) : Bool :=
  h.format == 1 && h.size == cl && decide (cl < 3) && h.index == index && h.list == list && decide (h.used ≤ slotsPer cl) &&
    (h.next == Config.noBlock || decide (h.next < Config.blocksPerUnit))

/-- R61: an entry. -/
structure Entry where
  code  : Bytes
  item  : Nat
  attr  : Nat
  birth : Nat
  death : Nat
deriving DecidableEq, Repr, Inhabited

def noDeath : Nat := 0xFFFFFFFF

def entryFrom (cl : Nat) (d : Bytes) : Entry :=
  let n := codeLen cl
  ⟨slice d 0 n, leAt d n 8, leAt d (n + 8) 8, leAt d (n + 16) 4, leAt d (n + 20) 4⟩

def Entry.bytes (e : Entry) (cl : Nat) : Bytes :=
  slice e.code 0 (codeLen cl) ++ leBytes 8 e.item ++ leBytes 8 e.attr ++ leBytes 4 e.birth ++ leBytes 4 e.death

def entOff (cl slot : Nat) : Nat := 64 + slot * entSize cl

def State.entry (s : State) (u b cl slot : Nat) : Entry := entryFrom cl (s.blkRead u b (entOff cl slot) (entSize cl))

def State.entryCode (s : State) (u b cl slot : Nat) : Code := s.blkCode u b (entOff cl slot) (entSize cl)

/-- R62: the offsets of an entry keep their bounds. -/
def Entry.ok (e : Entry) : Bool :=
  decide (e.birth ≤ Config.offsetMax) && (e.death == noDeath || (decide (1 ≤ e.death) && decide (e.death ≤ Config.offsetMax)))

/-- R65: visibility at a vintage. -/
def visibleAt (v base birth death : Nat) : Bool :=
  decide (base ≤ v) &&
    (let d := min (v - base) (2 ^ 31)
     decide (birth ≤ d) && (death == noDeath || decide (d < death)))

def Entry.visible (e : Entry) (v base : Nat) : Bool := e.ok && visibleAt v base e.birth e.death

/-! List descriptors -/

/-- R58: a chain word. -/
structure Chain where
  unit   : Nat
  head   : Nat
  blocks : Nat
  spill  : Bool
deriving DecidableEq, Repr, Inhabited

def chainOf (w : Nat) : Chain := ⟨bits w 8 0, bits w 35 12, bits w 59 36, bit w 63⟩

def Chain.word (c : Chain) : Nat := c.unit + c.head * 2 ^ 12 + c.blocks * 2 ^ 36 + b2n c.spill * 2 ^ 63

def State.listAddr (s : State) (i l : Nat) : Nat := s.fAddr F.VINT_IDX_LISTS_ADDR i + 64 * l

/-- R551: the checks of a list descriptor. -/
def descOk (d : Bytes) (n : Nat) : Bool :=
  let k := byteAt d 4
  leAt d 0 4 == n && decide (k < 8) && allZero d 5 3 && allZero d (8 + 8 * k) (56 - 8 * k) &&
    ((List.range k).all fun j =>
      let w := leAt d (8 + 8 * j) 8
      bits w 11 9 == 0 && bits w 62 60 == 0 && (bits w 35 12 == Config.noBlock || decide (bits w 35 12 < Config.blocksPerUnit))) &&
    decide (((List.range k).filter fun j => bit (leAt d (8 + 8 * j) 8) 63).length ≤ 1)

/-- R551: the chains of a list, or why its descriptor fails. -/
def State.chains (s : State) (i l : Nat) : Except Code (List Chain) :=
  let a := s.listAddr i l
  let code := s.readCode a 64
  if code != .ok then .error code
  else
    let d := s.peek a 64
    if descOk d l then .ok ((List.range (byteAt d 4)).map fun j => chainOf (leAt d (8 + 8 * j) 8)) else .error .invalidArg

/-- A chain word written; a further word raises CHAINS. -/
def State.setChain (s : State) (i l j : Nat) (c : Chain) : State :=
  let a := s.listAddr i l
  let s := s.storeN (a + 8 + 8 * j) 8 c.word
  if s.peekN (a + 4) 1 ≤ j then s.storeN (a + 4) 1 (j + 1) else s

/-- The blocks of a chain in order. -/
def State.chainBlocks (s : State) (u : Nat) : Nat → Nat → List Nat
  | 0, _ => []
  | n + 1, b => if b < Config.blocksPerUnit then b :: s.chainBlocks u n (s.hdr u b).next else []

def State.blocksOf (s : State) (c : Chain) : List Nat := s.chainBlocks c.unit c.blocks c.head

/-! The item locator (R70) -/

/-- A locator record: press index at bytes 8–9, slot at 10–11, block at 12–15 (log entry 42). -/
structure Loc where
  item  : Nat
  unit  : Nat
  slot  : Nat
  block : Nat
deriving DecidableEq, Repr, Inhabited

def Loc.bytes (l : Loc) : Bytes := leBytes 8 l.item ++ leBytes 2 l.unit ++ leBytes 2 l.slot ++ leBytes 4 l.block

def locHome (item log2 : Nat) : Nat := item * 0x9E3779B97F4A7C15 % 2 ^ 64 / 2 ^ (64 - log2)

def State.locLog2 (s : State) (i : Nat) : Nat := s.f F.VINT_IDX_LOC_LOG2_SLOTS i

def State.locAddr (s : State) (i k : Nat) : Nat := s.fAddr F.VINT_IDX_LOC_ADDR i + 16 * k

def State.locRec (s : State) (i k : Nat) : Loc :=
  let d := s.peek (s.locAddr i k) 16
  ⟨leAt d 0 8, leAt d 8 2 % 512, leAt d 10 2, leAt d 12 4⟩

def State.locPut (s : State) (i k : Nat) (l : Loc) : State := s.store (s.locAddr i k) l.bytes

/-- What a probe for an item meets: its record, an empty slot, or neither in the whole table. -/
inductive Probe where
  | found (k : Nat) (l : Loc) | empty (k : Nat) | none
deriving DecidableEq, Repr, Inhabited

def State.probeFrom (s : State) (i item size : Nat) : Nat → Nat → Probe
  | 0, _ => .none
  | fuel + 1, k =>
    let l := s.locRec i k
    if l.item = item then .found k l
    else if l.item = Config.noItem then .empty k
    else s.probeFrom i item size fuel ((k + 1) % size)

def State.probe (s : State) (i item : Nat) : Probe :=
  let n := 2 ^ s.locLog2 i
  s.probeFrom i item n n (locHome item (s.locLog2 i))

/-- The record of an item. -/
def State.locate (s : State) (i item : Nat) : Option Loc :=
  match s.probe i item with | .found _ l => some l | _ => none

/-- The record of an item written, in its own slot or in the first empty one; none when the table is full. -/
def State.locSet (s : State) (i : Nat) (l : Loc) : Option State :=
  match s.probe i l.item with
  | .found k _ | .empty k => some (s.locPut i k l)
  | .none => none

/-- A hole in the table closed: later records of its run move back so that every probe still meets them. -/
def State.locClose (s : State) (i size : Nat) : Nat → Nat → Nat → State
  | 0, _, hole => s.locPut i hole ⟨Config.noItem, 0, 0, 0⟩
  | fuel + 1, k, hole =>
    let l := s.locRec i k
    if l.item = Config.noItem then s.locPut i hole ⟨Config.noItem, 0, 0, 0⟩
    else
      let home := locHome l.item (s.locLog2 i)
      if (k + size - home) % size < (k + size - hole) % size then s.locClose i size fuel ((k + 1) % size) hole
      else (s.locPut i hole l).locClose i size fuel ((k + 1) % size) k

/-- An item removed from the locator when its record names a place. -/
def State.locDrop (s : State) (i item u b slot : Nat) : State :=
  match s.probe i item with
  | .found k l =>
    if l.unit = u ∧ l.block = b ∧ l.slot = slot then
      let n := 2 ^ s.locLog2 i
      s.locClose i n (n - 1) ((k + 1) % n) k
    else s
  | _ => s

/-! The free-block map (R552, R104) -/

/-- Address and bit of a block in the map. -/
def State.freeBit (s : State) (u b : Nat) : Nat × Nat :=
  let g := Config.blocksPerUnit * u + b
  (s.fAddr F.VINT_FREE_MAP_ADDR 0 + g / 8, g % 8)

def State.isFree (s : State) (u b : Nat) : Bool := bit (s.peekN (s.freeBit u b).1 1) (s.freeBit u b).2

def State.setFree (s : State) (u b : Nat) (v : Bool) : State :=
  let (a, k) := s.freeBit u b
  s.storeN a 1 (setBit (s.peekN a 1) k v)

/-- The free blocks of a press unit in ascending order. Bytes of the map that nothing has written are 0 and name none, so
the listed bytes, and those of codewords that read with a correction, are all that can. -/
def State.freeBlocks (s : State) (u : Nat) : List Nat :=
  let base := s.fAddr F.VINT_FREE_MAP_ADDR 0 + Config.blocksPerUnit / 8 * u
  let inside (a : Nat) : Bool := decide (base ≤ a) && decide (a < base + Config.blocksPerUnit / 8)
  let addrs := (s.mem.map fun (p, _) => s.addrOf p) ++ s.ecc.flatMap fun (w, _) => (List.range 32).map fun k => s.addrOf (32 * w + k)
  let mine := sortBy (fun a b => decide (a < b)) (dedupNat (addrs.filter inside))
  mine.flatMap fun a => (onesBelow 8 (s.peekN a 1)).map fun k => 8 * (a - base) + k

/-- The quartet of a block (R101). -/
def quartet (b : Nat) : Nat := b / 512 % 4

/-- R104: the free block that is taken after a block, if any precedes it. -/
def State.pickFree (s : State) (u : Nat) (prev : Option Nat) : Option Nat :=
  let free := s.freeBlocks u
  let inQ (q : Nat) : List Nat := free.filter fun b => quartet b == q
  let near := match prev with | some b => inQ (quartet b) | none => []
  if near ≠ [] then near.head?
  else
    let best := [1, 2, 3].foldl (fun q k => if (inQ q).length < (inQ k).length then k else q) 0
    (inQ best).head?

/-! Racking copies (R83, R84, R559) -/

/-- A source block as a RACK reads it. -/
structure RackSrc where
  block : Nat
  hdr   : Hdr
  cl    : Nat
deriving DecidableEq, Repr, Inhabited

/-- What a RACK window reports (R112), and where each kept entry went: source block, slot, new slot, entry. -/
structure RackOut where
  poisoned  : Bool
  uncorr    : Bool
  malformed : Bool
  linked    : Bool
  done      : Nat
  moved     : List (Nat × Nat × Nat × Entry)
  dropped   : List (Nat × Nat × Entry)
deriving DecidableEq, Repr, Inhabited

/-- R82, R107: an entry that a rack drops. -/
def Entry.gone (e : Entry) (base horizon : Nat) : Bool := e.death != noDeath && decide (base + e.death ≤ horizon)

/-- R83: an entry rewritten against a new BASE; a birth below it becomes 0. -/
def Entry.rebase (e : Entry) (old new : Nat) : Entry :=
  { e with birth := old + e.birth - new, death := if e.death = noDeath then noDeath else old + e.death - new }

/-- R559: an offset that would not fit. -/
def Entry.tooFar (e : Entry) : Bool :=
  decide (Config.offsetMax < e.birth) || (e.death != noDeath && decide (Config.offsetMax < e.death))

/-- The codewords of a destination block that are built from a damaged codeword of a source: those of each byte of an entry that
came out of one, and all of them when a source's header was damaged. -/
def State.hurtCws (s : State) (u cl : Nat) (srcs : List Nat) (out : List (Nat × Nat × Nat × Entry)) : List Nat :=
  if s.ecc = [] then []
  else if srcs.any fun b => s.blkCode u b 0 32 != .ok then List.range 128
  else dedupNat (out.flatMap fun (b, k, n, _) =>
    ((List.range (entSize cl)).filter fun i => s.blkCode u b (entOff cl k + i) 1 != .ok).map fun i => (entOff cl n + i) / 32)

/-- R83, R120, R559: a RACK window of a press unit: the destination is written whole, poisoned where it is built from damaged
data; the predecessor is rewritten only when the copy is faithful. `pred` is none for a chain head; `tail` is the TAIL bit that the
destination gets. -/
def State.rackWindow (s : State) (u : Nat) (srcs : List Nat) (dst : Nat) (pred : Option Nat) (newBase horizon : Nat) (tail : Bool) :
    State × RackOut :=
  let hs := srcs.map fun b => (b, s.hdr u b)
  let h0 := (hs.headD (0, default)).2
  let hn := (hs.getLastD (0, default)).2
  let cl := min h0.size 2
  let bad := hs.any fun (_, h) => h.format != 1 || h.size != cl || decide (slotsPer cl < h.used)
  let seen (x : CwRead) : Bool :=
    srcs.any (fun b => s.blkSome u b 0 4096 x) || (match pred with | some p => s.blkSome u p 0 32 x | none => false)
  let poisoned := seen .poisoned
  let uncorr := seen .uncorrectable
  let ents := hs.flatMap fun (b, h) => (List.range (min h.used (slotsPer cl))).map fun k => (b, k, h.base, s.entry u b cl k)
  let kept := ents.filter fun (_, _, base, e) => !e.gone base horizon
  let dropped := (ents.filter fun (_, _, base, e) => e.gone base horizon).map fun (b, k, _, e) => (b, k, e)
  let moved := (kept.zip (List.range kept.length)).map fun ((b, k, base, e), n) => (b, k, n, e.rebase base newBase)
  let malformed := bad || decide (slotsPer cl < moved.length) || moved.any fun (_, _, _, e) => e.tooFar
  let out := moved.take (slotsPer cl)
  let hurt := s.hurtCws u cl srcs out
  let h : Hdr := { h0 with format := 1, size := cl, base := newBase, next := hn.next, used := out.length, tail := tail,
                           dead := (out.filter fun (_, _, _, e) => e.death != noDeath).length }
  let body := h.bytes ++ (out.map fun (_, _, _, e) => e.bytes cl).flatten
  let s := srcs.foldl (fun s b => s.winRead u b 0 4096) s
  let s := match pred with | some p => s.winRead u p 0 32 | none => s
  let s := hurt.foldl (fun s w => s.blkPoison u dst w) (s.blkWrite u dst 0 (slice body 0 4096))
  let linked := !poisoned && !uncorr && !malformed
  let s := if linked then (match pred with | some p => s.blkWrite u p 16 (leBytes 3 dst) | none => s) else s
  (s, ⟨poisoned, uncorr, malformed, linked, srcs.length, out, dropped⟩)

end Sys2Proof.Machine
end

