-- ==== Sys2Proof/Machine/Index.lean ====
section
/-! DEFINITION. Indexes (R55 to R99): enabling, vintages and their closes, pins and the horizon, updates with their log
records, appends and stamps, racking, rebasing, moves and repair (R447). -/
namespace Sys2Proof.Machine

/-! Configuration -/

def State.idxOn (s : State) (i : Nat) : Bool := s.on F.VINT_IDX_CFG_ENABLE i

/-- ENTRY_SIZE of the blocks of an index. -/
def State.idxCl (s : State) (i : Nat) : Nat := s.f F.VINT_IDX_CFG_CODE_LEN i

def State.idxGlobal (s : State) (i : Nat) : Bool := s.on F.VINT_IDX_CFG_SCOPE i

/-- R39: subquantizers or binary elements of a code: format and code length. -/
def codeDim (fmt cl : Nat) : Nat :=
  match fmt with
  | 8 => 2 * codeLen cl
  | 9 => codeLen cl
  | 10 => 8 * codeLen cl
  | _ => 0

/-- R56, R162: the configuration that a write of ENABLE finds is in order. -/
def State.idxCfgOk (s : State) (i : Nat) : Bool :=
  let fmt := s.f F.VINT_IDX_CFG_CODE_FMT i
  let mode := s.f F.VINT_IDX_CFG_MODE i
  let dim := s.f F.VINT_IDX_QCFG_DIM i
  let m := codeDim fmt (s.idxCl i)
  (fmt == 8 || fmt == 9 || fmt == 10) && ((fmt == 10) == (mode == 2)) &&
    s.f F.VINT_IDX_LOC_ADDR i != 0 && s.f F.VINT_IDX_LOC_LOG2_SLOTS i != 0 && s.f F.VINT_FREE_MAP_ADDR 0 != 0 &&
    decide (dim ≤ 8192) && (dim == 0 || (if fmt == 10 then dim == m else dim % m == 0))

/-- R388: the composition slot and map through which a global index is served. -/
def State.idxComp (s : State) (i : Nat) : Option (Nat × CompMap) :=
  if s.idxGlobal i then (s.slotOfObject 0 i).map fun x => (x.1, x.2.1) else none

/-- R55, R388, R454: what ends a command that names an index; of two codes the larger (R30). -/
def State.idxCheck (s : State) (c i : Nat) : Option Code :=
  if s.f F.VINT_IDX_CFG_TENANT i ≠ s.tenant c then some .denied
  else if !s.idxOn i || (s.idx i).restoring then some .invalidArg
  else if s.idxGlobal i ∧ s.idxComp i = none then some .invalidArg
  else if (s.idx i).awaiting then some .fenced
  else none

/-! Vintages -/

def State.published (s : State) (i : Nat) : Nat := s.f F.VINT_CUR_VINTAGE i
def State.durable (s : State) (i : Nat) : Nat := s.f F.VINT_DURABLE_VINTAGE i

/-- True for work that pins no vintage: an update that is stamped. -/
def Work.isStamped : Work → Bool
  | .stamped _ _ _ => true
  | _ => false

/-- R79: the vintages of requests that run on an index, suspended ones too (R473). -/
def State.heldVintages (s : State) (i : Nat) : List Nat :=
  (s.ctxs.flatMap fun (_, x) => (x.reqs.filter fun r => r.index == some i && !r.work.ended && !r.work.isStamped).map (·.vintage)) ++
    (s.jobs.filter fun (_, j) => j.index == i && descOp j.desc != 0x14).map fun (_, j) => j.vintage

/-- R79: the horizon. -/
def State.horizon (s : State) (i : Nat) : Nat :=
  ((s.heldVintages i) ++ (s.idx i).pins.map (·.vintage)).foldl min (s.published i)

/-- R66: the vintage to which a request is pinned; none when its vintage field names none that it may. -/
def State.pinVintage (s : State) (i field : Nat) : Option Nat :=
  if field = 0 then some (s.published i)
  else if s.horizon i ≤ field ∧ field ≤ s.published i then some field else none

/-- R73: updates of an index whose vintage is now published (EARLY) or durable complete. -/
def State.completeUpdates (s : State) (i : Nat) : State :=
  let pub := s.published i
  let dur := s.durable i
  s.ctxs.foldl (fun s (c, x) => x.reqs.foldl (fun s r =>
    match r.work with
    | .stamped v early n =>
      if r.index = some i ∧ (v ≤ dur ∨ (early ∧ v ≤ pub)) then
        s.finish c r.slot (Compl.success (bit r.conds 0) (bit r.conds 1) (bit r.conds 2) n v) else s
    | _ => s) s) s

/-- R63, R76: a vintage is published. -/
def State.publishIdx (s : State) (i v : Nat) : State :=
  if v ≤ s.published i then s
  else
    let s := (s.setF F.VINT_CUR_VINTAGE i v).setIdx i fun x =>
      { x with everPub := max x.everPub v, prepared := none, openV := max x.openV (v + 1),
               firstCommit := if x.awaiting = true then v else x.firstCommit, awaiting := false }
    s.completeUpdates i

/-- R72: a log record. -/
def logRecord (op cl index list item attr sq : Nat) (code : Bytes) (vintage : Nat) : Bytes :=
  let d := leBytes 1 op ++ leBytes 1 cl ++ leBytes 2 index ++ leBytes 4 list ++ leBytes 8 item ++ leBytes 8 attr ++
    leBytes 8 sq ++ slice code 0 64 ++ leBytes 8 vintage ++ zeros 20
  d ++ leBytes 4 (crc32c d)

/-- R30, R55: what ends a command whose operation area names index i and is in order or not; of two codes the larger. -/
def State.idxArg (s : State) (c i : Nat) (ok : Bool) : Code :=
  let area : Code := if ok && decide (i < 4096) then .ok else .invalidArg
  area.worst ((if i < 4096 then s.idxCheck c i else none).getD .ok)

/-- R257: no spare block is left for a write of the LOG namespace. -/
def State.logRefused (s : State) : Bool := s.logNs.isSome && s.writeRefused nsLog

/-- R71, R261: a record handed to the log, full pages programmed at once. -/
def State.handLog (s : State) (rec : Bytes) : Option (State × Nat) :=
  if s.logRefused then none else (s.logHand rec).map fun (s, k) => (s.flushLog false, k)

/-- R75: a trigger of a close at this node: the timer restarts, and a close starts, or is owed after the one that runs. -/
def State.startClose (s : State) (i : Nat) : State :=
  s.setIdx i fun x => match x.close with
    | some _ => { x with timer := s.now, again := true }
    | none => { x with timer := s.now, close := some ⟨0, false, s.now, false, 0⟩ }

/-- R78: the rank of this node for a global index; 0, the root, for a local one. -/
def State.idxRank (s : State) (i : Nat) : Nat := match s.idxComp i with | some (_, m) => m.rank | none => 0

/-- R78, R388: a global index that no installed map lists has no tree, and no close of it starts. -/
def State.idxLost (s : State) (i : Nat) : Bool := s.idxGlobal i && (s.idxComp i).isNone

/-- R75, R78: a trigger of a close; a member that is not the root forwards it. -/
def State.triggerClose (s : State) (i : Nat) : State :=
  if !s.idxOn i || s.idxLost i then s
  else match s.idxComp i with
    | some (_, m) => if m.rank ≠ 0 then s.sendGlobal m 0 opCloseTrigger i 0 [] else s.startClose i
    | none => s.startClose i

/-- R76 step 4: the marker of the vintage being closed is handed to the log, when it can be. -/
def State.handMarker (s : State) (i : Nat) : State :=
  match (s.idx i).close with
  | some k =>
    if k.handed ∨ k.vintage = 0 then s
    else match s.handLog (logRecord 5 (s.idxCl i) i 0 0 0 k.seq [] k.vintage) with
      | some (s, n) => s.setIdx i fun x =>
        { x with close := some { k with handed := true }, prepared := some k.vintage, markers := x.markers ++ [(k.vintage, n, k.seq)] }
      | none => s
  | none => s

/-- R78: a member, and its part of the tree, are prepared. -/
def State.reportPrepared (s : State) (i : Nat) : State :=
  match s.idxComp i, (s.idx i).prepared with
  | some (n, m), some v =>
    let kids := (treeChildren m.members.length m.rank).filter fun r => !(s.comp n).down.contains r
    let heard := ((s.fab.collects.find? fun k => k.op == opPrepared && k.obj == i && k.num == v).map (·.heard)).getD []
    if kids.all heard.contains && m.rank ≠ 0 then
      (s.sendGlobal m (treeParent m.rank) opPrepared i v []).setFab fun x =>
        { x with collects := x.collects.filter fun k => !(k.op == opPrepared && k.obj == i && k.num == v) }
    else s
  | _, _ => s

/-- R81: the sub-requests that other nodes' requests run on an index here end once the open vintage is 2^30 above theirs. -/
def State.endOldPeers (s : State) (i : Nat) : State :=
  let old := s.jobs.filter fun (_, j) => j.index == i && descOp j.desc != 0x14 &&
    decide (j.vintage + Config.vintageGap ≤ (s.idx i).openV) && (match j.owner with | .peer .. => true | .ctx .. => false)
  old.foldl (fun s (id, _) => s.failJob id .aborted) s

/-- R76 steps 2 to 4: the open vintage advances and the marker goes to the log; a root sends PREPARE down (R78). -/
def State.takeClose (s : State) (i v : Nat) : State :=
  let started := match (s.idx i).close with | some k => k.started | none => s.now
  let s := s.setIdx i fun x => { x with close := some ⟨v, false, started, false, x.seq⟩, openV := v + 1, stamped := 0 }
  let s := match s.idxComp i with
    | some (n, m) => s.sendChildren n m opPrepare i v []
    | none => s
  ((s.endOldPeers i).handMarker i).reportPrepared i

/-- R76 step 5: the vintage is published, the bound is counted, and a further close that is owed starts (R75: no trigger comes with
it). The bound is counted in whole µs, for the closes of global indexes too (log entry 106). -/
def State.endClose (s : State) (i : Nat) (k : CloseRun) : State :=
  let s := if k.late ∨ 21 ≤ s.now - k.started then s.addF F.VINT_STAT_CLOSE_OVERRUN i 1 else s
  let s := s.publishIdx i k.vintage
  s.setIdx i fun x => { x with close := if x.again then some ⟨0, false, s.now, false, 0⟩ else none, again := false }

/-- R78: at the root, every node of the composition is prepared. -/
def State.allPrepared (s : State) (i v : Nat) : Bool :=
  match s.idxComp i with
  | some (n, m) =>
    let kids := (treeChildren m.members.length m.rank).filter fun r => !(s.comp n).down.contains r
    let heard := ((s.fab.collects.find? fun k => k.op == opPrepared && k.obj == i && k.num == v).map (·.heard)).getD []
    kids.all heard.contains
  | none => true

/-- VINT_CLOSE: a write of an index number: R75, R96. -/
def State.writeVintClose (s : State) (src : Src) (v : Nat) : State :=
  let i := bits v 11 0
  if s.idxOn i then s.triggerClose i else s.writeErr .action src .vintClose 0

/-- CLOSE_INTERVAL: R75, R94: the timer of an index; of a global one only the root's acts (R78). -/
def execCloseInterval (i : BitVec 12) (s : State) : Host.Outcome State Fault Refusal :=
  gated s fun s =>
    let i := i.toNat
    let t := s.f F.VINT_TRIG_INTERVAL_US i
    if s.idxOn i ∧ t ≠ 0 ∧ s.due (s.idx i).timer (max 50 t) ∧ s.idxRank i = 0 ∧ !(s.idx i).awaiting ∧ !s.idxLost i then s.startClose i else s

/-- CLOSE: R76 steps 1 to 4, R78. -/
def execClose (i : BitVec 12) (s : State) : Host.Outcome State Fault Refusal :=
  gated s fun s =>
    let i := i.toNat
    match (s.idx i).close with
    | some k => if s.idxOn i ∧ k.vintage = 0 ∧ !s.idxLost i then s.takeClose i (s.idx i).openV else s
    | none => s

/-- VINTAGE_PUBLISH: R76 step 5, R78, R450: a close whose marker is handed is published, by the root of a global index once
every node is prepared; it waits while it would lie more than 1,024 above the durable vintage. -/
def execVintagePublish (i : BitVec 12) (s : State) : Host.Outcome State Fault Refusal :=
  gated s fun s =>
    let i := i.toNat
    if !s.idxOn i || s.idxLost i then s
    else
      let s := (s.handMarker i)
      match (s.idx i).close with
      | some k =>
        if !k.handed then s
        else if s.idxRank i ≠ 0 then s.reportPrepared i
        else if s.durable i + 1024 < k.vintage then s.setIdx i fun x => { x with close := some { k with late := true } }
        else if !s.allPrepared i k.vintage then s
        else
          let s := match s.idxComp i with
            | some (n, m) => (s.sendChildren n m opCommit i k.vintage []).setFab fun x =>
                { x with collects := x.collects.filter fun y => !(y.op == opPrepared && y.obj == i && y.num == k.vintage) }
            | none => s
          s.endClose i k
      | none => s

/-- VINTAGE_DURABLE: R73, R76, R261: the oldest marker handed over, and every record before it, are programmed. -/
def execVintageDurable (i : BitVec 12) (s : State) : Host.Outcome State Fault Refusal :=
  gated s fun s =>
    let i := i.toNat
    match (s.idx i).markers with
    | [] => s
    | (v, n, sq) :: rest =>
      if s.idxOn i && (List.range (n + 1)).all s.logDurable then
        ((s.setF F.VINT_DURABLE_VINTAGE i (max v (s.durable i))).setIdx i fun x => { x with markers := rest, durSeq := sq }).completeUpdates i
      else s

/-! Enabling -/

/-- R56, R63, R91: ENABLE takes effect as 1: vintage 1 is published, also when the index was enabled before (log entry 46). -/
def State.enableIdx (s : State) (i : Nat) : State :=
  (s.setFs i [(F.VINT_CUR_VINTAGE, 1)]).setF F.VINT_DURABLE_VINTAGE i 1 |>.setIdx i fun x =>
    { x with openV := 2, everPub := max x.everPub 1, stamped := 0, timer := s.now, close := none, again := false, pins := [],
             prepared := none, awaiting := false, restoring := false, firstCommit := 0, markers := [], durSeq := x.seq }

/-- R91, R95: ENABLE takes effect as 0. Updates that wait for a vintage of it end with ABORTED (log entry 45). -/
def State.disableIdx (s : State) (i : Nat) : State :=
  let waits := s.ctxs.flatMap fun (c, x) => (x.reqs.filter fun r => r.index == some i && r.work.isStamped).map fun r => (c, r.slot)
  let s := waits.foldl (fun s (c, q) => s.finishCode c q .aborted) s
  ((s.setF F.VINT_CUR_VINTAGE i 0).setF F.VINT_DURABLE_VINTAGE i 0).setIdx i fun x =>
    { x with openV := 0, stamped := 0, close := none, again := false, pins := [], prepared := none, awaiting := false, firstCommit := 0, markers := [] }

/-! Pins -/

/-- A pin handle that no pin of this node's contexts on the index holds (log entry 44). -/
def freshHandle (pins : List Pin) : Nat :=
  ((List.range (pins.length + 1)).find? fun h => !(pins.any fun p => p.home.isNone && p.handle == h)).getD 0

/-- R80: the pin of this node under a handle taken out. -/
def State.dropPin (s : State) (i h : Nat) : State :=
  s.setIdx i fun x => { x with pins := dropFirst (fun p => p.home.isNone && p.handle == h) x.pins }

/-- R80: a pin of a global index goes to the other nodes of its composition; the command waits for their answers. -/
def State.pinPeers (s : State) (c q i h v : Nat) (d : Bytes) : State :=
  let others := match s.idxComp i with
    | some (n, m) => ((List.range m.members.length).filter fun r => r != m.rank && !(s.comp n).down.contains r).map fun r => (m, r)
    | none => []
  if others = [] then s.finish c q (Compl.success false false false 0 h)
  else (others.foldl (fun s (m, r) => s.sendSub m r (.pin c q) v 0 0 d (leBytes 2 h)) s).setWork c q (.pinning i h .ok)

/-- R80: another node answers a PIN. Once all have, the command completes; where one has no room, the pin is released again. -/
def State.pinAnswer (s : State) (c q : Nat) (k : Code) : State :=
  match s.req c q with
  | some r => match r.work with
    | .pinning i h w =>
      let w := w.worst k
      if s.fab.subs.any fun o => o.owner == .pin c q then s.setWork c q (.pinning i h w)
      else if w.bad then ((s.dropPin i h).unpinPeers i h).finishCode c q w
      else s.finish c q (Compl.success false false false 0 h)
    | _ => s
  | none => s

/-- PIN: R80, R423. -/
def execPin (c : BitVec 12) (q : BitVec 16) (s : State) : Host.Outcome State Fault Refusal :=
  gated s fun s => s.runCmd c.toNat q.toNat 0x04 fun s r =>
    let c := c.toNat
    let q := q.toNat
    let d := r.desc
    let i := opN d 2 2
    let code := s.idxArg c i (opZero d 1 1 && opZero d 4 4 && opZero d 16 80)
    if code.bad then s.finishCode c q code
    else match s.pinVintage i (opN d 8 8) with
      | none => s.finishCode c q .invalidArg
      | some v =>
        let pins := (s.idx i).pins
        if 16 ≤ pins.length then s.finishCode c q .quota
        else
          let h := freshHandle pins
          (s.setIdx i fun x => { x with pins := x.pins ++ [⟨h, v, c, false, none⟩] }).pinPeers c q i h v d

/-- UNPIN: R80, R423: a handle that names no pin is an argument that is not valid (log entry 44). -/
def execUnpin (c : BitVec 12) (q : BitVec 16) (s : State) : Host.Outcome State Fault Refusal :=
  gated s fun s => s.runCmd c.toNat q.toNat 0x05 fun s r =>
    let c := c.toNat
    let q := q.toNat
    let d := r.desc
    let i := opN d 2 2
    let h := opN d 4 2
    let code := s.idxArg c i (opZero d 1 1 && opZero d 6 90)
    if code.bad then s.finishCode c q code
    else
      let mine (p : Pin) : Bool := p.handle == h && !p.ckpt && p.home.isNone && s.tenant p.ctx == s.tenant c
      if (s.idx i).pins.any mine then ((s.dropPin i h).unpinPeers i h).finishCode c q .ok else s.finishCode c q .invalidArg

/-- PIN_REVOKE: R80. -/
def execPinRevoke (i : BitVec 12) (h : BitVec 16) (s : State) : Host.Outcome State Fault Refusal :=
  gated s fun s =>
    let i := i.toNat
    let old (p : Pin) : Bool := p.handle == h.toNat && decide (p.vintage + Config.vintageGap ≤ (s.idx i).openV)
    if (s.idx i).pins.any old then
      ((s.setIdx i fun x => { x with pins := dropFirst old x.pins }).addF F.VINT_STAT_PIN_REVOKED i 1).idxIntr i
    else s

/-- REQUEST_REVOKE: R81. The sub-requests of the request on its peers end there by the same rule (`endOldPeers`). -/
def execRequestRevoke (c : BitVec 12) (q : BitVec 16) (s : State) : Host.Outcome State Fault Refusal :=
  gated s fun s =>
    match s.req c.toNat q.toNat with
    | some r => match r.index with
      | some i => if !r.work.isStamped ∧ !r.work.ended ∧ r.vintage + Config.vintageGap ≤ (s.idx i).openV then
          (s.endReq c.toNat q.toNat .aborted).addF F.VINT_STAT_PIN_REVOKED i 1
        else s
      | none => s
    | none => s

/-! Racking -/

/-- Where a block stands in its list: chain word, the blocks of the chain, the block before it, the blocks from it on. -/
structure Place where
  list  : Nat
  word  : Nat
  chain : Chain
  prev  : Option Nat
  rest  : List Nat
deriving DecidableEq, Repr, Inhabited

/-- The blocks before and from a block on. -/
def splitAt (b : Nat) : Option Nat → List Nat → Option (Option Nat × List Nat)
  | _, [] => none
  | prev, x :: r => if x = b then some (prev, x :: r) else splitAt b (some x) r

/-- A block found in a chain of a list. -/
def State.placeIn (s : State) (i l j b : Nat) : Option Place :=
  match s.chains i l with
  | .error _ => none
  | .ok cs => match cs[j]? with
    | none => none
    | some ch => (splitAt b none (s.blocksOf ch)).map fun (prev, rest) => ⟨l, j, ch, prev, rest⟩

/-- A block found in whichever chain of a list holds it on a press unit. -/
def State.findPlace (s : State) (i l u b : Nat) : Option Place :=
  (List.range 7).findSome? fun j => match s.placeIn i l j b with
    | some p => if p.chain.unit = u then some p else none
    | none => none

/-- R85: a source block waits until the passes that began before have ended, those of the press commands and those of the searches,
which may read their chains again (R171). -/
def State.toFreeBlock (s : State) (u b : Nat) : State :=
  { s with toFree := s.toFree ++ [⟨u, b, (s.pu u).passes.map fun t => (u, t), s.jobs.map (·.1)⟩] }

/-- R134: a window of the update tile's own adds its cycles. -/
def State.winTime (s : State) (u n : Nat) : State := s.addF F.PRESS_WIN_STAT_WIN_CYCLES u n

/-- R109: the cycles of the WRITE windows that write n codewords, 32 at most in each (log entry 304). -/
def writeCycles (n : Nat) : Nat := 2 * n + 8 * ceilDiv n 32

/-- R119: the reads of the locator records that a probe for an item meets. -/
def State.noteProbe (s : State) (i item : Nat) : State :=
  if s.ecc = [] then s else
  let n := 2 ^ s.locLog2 i
  let home := locHome item (s.locLog2 i)
  let len := match s.probe i item with | .found k _ | .empty k => (k + n - home) % n + 1 | .none => n
  (List.range len).foldl (fun s j => s.noteBytes (s.locAddr i ((home + j) % n)) 16) s

/-- R90, R99: a block taken for a chain; a spill block counts. None while the pseudo-channel has no free block, or the spill blocks are
all in use. -/
def State.takeBlock (s : State) (u : Nat) (prev : Option Nat) (spill : Bool) : Option (State × Nat) :=
  let used := s.f F.VINT_SPILL_CFG_SPILL_USED 0
  if spill ∧ s.f F.VINT_SPILL_CFG_SPILL_BLOCKS 0 ≤ used then none
  else match s.pickFree u prev with
    | none => none
    | some b =>
      let s := s.setFree u b false
      some (if spill then s.setF F.VINT_SPILL_CFG_SPILL_USED 0 (used + 1) else s, b)

/-- R85, R99, R559: a block returned to the free blocks. -/
def State.giveBlock (s : State) (u b : Nat) (spill : Bool) : State :=
  let s := s.setFree u b true
  if spill then s.setF F.VINT_SPILL_CFG_SPILL_USED 0 (s.f F.VINT_SPILL_CFG_SPILL_USED 0 - 1) else s

/-- R83 step 6: the locator follows the entries that a rack moved and loses those it dropped. -/
def State.followMoves (s : State) (i u dst : Nat) (out : RackOut) : State :=
  let s := out.moved.foldl (fun s (b, k, n, e) =>
    match s.probe i e.item with
    | .found p l => if l.unit = u ∧ l.block = b ∧ l.slot = k then s.locPut i p ⟨e.item, u, n, dst⟩ else s
    | _ => s) s
  out.dropped.foldl (fun s (b, k, e) => s.locDrop i e.item u b k) s

/-- R83, R559: one or two blocks of a chain are racked: the state, and what the window reported; none when no block can be taken. A
rack that is not linked leaves the chain as it was, its destination free again. -/
def State.rackAt (s : State) (i : Nat) (p : Place) (srcs : List Nat) (newBase horizon : Nat) (tail : Bool) : Option (State × RackOut) :=
  let u := p.chain.unit
  match s.takeBlock u srcs.head? p.chain.spill with
  | none => none
  | some (s, dst) =>
    let s := s.winTime u (128 * srcs.length + if p.prev.isSome then 138 else 137)
    let (s, out) := s.rackWindow u srcs dst p.prev newBase horizon tail
    if !out.linked then some (s.giveBlock u dst p.chain.spill, out)
    else
      let ch := { p.chain with head := if p.prev = none then dst else p.chain.head,
                               blocks := p.chain.blocks - (srcs.length - 1) }
      let s := if ch = p.chain then s else s.setChain i p.list p.word ch
      let s := s.followMoves i u dst out
      some (srcs.foldl (fun s b => s.toFreeBlock u b) s, out)

/-- R559: the BASE for a rack: the first source's, or the horizon when some offset would not fit against it. -/
def State.rackBase (s : State) (u : Nat) (srcs : List Nat) (horizon : Nat) : Nat :=
  let hs := srcs.map fun b => (b, s.hdr u b)
  let base := ((hs.headD (0, default)).2).base
  let far := hs.any fun (b, h) => (List.range h.used).any fun k =>
    let e := s.entry u b h.size k
    !e.gone h.base horizon && (e.rebase h.base base).tooFar
  if far then horizon else base

/-- Entries that a rack of a block would drop, and keep. -/
def State.rackCount (s : State) (u b horizon : Nat) : Nat × Nat :=
  let h := s.hdr u b
  let gone := ((List.range h.used).filter fun k => (s.entry u b h.size k).gone h.base horizon).length
  (gone, h.used - gone)

/-- The update tile of the index's partition can work. -/
def State.updateTile (s : State) (i : Nat) : Bool :=
  let n := s.f F.VINT_IDX_CFG_PARTITION i
  s.hasPers n persUpdate && s.trlState n == trlRunning && !s.fencedFor n [persUpdate]

/-- R82: the block of a place may be racked: the index's update tile runs, the block holds entries of its list and is no tail, and
the dead share of its slots has reached the threshold, as counted and as found. -/
def State.mayRack (s : State) (i : Nat) (p : Place) (b : Nat) : Bool :=
  let u := p.chain.unit
  let h := s.hdr u b
  let share := s.f F.VINT_RACK_CFG_DEAD_THRESH 0
  s.idxOn i && s.updateTile i && h.ok i p.list (s.idxCl i) && !h.tail && decide (share * h.used ≤ 8 * h.dead) &&
    decide (share * h.used ≤ 8 * (s.rackCount u b (s.horizon i)).1)

/-- R82, R83: the source blocks of a rack: the block, and its next one where the entries kept of both fit one block. -/
def State.rackSrcs (s : State) (i : Nat) (p : Place) (b : Nat) : List Nat :=
  let u := p.chain.unit
  let hz := s.horizon i
  match p.rest with
  | _ :: n :: _ =>
    if (s.hdr u n).ok i p.list (s.idxCl i) && decide ((s.rackCount u b hz).2 + (s.rackCount u n hz).2 ≤ slotsPer (s.idxCl i)) then [b, n] else [b]
  | _ => [b]

/-- R83, R559: a block racked, if a block is free for it; after MALFORMED it is racked again as a rebase to the horizon. -/
def State.rackBlock (s : State) (i : Nat) (p : Place) (b : Nat) : Option State :=
  let u := p.chain.unit
  let srcs := s.rackSrcs i p b
  let tail := (s.hdr u (srcs.getLastD b)).tail
  match s.rackAt i p srcs (s.rackBase u srcs (s.horizon i)) (s.horizon i) tail with
  | none => none
  | some (s, out) =>
    if out.malformed && !out.poisoned && !out.uncorr then
      some (match s.rackAt i p [b] (s.horizon i) (s.horizon i) (s.hdr u b).tail with
        | some (t, _) => t
        | none => s)
    else some s

/-- RACKING: R82, R83. -/
def execRacking (i : BitVec 12) (at_ : BlockAt) (s : State) : Host.Outcome State Fault Refusal :=
  gated s fun s =>
    match s.placeIn i.toNat at_.list.toNat at_.chain.toNat at_.block.toNat with
    | none => s
    | some p => if s.mayRack i.toNat p at_.block.toNat then (s.rackBlock i.toNat p at_.block.toNat).getD s else s

/-- R86: the block of a place is due for a rebase: its base lies far enough behind the horizon. -/
def State.mayRebase (s : State) (i : Nat) (p : Place) (b : Nat) : Bool :=
  let h := s.hdr p.chain.unit b
  s.idxOn i && s.updateTile i && h.ok i p.list (s.idxCl i) && decide (h.base + 2 ^ s.f F.VINT_RACK_CFG_REBASE_LOG2 0 ≤ s.horizon i)

/-- AGE_REBASE: R86: a tail block that reaches the age takes no more appends. -/
def execAgeRebase (i : BitVec 12) (at_ : BlockAt) (s : State) : Host.Outcome State Fault Refusal :=
  gated s fun s =>
    match s.placeIn i.toNat at_.list.toNat at_.chain.toNat at_.block.toNat with
    | none => s
    | some p =>
      if s.mayRebase i.toNat p at_.block.toNat then
        match s.rackAt i.toNat p [at_.block.toNat] (s.horizon i.toNat) (s.horizon i.toNat) false with
        | some (t, _) => t
        | none => s
      else s

/-- BLOCK_FREE: R85, R99: a racked source block returns to the free blocks. -/
def execBlockFree (u : BitVec 9) (b : BitVec 24) (s : State) : Host.Outcome State Fault Refusal :=
  gated s fun s =>
    let mine (t : ToFree) : Bool := t.unit == u.toNat && t.block == b.toNat &&
      (t.passes.all fun (p, tag) => !(s.pu p).passes.contains tag) && t.jobs.all fun id => (s.job id).isNone
    if s.toFree.any mine then
      let s : State := { s with toFree := dropFirst mine s.toFree }
      s.giveBlock u.toNat b.toNat (s.hdr u.toNat b.toNat).spill
    else s

/-! Updates -/

/-- An update record. -/
structure Upd where
  op   : Nat
  list : Nat
  item : Nat
  attr : Nat
  code : Bytes
deriving DecidableEq, Repr, Inhabited

/-- Why an update cannot be staged now, or at all. -/
inductive UpdFail where
  | block | log | code (k : Code)
deriving DecidableEq, Repr, Inhabited

/-- R86: a block rebased at once so that a stamp fits. -/
def State.forceRebase (s : State) (i u b : Nat) : Except UpdFail State :=
  let h := s.hdr u b
  match s.findPlace i h.list u b with
  | none => .error (.code .invalidArg)
  | some p => match s.rackAt i p [b] (s.horizon i) (s.horizon i) h.tail with
    | none => .error .block
    | some (t, out) =>
      if out.linked then .ok (t.addF F.VINT_STAT_FORCED_REBASE i 1)
      else .error (.code (if out.uncorr then .uncorrectable else if out.poisoned then .poison else .invalidArg))

/-- R60, R61: a death stamped on an entry; DEAD_HINT follows. -/
def State.writeDeath (s : State) (l : Loc) (cl death : Nat) : State :=
  let dead := byteAt (s.blkRead l.unit l.block 21 1) 0
  ((s.winTime l.unit (writeCycles 2)).blkWrite l.unit l.block (entOff cl l.slot + entSize cl - 4) (leBytes 4 death)).blkWrite l.unit l.block 21
    (leBytes 1 (min 255 (dead + 1)))

/-- R70: the entry of an item that is visible at a vintage: its record, or the code of a damaged codeword. -/
def State.liveEntry (s : State) (i item v : Nat) : Except UpdFail (Option Loc) :=
  match s.locate i item with
  | none => .ok none
  | some l =>
    let cl := s.idxCl i
    let code := (s.blkCode l.unit l.block 0 32).worst (s.entryCode l.unit l.block cl l.slot)
    if code != .ok then .error (.code code)
    else
      let h := s.hdr l.unit l.block
      let e := s.entry l.unit l.block cl l.slot
      .ok (if h.size == cl && decide (l.slot < h.used) && e.item == item && e.visible v h.base then some l else none)

/-- R70, R86: the visible entry of an item, if any, gets DEATH for the open vintage; how many did. -/
def State.stampDead (s : State) (i item v : Nat) : Except UpdFail (State × Nat) := do
  match ← s.liveEntry i item v with
  | none => return (s, 0)
  | some l =>
    let cl := s.idxCl i
    let s ← if v - (s.hdr l.unit l.block).base ≤ Config.offsetMax then .ok s else s.forceRebase i l.unit l.block
    match s.locate i item with
    | none => return (s, 0)
    | some l => return (s.writeDeath l cl (v - (s.hdr l.unit l.block).base), 1)

/-- R71, R86, R552: an entry appended to a chain; its place. `base` is the BASE of a new block. -/
def State.appendTo (s : State) (i l j : Nat) (ch : Chain) (v base : Nat) (u : Upd) : Except UpdFail (State × Loc) :=
  let cl := s.idxCl i
  let blks := s.blocksOf ch
  let last := blks.getLast?
  let code := match last with | some b => s.blkCode ch.unit b 0 32 | none => .ok
  let h := match last with | some b => s.hdr ch.unit b | none => default
  let fits := last.isSome && h.ok i l cl && h.tail && decide (h.used < slotsPer cl) && decide (v - h.base ≤ Config.offsetMax) &&
    decide (s.horizon i < h.base + 2 ^ s.f F.VINT_RACK_CFG_REBASE_LOG2 0)
  let entry (b : Nat) : Entry := ⟨u.code, u.item, u.attr, v - b, noDeath⟩
  if code != .ok then .error (.code code)
  else if fits then
    let b := last.getD 0
    let s := (s.blkNote ch.unit b 0 32).winTime ch.unit (writeCycles ((blkCws ch.unit b (entOff cl h.used) (entSize cl)).length + 1))
    let s := s.blkWrite ch.unit b (entOff cl h.used) ((entry h.base).bytes cl)
    .ok (s.blkWrite ch.unit b 20 (leBytes 1 (h.used + 1)), ⟨u.item, ch.unit, h.used, b⟩)
  else
    match s.takeBlock ch.unit last ch.spill with
      | none => .error .block
      | some (s, b) =>
        let s := s.winTime ch.unit (writeCycles 128 + if last.isSome then writeCycles 1 else 0)
        let nh : Hdr := ⟨1, cl, i, l, base, Config.noBlock, 1, 0, ch.spill, true⟩
        let s := s.blkWrite ch.unit b 0 (slice (nh.bytes ++ (entry base).bytes cl) 0 4096)
        let s := match last with
          | some p => (s.blkWrite ch.unit p 16 (leBytes 3 b)).blkWrite ch.unit p 22 (leBytes 1 (b2n h.spill))
          | none => s
        let s := s.setChain i l j { ch with head := if last.isNone then b else ch.head, blocks := ch.blocks + 1 }
        .ok (s, ⟨u.item, ch.unit, 0, b⟩)

/-- R71, R146: the home chain with the fewest blocks; of equals the first. The node never adds, removes or moves a home chain: no
definition of the model writes a chain word of a home chain but for its HEAD and BLOCKS. -/
def homeChain (cs : List Chain) : Option (Nat × Chain) :=
  (((List.range cs.length).zip cs).filter fun (_, c) => !c.spill).foldl (fun best x =>
    match best with
    | none => some x
    | some b => if x.2.blocks < b.2.blocks then some x else some b) none

/-- R90: the spill chain of a list, or a new one on a spill unit of the image that has a free block. -/
def State.spillChain (s : State) (i : Nat) (cs : List Chain) : State × Option (Nat × Chain) :=
  match ((List.range cs.length).zip cs).find? fun (_, c) => c.spill with
  | some x => (s, some x)
  | none =>
    if 7 ≤ cs.length then (s, none)
    else
      let units := match (s.part (s.f F.VINT_IDX_CFG_PARTITION i)).img with
        | some g => (g.press.filter fun p => p.spill && (s.pickFree p.unit none).isSome).map (·.unit)
        | none => []
      if units = [] then (s, none)
      else
        let (s, n) := s.draw
        (s, some (cs.length, ⟨units.getD (Config.arbiterPick units.length n % units.length) 0, Config.noBlock, 0, true⟩))

/-- R71: the BASE of a new block: the published vintage; before the first commit after a restore the open one less 1. -/
def State.newBase (s : State) (i : Nat) : Nat := if s.published i = 0 then (s.idx i).openV - 1 else s.published i

/-- R71, R90, R146: a new entry goes to its shortest home chain, or beyond the home chains to the spill chain. -/
def State.appendEntry (s : State) (i v : Nat) (u : Upd) : Except UpdFail (State × Loc) :=
  let s := s.noteBytes (s.listAddr i u.list) 64
  match s.chains i u.list with
  | .error k => .error (.code k)
  | .ok cs =>
    let home := match homeChain cs with
      | some (j, ch) => s.appendTo i u.list j ch v (s.newBase i) u
      | none => .error .block
    match home with
    | .error .block => match s.spillChain i cs with
      | (s, some (j, ch)) => s.appendTo i u.list j ch v (s.newBase i) u
      | (_, none) => .error .block
    | x => x

/-- R70: the locator record of an item points at its new entry. -/
def State.setLoc (s : State) (i : Nat) (l : Loc) : Except UpdFail State :=
  match s.locSet i l with
  | some s => .ok s
  | none => .error (.code .quota)

/-- R71: one update: sequence number, log record, stamps, locator; entries inserted or stamped dead. A delete takes its item out of
the locator (log entry 305); sequence numbers start at 1 (log entry 104). -/
def State.stageOne (s : State) (i v : Nat) (u : Upd) : Except UpdFail (State × Nat) := do
  let s := s.noteProbe i u.item
  let sq := (s.idx i).seq + 1
  let s := s.setIdx i fun x => { x with seq := sq }
  let s ← match s.handLog (logRecord u.op (s.idxCl i) i u.list u.item u.attr sq u.code 0) with
    | some (s, _) => .ok s
    | none => .error (if s.logRefused then .code .quota else .log)
  let (s, dead) ← s.stampDead i u.item v
  if u.op = 2 then
    return (if dead = 0 then s.addF F.VINT_STAT_DELETE_MISS i 1 else match s.locate i u.item with
      | some l => s.locDrop i u.item l.unit l.block l.slot
      | none => s, dead)
  else
    let (s, l) ← s.appendEntry i v u
    let s ← s.setLoc i l
    return (s, dead + 1)

/-- R69, R70, R71: updates in order, all or none: the state, the entries touched, the updates that stamped something. -/
def State.stageAll (s : State) (i v : Nat) : List Upd → Except UpdFail (State × Nat × Nat)
  | [] => .ok (s, 0, 0)
  | u :: rest => do
    let (s, n) ← s.stageOne i v u
    let (s, m, k) ← s.stageAll i v rest
    return (s, n + m, k + if n = 0 then 0 else 1)

/-- R70: every item that has no record finds an empty slot. -/
def State.locRoom (s : State) (i : Nat) : List Upd → Bool
  | [] => true
  | u :: rest =>
    if u.op = 2 then s.locRoom i rest
    else match s.locSet i ⟨u.item, 0, 0, 0⟩ with
      | some t => State.locRoom t i rest
      | none => false

/-- R551, R69: an update that can be staged at all. -/
def State.updOk (s : State) (i : Nat) (u : Upd) : Bool :=
  u.item != Config.noItem && (u.op == 2 || (decide (u.list < s.f F.VINT_IDX_CFG_LIST_COUNT i) &&
    (match s.chains i u.list with | .error .invalidArg => false | _ => true)))

/-- R75: k more updates are stamped for the open vintage: a close is due when their count reaches UPD_COUNT, or stands at or above it
with no close started. -/
def State.countStamped (s : State) (i k : Nat) : State :=
  let before := (s.idx i).stamped
  let s := s.setIdx i fun x => { x with stamped := before + k }
  let lim := s.f F.VINT_TRIG_UPD_COUNT i
  if lim ≠ 0 ∧ k ≠ 0 ∧ lim ≤ before + k ∧ (before < lim ∨ (s.idx i).close = none) then s.triggerClose i else s

/-- R70, R71, R75: a list of updates staged in the open vintage; the count trigger follows. -/
def State.stage (s : State) (i : Nat) (us : List Upd) : Except UpdFail (State × Nat × Nat) := do
  if !us.all (s.updOk i) then .error (.code .invalidArg)
  if !(s.locRoom i us) then .error (.code .quota)
  let v := (s.idx i).openV
  let (s, n, k) ← s.stageAll i v us
  return (s.countStamped i k, n, v)

/-- R68: a record of a batch array; none when it is not valid: its fields are held to the index and to the rules of a single update
(log entry 103). -/
def batchRecord (i cl : Nat) (d : Bytes) : Option Upd :=
  let op := byteAt d 0
  let n := codeLen cl
  if (op == 1 || op == 2) && byteAt d 1 == cl && leAt d 2 2 == i && allZero d 24 8 && allZero d 96 32 &&
      allZero d (32 + n) (64 - n) && (op == 1 || (allZero d 4 4 && allZero d 16 8 && allZero d 32 64)) then
    some ⟨op, leAt d 4 4, leAt d 8 8, leAt d 16 8, slice d 32 n⟩
  else none

/-- R68: the updates that a command names, or its code. -/
def State.updates (s : State) (c i : Nat) (d : Bytes) : State × Except Code (List Upd) :=
  let op := descOp d
  let cl := s.idxCl i
  let n := codeLen cl
  if op = 3 then
    let addr := opN d 8 8
    let count := opN d 16 8
    if !(opZero d 4 4 && opZero d 32 64) || decide (2 ^ 52 ≤ addr) || addr % 128 != 0 || decide (65536 < count) then
      (s, .error .invalidArg)
    else
      let (s, b, code) := s.ctxLoad c addr (128 * count)
      if code != .ok then (s, .error code)
      else
        let rs := (pieces 128 b).map (batchRecord i cl)
        (s, if rs.all (·.isSome) then .ok (rs.filterMap id) else .error .invalidArg)
  else if op = 2 then
    (s, if opZero d 4 4 && opZero d 16 8 && opZero d 32 64 then .ok [⟨2, 0, opN d 8 8, 0, []⟩] else .error .invalidArg)
  else
    (s, if opZero d (32 + n) (64 - n) then .ok [⟨1, opN d 4 4, opN d 8 8, opN d 16 8, slice d 64 n⟩] else .error .invalidArg)

/-- R454, R455: what ends an update command: as any command on the index, but that batches run on a node that waits for its
first commit while HOLD is 1, as step 5 of a return to service asks (log entry 62). -/
def State.updCheck (s : State) (c i op : Nat) : Option Code :=
  match s.idxCheck c i with
  | some .fenced => match s.idxComp i with
    | some (n, _) => if op = 3 ∧ s.on F.FLT_ADMIT_HOLD n then none else some .fenced
    | none => some .fenced
  | x => x

/-- R70, R71, R90, R261: an update command. It waits, staging nothing, while its log records or blocks cannot be had. -/
def updateCmd (c q op : Nat) (s : State) : State :=
  s.runCmd c q op fun s r =>
    let d := r.desc
    let i := opN d 2 2
    let n := s.f F.VINT_IDX_CFG_PARTITION i
    let area : Code := if decide (4096 ≤ i) || decide (2 ≤ byteAt d 33) || !opZero d 24 8 then .invalidArg else .ok
    let code := area.worst (if 4096 ≤ i then .ok else ((s.updCheck c i op).getD .ok).worst
      (if !s.hasPers n persUpdate then .invalidArg else if s.fencedFor n [persUpdate] then .reset else .ok))
    if code.bad then s.finishCode c q code
    else match s.updates c i d with
      | (s, .error k) => s.finishCode c q k
      | (s, .ok []) => s.finishCode c q .ok
      | (s, .ok us) =>
        let since : Nat := match r.work with | .logWait t | .blockWait t => t | _ => s.now
        match s.stage i us with
        | .error (.code k) => s.finishCode c q k
        | .error .block => s.setWork c q (.blockWait since)
        | .error .log => s.setWork c q (.logWait since)
        | .ok (s, k, v) =>
          (s.setReq c q fun r => { r with work := .stamped v (bit (byteAt d 33) 0) k, index := some i, vintage := v }).completeUpdates i

/-- INSERT: R70, R71. -/
def execInsert (c : BitVec 12) (q : BitVec 16) (s : State) : Host.Outcome State Fault Refusal :=
  gated s (updateCmd c.toNat q.toNat 1)

/-- DELETE: R70, R71. -/
def execDelete (c : BitVec 12) (q : BitVec 16) (s : State) : Host.Outcome State Fault Refusal :=
  gated s (updateCmd c.toNat q.toNat 2)

/-- BATCH: R68, R69. -/
def execBatch (c : BitVec 12) (q : BitVec 16) (s : State) : Host.Outcome State Fault Refusal :=
  gated s (updateCmd c.toNat q.toNat 3)

/-- R90, R261: an update that has waited 100 ms. -/
def waitTimeout (since : Work → Option Nat) (c q : Nat) (s : State) : State :=
  match s.req c q with
  | some r => match since r.work with
    | some t => if s.due t 100000 then (s.detach c q).finishCode c q .quota else s
    | none => s
  | none => s

/-- SPILL_WAIT_TIMEOUT: R90. -/
def execSpillWaitTimeout (c : BitVec 12) (q : BitVec 16) (s : State) : Host.Outcome State Fault Refusal :=
  gated s (waitTimeout (fun | .blockWait t => some t | _ => none) c.toNat q.toNat)

/-- LOG_WAIT_TIMEOUT: R261. -/
def execLogWaitTimeout (c : BitVec 12) (q : BitVec 16) (s : State) : Host.Outcome State Fault Refusal :=
  gated s (waitTimeout (fun | .logWait t => some t | _ => none) c.toNat q.toNat)

/-- LOG_FLUSH: R261: LOG_FLUSH_US after the oldest record, or once four frames are full. -/
def execLogFlush (s : State) : Host.Outcome State Fault Refusal :=
  gated s fun s =>
    if s.cellar.logBuf = [] then s
    else if s.due ((s.cellar.logBuf.head?.map (·.since)).getD 0) (s.f F.CELLAR_CFG_LOG_FLUSH_US 0) then s.flushLog true
    else if 128 ≤ s.cellar.logBuf.length then s.flushLog false else s

/-- R87: the entry of a slot of a spill block may move to its list's home chain. -/
def State.mayMove (s : State) (i : Nat) (p : Place) (b k : Nat) : Bool :=
  let u := p.chain.unit
  let cl := s.idxCl i
  let h := s.hdr u b
  s.idxOn i && s.updateTile i && p.chain.spill && h.ok i p.list cl && decide (k < h.used) && (s.entry u b cl k).death == noDeath &&
    s.entryCode u b cl k == .ok

/-- R87: an entry moved: its log record, the old entry stamped dead, the new one appended and located, and the open vintage counts
it. -/
def State.moveEntry (s : State) (i : Nat) (p : Place) (cs : List Chain) (b k : Nat) : Except UpdFail State := do
  let cl := s.idxCl i
  let e := s.entry p.chain.unit b cl k
  let v := (s.idx i).openV
  let sq := (s.idx i).seq + 1
  let s := s.setIdx i fun x => { x with seq := sq }
  let s ← match s.handLog (logRecord 4 cl i p.list e.item e.attr sq e.code 0) with
    | some (s, _) => .ok s
    | none => .error .log
  let (j, ch) ← match homeChain cs with | some x => .ok x | none => .error .block
  let (s, _) ← s.stampDead i e.item v
  let (s, l) ← s.appendTo i p.list j ch v (s.published i) ⟨4, p.list, e.item, e.attr, e.code⟩
  let s ← s.setLoc i l
  return s.countStamped i 1

/-- SPILL_MOVE: R87: an entry of a spill chain moves to a home chain as an update of the open vintage. -/
def execSpillMove (i : BitVec 12) (at_ : BlockAt) (slot : BitVec 8) (s : State) : Host.Outcome State Fault Refusal :=
  gated s fun s =>
    match s.placeIn i.toNat at_.list.toNat at_.chain.toNat at_.block.toNat, s.chains i.toNat at_.list.toNat with
    | some p, .ok cs =>
      if s.mayMove i.toNat p at_.block.toNat slot.toNat then
        match s.moveEntry i.toNat p cs at_.block.toNat slot.toNat with
        | .ok s => s
        | .error _ => s
      else s
    | _, _ => s

/-- R447: a block is due for repair: it holds damage outside the first codeword of its header, and entries of its list. -/
def State.mayRepair (s : State) (i : Nat) (p : Place) (b : Nat) : Bool :=
  let u := p.chain.unit
  s.idxOn i && s.updateTile i && s.blkCode u b 0 4096 != .ok && s.blkCode u b 0 32 == .ok && (s.hdr u b).ok i p.list (s.idxCl i)

/-- R447: a block rewritten without its damaged entries: those whose item is known are deleted with a log record, the others are
counted. -/
def State.repairBlock (s : State) (i : Nat) (p : Place) (b : Nat) : Option State := do
  let cl := s.idxCl i
  let u := p.chain.unit
  let h := s.hdr u b
  let slots := List.range h.used
  let bad := slots.filter fun k => s.entryCode u b cl k != .ok
  let good := slots.filter fun k => s.entryCode u b cl k == .ok
  let named := bad.filter fun k => s.blkCode u b (entOff cl k + codeLen cl) 8 == .ok
  let (s, dst) ← s.takeBlock u (some b) p.chain.spill
  let s := (s.blkNote u b 0 4096).winTime u (writeCycles 128 + if p.prev.isSome then writeCycles 1 else 0)
  let s ← named.foldlM (fun s k =>
    let sq := (s.idx i).seq + 1
    ((s.setIdx i fun x => { x with seq := sq }).handLog
      (logRecord 2 cl i 0 (s.entry u b cl k).item 0 sq [] 0)).map (·.1)) s
  let es := good.map fun k => (k, s.entry u b cl k)
  let nh : Hdr := { h with used := es.length, dead := (es.filter fun (_, e) => e.death != noDeath).length }
  let s := s.blkWrite u dst 0 (slice (nh.bytes ++ (es.map fun (_, e) => e.bytes cl).flatten) 0 4096)
  let s := match p.prev with
    | some pr => s.blkWrite u pr 16 (leBytes 3 dst)
    | none => s.setChain i p.list p.word { p.chain with head := dst }
  let moved := (es.zip (List.range es.length)).map fun ((k, e), n) => (b, k, n, e)
  let dropped := named.map fun k => (b, k, s.entry u b cl k)
  let s := s.followMoves i u dst ⟨false, false, false, true, 1, moved, dropped⟩
  let s := s.addF F.FLT_STAT_REPAIR_UNNAMED 0 (bad.length - named.length)
  some (s.toFreeBlock u b)

/-- BLOCK_REPAIR: R447: a damaged block is rebuilt without the entries that overlap a damaged codeword. A block whose
header codeword is damaged cannot be read and stays (log entry 47). -/
def execBlockRepair (i : BitVec 12) (at_ : BlockAt) (s : State) : Host.Outcome State Fault Refusal :=
  gated s fun s =>
    match s.placeIn i.toNat at_.list.toNat at_.chain.toNat at_.block.toNat with
    | none => s
    | some p => if s.mayRepair i.toNat p at_.block.toNat then (s.repairBlock i.toNat p at_.block.toNat).getD s else s

end Sys2Proof.Machine
end

