-- ==== Sys2Proof/Machine/Press.lean ====
section
/-! DEFINITION. Press units (R105 to R130, R201): the checks of a press command, the queue and its classes, windows with
their status words and records, scans, matrix-vector windows, writes and racks, and the controller's periods, refreshes and
rewrites. -/
namespace Sys2Proof.Machine

/-! Fields of a press command (R106, R107) -/

def pcOp (k : Bytes) : Nat := byteAt k 0
def pcFirst (k : Bytes) : Bool := bit (byteAt k 1) 0
def pcLast (k : Bytes) : Bool := bit (byteAt k 1) 1
def pcThresh (k : Bytes) : Bool := bit (byteAt k 1) 2
def pcLen (k : Bytes) : Nat := leAt k 2 2
def pcBanks (k : Bytes) : Nat := leAt k 4 2
def pcSlots (k : Bytes) : List Nat := onesBelow 16 (leAt k 6 2)
def pcPass (k : Bytes) : Nat := leAt k 12 4
/-- The context of a command, and the tag of its pass: PASS, with the context above it. -/
def pcCtx (k : Bytes) : Nat := leAt k 8 2 % 4096
def passTag (k : Bytes) : Nat := pcPass k + 2 ^ 32 * pcCtx k
def pcVintage (k : Bytes) : Nat := leAt k 16 8

def opScan : Nat := 1
def opAttn : Nat := 2
def opQk : Nat := 3
def opWrite : Nat := 4
def opRack : Nat := 5
def opLut : Nat := 6
def opDiscard : Nat := 7

/-- Block numbers of the pages of an ATTN or QK command. -/
def pcPages (k : Bytes) : List Nat := (List.range (byteAt k 36)).map fun j => leAt k (24 + 3 * j) 3

/-- R109: codewords of one key or value row. -/
def rowCws (d : Nat) : Nat := ceilDiv d 32

/-- The banks of a block (R101). -/
def blockBanks (b : Nat) : Nat := 0xF * 2 ^ (4 * quartet b)

/-- The banks of n codewords from the start of a block on. -/
def spanBanks (b cws : Nat) : Nat :=
  (List.range (ceilDiv cws 128)).foldl (fun m j => m ||| blockBanks (b + j)) 0

/-- R109: the window length of a command. -/
def pcLength (k : Bytes) : Nat :=
  let op := pcOp k
  if op = opScan then 128 * byteAt k 28
  else if op = opAttn then 128 * rowCws (leAt k 38 2) * byteAt k 36
  else if op = opQk then 64 * rowCws (leAt k 38 2) * byteAt k 36
  else if op = opWrite then 2 * (byteAt k 29 + byteAt k 31) + 8
  else if op = opRack then 128 * byteAt k 44 + (if leAt k 40 4 = Config.noBlock then 137 else 138)
  else 0

/-- The banks that a command's blocks occupy. -/
def pcNeeds (k : Bytes) (second : Nat) : Nat :=
  let op := pcOp k
  if op = opScan then blockBanks (leAt k 24 4)
  else if op = opAttn ∨ op = opQk then
    (pcPages k).foldl (fun m b => m ||| spanBanks b ((if op = opQk then 64 else 128) * rowCws (leAt k 38 2))) 0
  else if op = opWrite then blockBanks (leAt k 24 4)
  else if op = opRack then
    blockBanks (leAt k 32 4) ||| blockBanks (leAt k 36 4) |||
      (if leAt k 40 4 = Config.noBlock then 0 else blockBanks (leAt k 40 4)) |||
      (if byteAt k 44 = 2 ∧ second < Config.blocksPerUnit then blockBanks second else 0)
  else 0

/-- R107, R130: the operation area of a command holds only listed values, and 0 in its reserved bytes. -/
def pcAreaOk (k : Bytes) : Bool :=
  let op := pcOp k
  let blk (off : Nat) : Bool := decide (leAt k off 4 < Config.blocksPerUnit)
  if op = opScan then
    let b := byteAt k 29
    blk 24 && decide (1 ≤ byteAt k 28 ∧ byteAt k 28 ≤ 16) && decide (b % 4 < 3) && decide (8 ≤ b / 4 % 16 ∧ b / 4 % 16 ≤ 10) &&
      decide (b / 64 < 3) && decide (b / 4 % 16 = 10 ↔ b / 64 = 2) && decide (leAt k 30 2 < 4096) && allZero k 36 28
  else if op = opAttn ∨ op = opQk then
    let n := byteAt k 36
    let f := byteAt k 37
    let d := leAt k 38 2
    decide (1 ≤ n ∧ n ≤ 4) && decide (3 ≤ f ∧ f ≤ 5) && decide (1 ≤ d ∧ d ≤ 256) &&
      decide (1 ≤ byteAt k 56 ∧ byteAt k 56 ≤ 64) && allZero k 57 7 && allZero k 16 8 &&
      (pcPages k).all fun b => decide (b < Config.blocksPerUnit)
  else if op = opWrite then
    let na := byteAt k 29
    let nb := byteAt k 31
    blk 24 && decide (1 ≤ na ∧ na + nb ≤ 32) && decide (byteAt k 28 + na ≤ 128) && decide (nb = 0 ∨ byteAt k 30 + nb ≤ 128) &&
      allZero k 32 32 && allZero k 16 8
  else if op = opRack then
    blk 32 && blk 36 && (leAt k 40 4 == Config.noBlock || blk 40) && decide (1 ≤ byteAt k 44 ∧ byteAt k 44 ≤ 2) &&
      allZero k 45 3 && allZero k 56 8 && allZero k 16 8
  else if op = opLut then
    let lay := byteAt k 25
    let n := leAt k 26 2
    decide (lay < 3) && decide (byteAt k 24 < (if lay = 1 then 8 else 16)) && n % 64 == 0 && decide (64 ≤ n ∧ n ≤ 16448) &&
      allZero k 28 4 && allZero k 40 24 && allZero k 16 8
  else if op = opDiscard then allZero k 24 40 && allZero k 16 8
  else false

/-- R124: the fields of a slot descriptor. -/
def slotDescOk (d : Bytes) : Bool :=
  decide (byteAt d 12 < 64) && decide (byteAt d 13 ≤ 32) && decide (byteAt d 12 + byteAt d 13 ≤ 64) && decide (byteAt d 14 < 4) &&
    byteAt d 15 == 0 && allZero d 40 24

/-- R108: the fields that every command shares; `part` is the partition of the issuing tile. -/
def pcHeadOk (k : Bytes) (part second : Nat) : Bool :=
  decide (byteAt k 1 < 8) && decide (pcLen k = pcLength k) && decide (leAt k 8 2 < 4096) && byteAt k 11 == part && pcAreaOk k &&
    pcNeeds k second &&& pcBanks k == pcNeeds k second && (decide (pcOp k < opLut) || pcBanks k == 0)

/-! Ownership (R25, R339) -/

/-- The partition that holds or reserves a tile or press unit. -/
def State.tileOwner (s : State) (t : Nat) : Option Nat :=
  let v := s.reg .trlTileOwn (t / 16) / 16 ^ (t % 16) % 16
  if bit v 3 then some (v % 8) else none

def State.pressOwner (s : State) (u : Nat) : Option Nat :=
  let v := s.reg .trlPressOwn (u / 16) / 16 ^ (u % 16) % 16
  if bit v 3 then some (v % 8) else none

/-! Scans -/

/-- R127: mass of a score under a slot's mass function. -/
def massOf (massExp : Bool) (x m : F32) : F32 := if massExp then fExpDiff x m else x

/-- Position of an element of a list that satisfies a test, the k-th such. -/
def kthWhere (p : α → Bool) (l : List α) (k : Nat) : Nat :=
  (((List.range l.length).zip l).filter fun (_, x) => p x).map (·.1) |>.getD k 0

/-- R127: one entry offered to a shortlist. -/
def Slot.offer (z : Slot) (thresh massExp : Bool) (t : F32) (item : BitVec 64) (x : F32) : Slot :=
  let z := if fLt z.max x then { z with left := if massExp then fMul z.left (fExpDiff z.max x) else z.left, max := x } else z
  let add (z : Slot) (y : F32) : Slot := { z with left := fAdd z.left (massOf massExp y z.max) }
  let passed (z : Slot) : Slot := { z with overs := if thresh then satAdd 32 z.overs 1 else z.overs }
  if thresh && fLt x t then add z x
  else if z.kept.length < (if thresh then 64 else 32) then { z with kept := z.kept ++ [⟨item, x⟩] }
  else
    let low := (z.kept.map (·.score)).foldl (fun a y => if fLt y a then y else a) fPosInf
    if fLt low x then
      let n := (z.kept.filter fun e => fEq e.score low).length
      let k := kthWhere (fun e : Short => fEq e.score low) z.kept (Config.evictPick n z.visible % n)
      passed { add z low with kept := z.kept.set k ⟨item, x⟩ }
    else passed (add z x)

/-- R125: the filter tests of a slot descriptor on an attribute word. -/
def filterPass (d : Bytes) (attr : Nat) : Bool :=
  let w := byteAt d 13
  (!bit (byteAt d 14) 1 || Nat.land attr (leAt d 16 8) == leAt d 24 8) &&
    (w == 0 || (let v := attr / 2 ^ byteAt d 12 % 2 ^ w; decide (leAt d 32 4 ≤ v ∧ v ≤ leAt d 36 4)))

/-- R48, R49: the score of an entry's code under a slot. -/
def Slot.score (z : Slot) (fmt cl mode : Nat) (code : Bytes) : F32 :=
  if fmt = 10 then Sys2Proof.Machine.score mode 10 10 z.lut code (codeDim 10 cl)
  else pqScore fmt z.lut code (codeDim fmt cl) (BitVec.ofNat 32 (leAt z.desc 0 4)) (BitVec.ofNat 32 (leAt z.desc 4 4))

/-- R125, R128: one visible entry under one slot. -/
def Slot.entry (z : Slot) (thresh : Bool) (fmt cl mode : Nat) (e : Entry) : Slot :=
  if !filterPass z.desc e.attr then { z with filtered := satAdd 32 z.filtered 1 }
  else
    let x := z.score fmt cl mode e.code
    if fIsNaN x then { z with nan := satAdd 16 z.nan 1, nans := z.nans + 1 }
    else if x = fNegInf then z
    else ({ z with visible := satAdd 32 z.visible 1 }).offer thresh (bit (byteAt z.desc 14) 0)
      (BitVec.ofNat 32 (leAt z.desc 8 4)) (BitVec.ofNat 64 e.item) x

/-- R123: FIRST clears the shortlist, sums and accumulators of a slot. -/
def Slot.clear (z : Slot) : Slot :=
  { z with kept := [], left := fZero, max := fNegInf, visible := 0, filtered := 0, nan := 0, nans := 0, poisoned := 0, overs := 0, flags := 0,
           sum := fZero, acc := [], tokens := 0, scores := [] }

/-- What a walk of a chain met. -/
structure Walk where
  done      : Nat
  idleStart : Nat
  resume    : Nat
  poisoned  : Bool
  uncorr    : Bool
  malformed : Bool
  /-- the codewords read, in order -/
  read      : List Nat
deriving DecidableEq, Repr, Inhabited

/-- What a scan looks for: index, list, entry size, format, mode, vintage, threshold mode. -/
structure ScanArgs where
  index  : Nat
  list   : Nat
  cl     : Nat
  fmt    : Nat
  mode   : Nat
  vint   : Nat
  thresh : Bool
deriving DecidableEq, Repr, Inhabited

/-- R122, R125: the entries of one block under the slots of a scan. -/
def State.scanBlock (s : State) (u b : Nat) (a : ScanArgs) (h : Hdr) (zs : List (Nat × Slot)) (w : Walk) :
    List (Nat × Slot) × Walk :=
  (List.range h.used).foldl (fun (zs, w) k =>
    let each (f : Slot → Slot) : List (Nat × Slot) := zs.map fun (n, z) => (n, f z)
    let poi := s.blkSome u b (entOff a.cl k) (entSize a.cl) .poisoned
    let unc := s.blkSome u b (entOff a.cl k) (entSize a.cl) .uncorrectable
    if poi || unc then
      (each fun z => { z with poisoned := satAdd 16 z.poisoned 1, flags := z.flags ||| b2n poi ||| 2 * b2n unc },
        { w with poisoned := w.poisoned || poi, uncorr := w.uncorr || unc })
    else
      let e := s.entry u b a.cl k
      if !e.ok then (each fun z => { z with flags := z.flags ||| 4 }, { w with malformed := true })
      else if !e.visible a.vint h.base then (zs, w)
      else (each fun z => z.entry a.thresh a.fmt a.cl a.mode e, w)) (zs, w)

/-- R126: the walk of a window from a block on, at most n blocks of the banks it holds. -/
def State.scanWalk (s : State) (u banks : Nat) (a : ScanArgs) : Nat → Nat → List (Nat × Slot) → Walk → List (Nat × Slot) × Walk
  | 0, b, zs, w => (zs, { w with resume := b })
  | n + 1, b, zs, w =>
    let flag (m : Nat) : List (Nat × Slot) := zs.map fun (k, z) => (k, { z with flags := z.flags ||| m })
    let w := { w with read := w.read ++ blkCws u b 0 32, resume := Config.noBlock }
    match s.blkCode u b 0 32 with
    | .poison => (flag 1, { w with poisoned := true, idleStart := w.idleStart + 1 })
    | .uncorrectable => (flag 2, { w with uncorr := true, idleStart := w.idleStart + 1 })
    | _ =>
      let h := s.hdr u b
      if !h.ok a.index a.list a.cl then (flag 4, { w with malformed := true, idleStart := w.idleStart + 1 })
      else
        let (zs, w) := s.scanBlock u b a h zs
          { w with done := w.done + 1, idleStart := w.idleStart + 128, read := w.read ++ blkCws u b 32 4064 }
        if h.next = Config.noBlock then (zs, w)
        else if Nat.land (blockBanks h.next) banks ≠ blockBanks h.next then (zs, { w with resume := h.next })
        else State.scanWalk s u banks a n h.next zs w

/-! Matrix-vector windows (R129) -/

/-- Key and value rows of a page: 64 of each, padded to whole codewords. -/
def State.attnRows (s : State) (u b d first : Nat) : List Bytes :=
  (List.range 64).map fun t => s.blkRead u b (32 * rowCws d * (first + t)) (32 * rowCws d)

/-- R51, R129: the score of one key row under a slot: the dot product times SCALE, and for int8 times SCALE_K; a NaN is
counted and reads as −inf. -/
def Slot.keyScore (z : Slot) (fmt d : Nat) (scaleK : F32) (key : Bytes) : F32 :=
  let x := fMul (dotScore fmt fmt z.lut key d) (BitVec.ofNat 32 (leAt z.desc 0 4))
  if fmt = 5 then fMul x scaleK else x

/-- R129: the scores of a page, tokens beyond `valid` masked, and how many were NaN. -/
def Slot.pageScores (z : Slot) (fmt d : Nat) (scaleK : F32) (keys : List Bytes) (valid : Nat) : List F32 × Nat :=
  let raw := (keys.take valid).map (z.keyScore fmt d scaleK)
  ((raw.map fun x => if fIsNaN x then fNegInf else x) ++ List.replicate (64 - valid) fNegInf, (raw.filter fIsNaN).length)

/-- A value element in fp32. -/
def valueElem (fmt : Nat) (scaleV : F32) (row : Bytes) (j : Nat) : F32 :=
  if fmt = 5 then fMul (fOfSmall (elemInt 5 row j)) scaleV else elemF fmt row j

/-- R129: a page attended under a slot. -/
def Slot.attend (z : Slot) (fmt d : Nat) (scaleK scaleV : F32) (keys vals : List Bytes) (valid : Nat) : Slot :=
  let (xs, nans) := z.pageScores fmt d scaleK keys valid
  let z := { z with nan := satAdd 16 z.nan nans, nans := z.nans + nans, acc := if z.acc.length = d then z.acc else List.replicate d fZero }
  let m := xs.foldl fMax z.max
  if m = fNegInf then z
  else
    let f := if z.max = fNegInf then fZero else fExpDiff z.max m
    let z := { z with sum := fMul z.sum f, acc := z.acc.map (fMul · f), max := m }
    (xs.zip vals).foldl (fun z (x, v) =>
      if x = fNegInf then z
      else
        let p := fExpDiff x m
        { z with sum := fAdd z.sum p, tokens := z.tokens + 1,
                 acc := (z.acc.zip (List.range d)).map fun (o, j) => fAdd o (fMul p (valueElem fmt scaleV v j)) }) z

/-- bf16 as fp32. -/
def bf16 (n : Nat) : F32 := BitVec.ofNat 32 (n % 65536 * 65536)

/-! Records -/

/-- R112: a status word. -/
def statusWord (pass op flags done resume corrected idle : Nat) : Bytes :=
  leBytes 4 pass ++ leBytes 1 op ++ leBytes 1 flags ++ leBytes 2 done ++ leBytes 3 resume ++ zeros 1 ++
    leBytes 2 (min corrected 0xFFFF) ++ leBytes 2 idle

/-- A shortlist with the highest score first. -/
def Slot.ranked (z : Slot) : List Short := sortBy (fun a b => fLt b.score a.score) z.kept

/-- R128: the records of a slot. -/
def Slot.records (z : Slot) (pass n : Nat) (thresh : Bool) : Bytes :=
  let flags := z.flags ||| (if thresh ∧ z.overs ≠ 0 then 8 else 0) ||| (if bit (byteAt z.desc 14) 0 then 16 else 0)
  let body := (z.ranked.map fun e => leBytes 8 e.item.toNat ++ leBytes 4 e.score.toNat ++ leBytes 1 n ++ zeros 3).flatten
  leBytes 4 pass ++ leBytes 1 n ++ leBytes 1 flags ++ leBytes 2 z.kept.length ++ leBytes 4 z.left.toNat ++ leBytes 4 z.max.toNat ++
    leBytes 4 z.visible ++ leBytes 4 z.filtered ++ leBytes 2 z.nan ++ leBytes 2 z.poisoned ++ leBytes 4 z.overs ++
    body ++ zeros ((32 - body.length % 32) % 32)

/-- R201: the attention record of a slot. -/
def Slot.attnRecord (z : Slot) (pass n d : Nat) (qk : Bool) : Bytes :=
  let out := ((if qk then z.scores else if z.acc.length = d then z.acc else List.replicate d fZero).map fun x => leBytes 4 x.toNat).flatten
  leBytes 4 pass ++ leBytes 1 n ++ leBytes 1 (b2n qk) ++ leBytes 2 (min 0xFFFF z.tokens) ++
    leBytes 4 (if qk then 0 else z.max.toNat) ++ leBytes 4 (if qk then 0 else z.sum.toNat) ++ leBytes 2 z.nan ++ zeros 14 ++
    out ++ zeros ((32 - out.length % 32) % 32)

/-! Slots of a unit -/

/-- A slot as it stands; one never loaded is clear. -/
def PressUnit.slot (p : PressUnit) (n : Nat) : Slot := SMap.get (default : Slot).clear p.slots n

/-- R123: where the LUT of a slot starts in the SRAM. -/
def lutStart (layout n : Nat) : Nat := (if layout = 0 then 8192 else if layout = 1 then 16384 else 512) * n

def lutSram : Nat := 131072

/-- The slots of a command with their LUTs, as the window finds them in the SRAM. -/
def PressUnit.pick (p : PressUnit) (k : Bytes) : List (Nat × Slot) :=
  (pcSlots k).map fun n => let z := p.slot n; (n, { z with lut := slice p.sram (lutStart z.layout n) 16384 })

def PressUnit.putSlots (p : PressUnit) (zs : List (Nat × Slot)) : PressUnit :=
  { p with slots := zs.foldl (fun m (n, z) => SMap.ins m n { z with lut := [] }) p.slots }

/-- R106: FIRST clears the named slots before a command starts. -/
def PressUnit.first (p : PressUnit) (k : Bytes) : PressUnit :=
  if pcFirst k then p.putSlots ((pcSlots k).map fun n => (n, { (p.slot n).clear with owner := some (pcCtx k) })) else p

/-- R123: LUT data written to the SRAM; what lies past its end is dropped (log entry 303). -/
def PressUnit.writeLut (p : PressUnit) (a : Nat) (d : Bytes) : PressUnit :=
  { p with sram := putAt (p.sram ++ zeros (min lutSram (a + d.length) - p.sram.length)) a (d.take (lutSram - a)) }

/-- Status flags of a window. -/
def flagBits (poisoned uncorr malformed linked : Bool) : Nat :=
  2 * b2n poisoned + 4 * b2n uncorr + 8 * b2n malformed + 16 * b2n linked

/-! Windows -/

/-- What the effect of a window leaves to emit. -/
structure WinOut where
  status  : Bytes
  records : Bytes
  idle    : Nat
  /-- the codewords written, in order, as they stood before -/
  undo    : List (Nat × Bytes × Syn)
  /-- SCAN, ATTN and QK: status word and slots for each number of blocks or pages short of all -/
  cuts    : List (Bytes × List (Nat × Slot))
  /-- the code with which the request ends at once (R122) -/
  code    : Code
deriving DecidableEq, Repr, Inhabited

/-- A codeword as it stands, check field and all. -/
def State.cwCell (s : State) (cw : Nat) : Nat × Bytes × Syn := (cw, s.bytesP (32 * cw) 32, s.syn cw)

/-- Codewords put back as they stood. -/
def State.putCells (s : State) (l : List (Nat × Bytes × Syn)) : State :=
  l.foldl (fun s (cw, d, x) => (s.putP (32 * cw) d).setSyn cw x) s

/-- NaN scores that slots met since they stood as given. -/
def newNans (zs out : List (Nat × Slot)) : Nat := (out.map fun (_, z) => z.nans).sum - (zs.map fun (_, z) => z.nans).sum

def State.isCorrected (s : State) (cw : Nat) : Bool := match (s.syn cw).read with | .corrected _ => true | _ => false

/-- R121: codewords that a window reads: the counts, and the rewrites that the controller owes. -/
def State.winNotes (s : State) (u : Nat) (l : List Nat) : State :=
  if s.ecc = [] then s else
  let fix := l.filter s.isCorrected
  (l.foldl State.noteCw s).setPu u fun p => { p with rewrites := p.rewrites ++ fix }

/-- R112, R126: the status word of a scan of n blocks; `cut` when the window ended before it. -/
def State.scanStatus (s : State) (k : Bytes) (n : Nat) (w : Walk) (cut : Bool) : Bytes :=
  statusWord (pcPass k) opScan (b2n cut + flagBits w.poisoned w.uncorr w.malformed false) w.done w.resume
    (w.read.filter s.isCorrected).length (if cut then 0 else 128 * n - w.idleStart)

/-- R125 to R128: a SCAN window. -/
def State.scanWin (s : State) (u : Nat) (k : Bytes) : State × WinOut :=
  let n := byteAt k 28
  let b := byteAt k 29
  let a : ScanArgs := ⟨leAt k 30 2, leAt k 32 4, b % 4, b / 4 % 16, b / 64, pcVintage k, pcThresh k⟩
  let z0 := (s.pu u).pick k
  let walk (n : Nat) : List (Nat × Slot) × Walk :=
    s.scanWalk u (pcBanks k) a n (leAt k 24 4) z0 ⟨0, 0, Config.noBlock, false, false, false, []⟩
  let (zs, w) := walk n
  let idle := 128 * n - w.idleStart
  let cuts := (List.range (max 1 w.done)).map fun j => let (z, x) := walk j; (s.scanStatus k n x true, z)
  let recs := if pcLast k then (zs.map fun (n, z) => z.records (pcPass k) n (pcThresh k)).flatten else []
  let status := s.scanStatus k n w false
  let s := ((s.winNotes u w.read).setPu u fun p => p.putSlots zs).addF F.PRESS_LOAD_SCAN_BLOCKS u w.done
  let s := (s.addF F.PRESS_WIN_STAT_IDLE_SLOTS u idle).addF F.PRESS_NUM_STAT_NAN_COUNT u (newNans z0 zs)
  (s, ⟨status, recs, idle, [], cuts, .ok⟩)

/-- R129, R201: an ATTN or QK window; it stops at a page with a damaged codeword, which ends the request (R122). -/
def State.attnWin (s : State) (u : Nat) (k : Bytes) : State × WinOut :=
  let qk := decide (pcOp k = opQk)
  let d := leAt k 38 2
  let fmt := byteAt k 37
  let pages := pcPages k
  let len := 32 * rowCws d * (if qk then 64 else 128)
  let codes := pages.map fun b => s.blkCode u b 0 len
  let good := ((pages.zip codes).takeWhile fun (_, c) => c == .ok).length
  let met := pages.take (good + 1)
  let poi := met.any fun b => s.blkSome u b 0 len .poisoned
  let unc := met.any fun b => s.blkSome u b 0 len .uncorrectable
  let zs := (s.pu u).pick k
  let zs := if qk then zs.map fun (n, z) => (n, { z with scores := [] }) else zs
  let part (n : Nat) : List (Nat × Slot) := ((List.range n).zip pages).foldl (fun zs (j, b) =>
    let keys := s.attnRows u b d 0
    let vals := if qk then [] else s.attnRows u b d 64
    let valid := if j + 1 = pages.length then byteAt k 56 else 64
    let sk := bf16 (leAt k (40 + 2 * j) 2)
    let sv := bf16 (leAt k (48 + 2 * j) 2)
    zs.map fun (n, z) =>
      if qk then
        let (xs, nans) := z.pageScores fmt d sk keys valid
        (n, { z with scores := z.scores ++ xs, nan := satAdd 16 z.nan nans, nans := z.nans + nans })
      else (n, z.attend fmt d sk sv keys vals valid)) zs
  let out := part good
  let fixed (n : Nat) : Nat := ((pages.take n).flatMap fun b => s.blkCorrected u b 0 len).length
  let status (n : Nat) (cut : Bool) : Bytes :=
    statusWord (pcPass k) (pcOp k) (b2n cut + flagBits (!cut && poi) (!cut && unc) false false) n Config.noBlock (fixed (if cut then n else n + 1)) 0
  let cuts := (List.range (max 1 good)).map fun n => (status n true, part n)
  let code := (codes.find? (· != .ok)).getD .ok
  let recs := if pcLast k then (out.map fun (n, z) => z.attnRecord (pcPass k) n d qk).flatten else []
  let word := status good false
  let s := met.foldl (fun s b => s.winRead u b 0 len) s
  let s := (s.setPu u fun p => p.putSlots out).addF F.PRESS_NUM_STAT_NAN_COUNT u (newNans zs out)
  (s, ⟨word, recs, 0, [], cuts, code⟩)

/-- R120: one codeword of a WRITE with its byte enables: the new bytes are merged into what it reads, and a codeword that cannot be
corrected goes back poisoned. -/
def State.writeCw (s : State) (u b cw : Nat) (data : Bytes) (en : List Bool) : State :=
  if en.all id then s.blkWrite u b (32 * cw) data
  else
    let bad := s.blkCode u b (32 * cw) 32 != .ok
    let t := s.blkWrite u b (32 * cw) (((s.blkRead u b (32 * cw) 32).zip (data.zip en)).map fun (o, x, e) => if e then x else o)
    if bad then t.blkPoison u b cw else t

/-- R107, R120: a WRITE window: its codewords in range A and then in range B; those with every byte enabled are not read
(log entry 331). -/
def State.writeWin (s : State) (u : Nat) (j : PressJob) : State × WinOut :=
  let k := j.cmd
  let b := leAt k 24 4
  let cws := (List.range (byteAt k 29)).map (byteAt k 28 + ·) ++ (List.range (byteAt k 31)).map (byteAt k 30 + ·)
  let en (n : Nat) : List Bool := (List.range 32).map fun x => j.enables.getD (32 * n + x) true
  let read := ((List.range cws.length).zip cws).filterMap fun (n, c) => if (en n).all id then none else some c
  let corrected := read.flatMap fun c => s.blkCorrected u b (32 * c) 32
  let seen (x : CwRead) : Bool := read.any fun c => s.blkSome u b (32 * c) 32 x
  let flags := flagBits (seen .poisoned) (seen .uncorrectable) false false
  let undo := cws.map fun c => s.cwCell (blockPhys u b 0 / 32 + c)
  let s := read.foldl (fun s c => s.blkNote u b (32 * c) 32) s
  let s := ((List.range cws.length).zip cws).foldl (fun s (n, c) => s.writeCw u b c (slice j.data (32 * n) 32) (en n)) s
  (s, ⟨statusWord (pcPass k) opWrite flags cws.length Config.noBlock corrected.length 0, [], 0, undo, [], .ok⟩)

/-- R83, R84, R559: a RACK window. -/
def State.rackWin (s : State) (u : Nat) (k : Bytes) : State × WinOut :=
  let src := leAt k 32 4
  let next := (s.hdr u src).next
  let srcs := if byteAt k 44 = 2 ∧ next < Config.blocksPerUnit then [src, next] else [src]
  let pred := if leAt k 40 4 = Config.noBlock then none else some (leAt k 40 4)
  let predRead := match pred with | some p => s.blkCorrected u p 0 32 | none => []
  let corrected := (srcs.flatMap fun b => s.blkCorrected u b 0 4096) ++ predRead
  let tail := (s.hdr u (srcs.getLastD src)).tail
  let cells := (blkCws u (leAt k 36 4) 0 4096 ++ (match pred with | some p => blkCws u p 0 32 | none => [])).map s.cwCell
  let (s, o) := s.rackWindow u srcs (leAt k 36 4) pred (leAt k 24 8) (leAt k 48 8) tail
  (s, ⟨statusWord (pcPass k) opRack (flagBits o.poisoned o.uncorr o.malformed o.linked) o.done Config.noBlock corrected.length 0, [], 0,
    cells, [], .ok⟩)

/-- What a tile receives from a press unit. -/
def State.emitPress (s : State) (u tile : Nat) (b : Bytes) : State :=
  if b = [] then s else { s with pressOut := s.pressOut ++ [⟨u, tile, b⟩] }

/-- R123, R112: LUT_LOAD takes effect. -/
def State.lutWin (s : State) (u : Nat) (j : PressJob) : State :=
  let k := j.cmd
  let n := leAt k 26 2
  let i := byteAt k 24
  (s.setPu u fun p =>
    (p.putSlots [(i, { p.slot i with loaded := true, owner := some (pcCtx k), layout := byteAt k 25, desc := slice j.data 0 64 })]).writeLut
      (lutStart (byteAt k 25) i) (slice j.data 64 (n - 64))).emitPress u j.tile
    (statusWord (pcPass k) opLut 0 (n / 64) Config.noBlock 0 0)

/-- R107, R112: DISCARD takes effect. -/
def State.discardWin (s : State) (u : Nat) (j : PressJob) : State :=
  (s.setPu u fun p => { p with slots := (pcSlots j.cmd).foldl SMap.del p.slots,
                               passes := p.passes.filter (· != passTag j.cmd) }).emitPress u j.tile
    (statusWord (pcPass j.cmd) opDiscard 0 0 Config.noBlock 0 0)

/-! Arbitration (R115, R117) -/

/-- R117: the class of a command: 0 WRITE, 2 RACK, 1 the others. -/
def pressClass (j : PressJob) : Nat := if pcOp j.cmd = opWrite then 0 else if pcOp j.cmd = opRack then 2 else 1

/-- R115, R510: window cycles of a period, scaled by the throttle duty of the stack. -/
def State.pressBudget (s : State) (u : Nat) : Nat :=
  let duty := s.f F.PWR_TEMP_DUTY (7 + u / 64)
  min 0xF7 (s.f F.PRESS_SHARE_RATIO (u / 64)) * 16 * (if duty = 0 then 16 else duty) / 16

/-- R117: a class whose share is used waits while another class has work. -/
def State.classReady (s : State) (u c : Nat) : Bool :=
  let p := s.pu u
  let others := p.queue.any fun j => pressClass j != c
  if c = 0 then decide (p.usedWr < s.f F.VINT_SPILL_CFG_APPEND_SHARE 0 * 16) || !others
  else if c = 2 then decide (p.usedRack < s.f F.VINT_RACK_CFG_RACK_SHARE 0 * 16) || !others
  else true

/-- Ordinary requests wait in a stack: plain accesses from the hosts that wait for a bank (R113). The accesses of commands find
every window's effect in place and wait for none (log entry 302). -/
def State.stackWaits (s : State) (st : Nat) : Bool :=
  [0, 1].any fun p => (s.nl p).inq.any fun r =>
    let a := bits r.pkt.arg.toNat 51 0
    r.passed && inHbm a 1 && s.stackOf a == st

/-- The next command of a unit. -/
def State.nextPress (s : State) (u : Nat) : Option PressJob :=
  [0, 1, 2].findSome? fun c => if s.classReady u c then (s.pu u).queue.find? fun j => pressClass j == c else none

/-- R108, R122: the request for which a command was issued ends: the one of its context whose ring slot PASS [15:0] names, where the
context belongs to the partition of the issuing tile (log entry 301). -/
def State.endPressReq (s : State) (j : PressJob) (k : Code) : State :=
  let c := pcCtx j.cmd
  let q := pcPass j.cmd % 65536
  if s.tileOwner j.tile = some (s.partOf c) ∧ (s.openReqs c).any (·.slot == q) then s.endReq c q k else s

/-- R110, R115, R117, R501: a free unit takes its next command; LUT_LOAD and DISCARD hold no window and let the next one in. Where the
base die sleeps, the command is the work that wakes it, and waits. -/
def State.grantPress : Nat → State → Nat → State
  | 0, s, _ => s
  | fuel + 1, s, u =>
    let p := s.pu u
    if s.pressHalted u then s else
    match p.win, s.nextPress u with
    | none, some j =>
      if s.depth (14 + u / 64) ≠ 0 then s.wakeFor (14 + u / 64) else
      let c := pressClass j
      let take (s : State) : State :=
        s.setPu u fun p => ({ p with queue := dropFirst (fun x => pressClass x == c) p.queue }).first j.cmd
      if pcOp j.cmd = opLut then State.grantPress fuel ((take s).lutWin u j) u
      else if pcOp j.cmd = opDiscard then State.grantPress fuel ((take s).discardWin u j) u
      else if s.stackWaits (u / 64) ∧ s.pressBudget u ≤ p.used then s
      else
        let (s, o) :=
          if pcOp j.cmd = opScan then (take s).scanWin u j.cmd
          else if pcOp j.cmd = opWrite then (take s).writeWin u j
          else if pcOp j.cmd = opRack then (take s).rackWin u j.cmd
          else (take s).attnWin u j.cmd
        let len := pcLen j.cmd
        let tag := passTag j.cmd
        let s := s.setPu u fun p =>
          { p with win := some ⟨j, len, pcBanks j.cmd, o.status, o.records, o.idle, o.undo, o.cuts, len⟩
                   used := p.used + len
                   usedWr := p.usedWr + (if c = 0 then len else 0)
                   usedRack := p.usedRack + (if c = 2 then len else 0)
                   passes := if c = 1 ∧ !p.passes.contains tag then p.passes ++ [tag] else p.passes }
        let s := s.setFs u [(F.PRESS_WIN_LEN_LEN, len), (F.PRESS_WIN_LEN_ELAPSED, 0), (F.PRESS_WIN_LEN_BANKS, pcBanks j.cmd),
          (F.PRESS_WIN_LEN_OP, pcOp j.cmd)]
        if o.code = .ok then s else s.endPressReq j o.code
    | _, _ => s

/-- R111, R112: a window ends: status word, and with LAST the records and the end of the pass. -/
def State.endWindow (s : State) (u : Nat) : State :=
  match (s.pu u).win with
  | none => s
  | some w =>
    let k := w.job.cmd
    let s := (s.clearReg .pressWinLen u).addF F.PRESS_WIN_STAT_WIN_CYCLES u w.len
    let last := pcLast k && pressClass w.job == 1
    let s := s.setPu u fun p =>
      { p with win := none, passes := if last then p.passes.filter (· != passTag k) else p.passes }
    ((s.emitPress u w.job.tile w.status).emitPress u w.job.tile w.records)

/-- R105, R108: a command is refused, or joins its unit's queue and is granted at once when the unit is free. -/
def State.pressCmd (s : State) (t u op : Nat) (j : PressJob) (ok : Bool) : State :=
  let part := (s.tileOwner t).getD 8
  let second := (s.hdr u (leAt j.cmd 32 4)).next
  if s.pressOwner u != some part then s.addF F.PRESS_ERR_REFUSED (u / 64) 1
  else if pcOp j.cmd != op || !pcHeadOk j.cmd part second || !ok then
    (s.addF F.PRESS_ERR_REFUSED (u / 64) 1).endPressReq j .invalidArg
  else if 64 ≤ (s.pu u).queue.length ∨ (s.pressFenced u ∧ op ≠ opWrite) then s
  else
    let s := s.setPu u fun p => { p with queue := p.queue ++ [j] }
    let s := s.setF F.PRESS_LOAD_QUEUE_PEAK u (max (s.f F.PRESS_LOAD_QUEUE_PEAK u) (s.pu u).queue.length)
    State.grantPress 65 s u

/-! Commands -/

/-- SCAN: R125 to R128. -/
def execScan (t : BitVec 6) (u : BitVec 9) (cmd : Bytes) (s : State) : Host.Outcome State Fault Refusal :=
  gated s fun s => s.pressCmd t.toNat u.toNat opScan ⟨t.toNat, cmd, [], []⟩ true

/-- ATTN: R129. -/
def execAttn (t : BitVec 6) (u : BitVec 9) (cmd : Bytes) (s : State) : Host.Outcome State Fault Refusal :=
  gated s fun s => s.pressCmd t.toNat u.toNat opAttn ⟨t.toNat, cmd, [], []⟩ true

/-- QK: R129. -/
def execQk (t : BitVec 6) (u : BitVec 9) (cmd : Bytes) (s : State) : Host.Outcome State Fault Refusal :=
  gated s fun s => s.pressCmd t.toNat u.toNat opQk ⟨t.toNat, cmd, [], []⟩ true

/-- WRITE: R107, R120. -/
def execWrite (t : BitVec 6) (u : BitVec 9) (cmd : Bytes) (data : Bytes) (enables : List Bool) (s : State) :
    Host.Outcome State Fault Refusal :=
  gated s fun s => s.pressCmd t.toNat u.toNat opWrite ⟨t.toNat, cmd, data, enables⟩ true

/-- RACK: R83, R84, R559. -/
def execRack (t : BitVec 6) (u : BitVec 9) (cmd : Bytes) (s : State) : Host.Outcome State Fault Refusal :=
  gated s fun s => s.pressCmd t.toNat u.toNat opRack ⟨t.toNat, cmd, [], []⟩ true

/-- LUT_LOAD: R123: the units of the stack that UNITS names take the same data; a foreign one refuses it for all. -/
def execLutLoad (t : BitVec 6) (st : BitVec 3) (cmd : Bytes) (data : Bytes) (s : State) : Host.Outcome State Fault Refusal :=
  gated s fun s =>
    let units := (onesBelow 64 (leAt cmd 32 8)).map (64 * st.toNat + ·)
    let part := (s.tileOwner t.toNat).getD 8
    if units.any fun u => s.pressOwner u != some part then s.addF F.PRESS_ERR_REFUSED st.toNat 1
    else if pcOp cmd != opLut || !pcHeadOk cmd part 0 || !slotDescOk data then
      (s.addF F.PRESS_ERR_REFUSED st.toNat 1).endPressReq ⟨t.toNat, cmd, data, []⟩ .invalidArg
    else units.foldl (fun s u => s.pressCmd t.toNat u opLut ⟨t.toNat, cmd, data, []⟩ true) s

/-- DISCARD: R107. -/
def execDiscard (t : BitVec 6) (u : BitVec 9) (cmd : Bytes) (s : State) : Host.Outcome State Fault Refusal :=
  gated s fun s => s.pressCmd t.toNat u.toNat opDiscard ⟨t.toNat, cmd, [], []⟩ true

/-- WINDOW_GRANT: R117. -/
def execWindowGrant (u : BitVec 9) (s : State) : Host.Outcome State Fault Refusal :=
  gated s fun s => State.grantPress 65 s u.toNat

/-- R115: a period ends: the cycles of a window in progress that are still to come, and those beyond the budget, fall in the next
one. How far the window has come no rule of the model counts (log entry 48). -/
def State.endPeriod (s : State) (u : Nat) : State :=
  let b := s.pressBudget u
  match (s.pu u).win with
  | none => s.setPu u fun p => { p with used := p.used - b, usedWr := 0, usedRack := 0 }
  | some w =>
    let (s, n) := s.draw
    let rest := Config.pressElapsed n w.rest % (w.rest + 1)
    let c := pressClass w.job
    s.setPu u fun p =>
      { p with win := some { w with rest := rest }, used := (p.used - rest - b) + rest
               usedWr := if c = 0 then rest else 0, usedRack := if c = 2 then rest else 0 }

/-- ACCOUNTING_PERIOD: R115: cycles beyond the budget are charged to the next period. -/
def execAccountingPeriod (st : BitVec 3) (s : State) : Host.Outcome State Fault Refusal :=
  gated s fun s =>
    let units := (s.press.map (·.1)).filter fun u => u / 64 == st.toNat
    units.foldl (fun s u => State.grantPress 65 (s.endPeriod u) u) s

/-- REFRESH: R116: a refresh goes out between windows. -/
def execRefresh (u : BitVec 9) (bank : BitVec 4) (s : State) : Host.Outcome State Fault Refusal :=
  gated s fun s =>
    match (s.pu u.toNat).win with
    | some w => if bit w.banks bank.toNat then s else s.setPu u.toNat fun p => { p with refreshes := p.refreshes + 1 }
    | none => s.setPu u.toNat fun p => { p with refreshes := p.refreshes + 1 }

/-- CORRECTED_REWRITE: R121: a corrected codeword is read, corrected and written back while no window holds its bank. -/
def execCorrectedRewrite (u : BitVec 9) (s : State) : Host.Outcome State Fault Refusal :=
  gated s fun s =>
    match (s.pu u.toNat).rewrites with
    | [] => s
    | cw :: rest =>
      let bank := 4 * quartet (physBlock (32 * cw)) + cw / 32 % 4
      let held := match (s.pu u.toNat).win with | some w => bit w.banks bank | none => false
      if held then s else (s.repairCw cw).setPu u.toNat fun p => { p with rewrites := rest }

end Sys2Proof.Machine
end

