-- ==== Sys2Proof/Machine/Select.lean ====
section
/-! DEFINITION. Selection and merge (R166 to R186): the combination of partial results with its two mass sums, result records,
selection stages with their scratch and counts, and the sub-requests through which nodes work together (R375, R377). -/
namespace Sys2Proof.Machine

/-! Combining partial results (R173) -/

/-- A mass carried over to a new maximum. -/
def rescaleMass (massExp : Bool) (x mp m : F32) : F32 :=
  if mp = fNegInf then fZero
  else if !massExp || (mp == fPosInf && m == fPosInf) then x
  else fMul x (fExpDiff mp m)

/-- R178: a candidate met after one with its item is dropped; the higher score stays in the earlier place. -/
def dedupCands (l : List Cand) : List Cand × Nat :=
  l.foldl (fun (acc, n) c =>
    if acc.any fun x => x.item == c.item then
      (acc.map fun x => if x.item == c.item && fLt x.score c.score then c else x, n + 1)
    else (acc ++ [c], n)) ([], 0)

/-- R169, R177: positions in result order: descending score, and among equal scores an order that no rule fixes. -/
def rankOrder (k : Nat) (l : List Cand) : List Nat :=
  let n := l.length
  let tagged := (l.zip (List.range n)).map fun (c, j) => (c.score, Config.tieRank n k c.item j, j)
  (sortBy (fun a b => fLt b.1 a.1 || (fEq a.1 b.1 && decide (a.2.1 < b.2.1))) tagged).map (·.2.2)

/-- The outcome of a combination: the partial result, its duplicates. -/
structure Merged where
  part : Part
  dups : Nat
deriving DecidableEq, Repr, Inhabited

/-- The lowest kept score of a part. -/
def lowScore (l : List Cand) : F32 := (l.map (·.score)).foldl (fun a x => if fLt x a then x else a) fPosInf

/-- R173, R176: parts combined to their k best. -/
def combine (dedup massExp : Bool) (k : Nat) (parts : List Part) : Merged :=
  let m := parts.foldl (fun a p => fMax a p.max) fNegInf
  let left := parts.foldl (fun a p => fAdd a (rescaleMass massExp p.left p.max m)) fZero
  let all := parts.flatMap (·.cands)
  let (cands, dups) := if dedup then dedupCands all else (all, 0)
  let order := rankOrder k cands
  let top := order.take k
  let outs := (List.range cands.length).filter fun j => !top.contains j
  let at_ (j : Nat) : Cand := cands.getD j default
  let left := outs.foldl (fun a j => fAdd a (massOf massExp (at_ j).score m)) left
  let chosen := top.map at_
  let low := lowScore chosen
  let ties :=
    if k = 0 ∨ chosen.length < k then 0
    else (outs.filter fun j => fEq (at_ j).score low).length +
      (parts.map fun p => if p.cands ≠ [] ∧ fEq (lowScore p.cands) low then p.ties else 0).sum
  ⟨⟨left, m, chosen, ties⟩, dups⟩

/-- R173: the selected sum of a result. -/
def selSum (massExp : Bool) (p : Part) : F32 := p.cands.foldl (fun a c => fAdd a (massOf massExp c.score p.max)) fZero

/-! Result records (R179, R180) -/

/-- What a result header reports beside the partial result. -/
structure ResHead where
  code     : Code
  cond     : Nat
  massExp  : Bool
  k        : Nat
  nan      : Nat
  offered  : Nat
  dups     : Nat
  poisoned : Nat
  pflags   : Nat
  rescans  : Nat
deriving DecidableEq, Repr, Inhabited

def candBytes (c : Cand) : Bytes :=
  leBytes 8 c.item.toNat ++ leBytes 4 c.score.toNat ++ leBytes 1 (b2n c.cheap + 2 * b2n c.exact) ++ zeros 3

/-- R175: a padding entry. -/
def padEntry : Bytes := leBytes 8 Config.noItem ++ leBytes 4 fNegInf.toNat ++ zeros 4

def cap32 (n : Nat) : Bytes := leBytes 4 (min n (2 ^ 32 - 1))

/-- R179: a result record of K entries. -/
def resultRecord (h : ResHead) (p : Part) : Bytes :=
  let n := p.cands.length
  let head := leBytes 1 h.code.num ++ leBytes 1 (b2n h.massExp) ++ leBytes 2 h.cond ++ leBytes 4 n ++ leBytes 4 h.k ++ cap32 p.ties
  let max := if h.offered = 0 then fNegInf else p.max
  let sums := leBytes 4 (selSum h.massExp p).toNat ++ leBytes 4 p.left.toNat ++ leBytes 4 max.toNat ++ cap32 h.nan
  let counts := leBytes 8 h.offered ++ cap32 h.dups ++ cap32 h.poisoned ++ leBytes 2 h.pflags ++ leBytes 2 (min h.rescans 0xFFFF)
  head ++ sums ++ counts ++ zeros 12 ++ (p.cands.map candBytes).flatten ++ (List.replicate (h.k - n) padEntry).flatten

/-- R181: the header of a result that a code ended. -/
def failRecord (k : Code) : Bytes := leBytes 1 k.num ++ zeros 63

/-- An entry of a result record. -/
def candOf (d : Bytes) : Cand := ⟨BitVec.ofNat 64 (leAt d 0 8), BitVec.ofNat 32 (leAt d 8 4), bit (byteAt d 12) 0, bit (byteAt d 12) 1⟩

/-- The partial result that a record holds. -/
def partOfRecord (d : Bytes) : Part :=
  ⟨BitVec.ofNat 32 (leAt d 20 4), BitVec.ofNat 32 (leAt d 24 4),
    (List.range (leAt d 4 4)).map fun j => candOf (slice d (64 + 16 * j) 16), leAt d 12 4⟩

def up64 (n : Nat) : Nat := ceilDiv n 64 * 64

/-- R140: bytes from one result of K entries to the next. -/
def resultStride (k : Nat) : Nat := up64 (64 + 16 * k) + 64

/-! Selection stages -/

/-- R166: passes of a selection. -/
def selPasses (k : Nat) : Nat := if k ≤ 64 then 1 else if k ≤ 1024 then 2 else if k ≤ 16384 then 3 else if k ≤ 262144 then 4 else 5

/-- R166, R321: the stage on which a partition selects k: its first tile and how many tiles it has. -/
def State.selStage (s : State) (n k : Nat) : Option (Nat × Nat) :=
  match (s.part n).img with
  | none => none
  | some g =>
    let first (pers : Nat) : Option TileRec := g.tiles.find? fun t => t.pers == pers
    match (if k ≤ 64 then first persMerge else none).or (first persVector) with
    | none => none
    | some t => some (t.tile, if t.group = 0 then 1 else (g.tiles.filter fun x => x.group == t.group).length)

/-- R168: the selection scratch of a partition holds n bytes. -/
def State.scratchHas (s : State) (part n : Nat) : Bool := decide (n ≤ s.f F.MERGE_SCRATCH_SIZE_MIB part * 2 ^ 20)

/-- R168: merged candidates that a stage holds without scratch. -/
def stageCands (tiles : Nat) : Nat := 98304 * tiles

/-- R168: a merge on one tile reads so many candidates for so many places, from the tile or from the scratch. -/
def State.mergeRoom (s : State) (part count k : Nat) : Code :=
  if stageCands 1 < count ∧ !s.scratchHas part (16 * (count + k)) then .quota else .ok

/-- R186: the counts of one selection; one of no places or no candidates is a selection too (log entry 102). -/
def State.noteSelection (s : State) (tile k rescans dups : Nat) : State :=
  let s := (s.addF F.MERGE_STAT_SELECTIONS tile 1).addF F.MERGE_STAT_MULTIPASS tile (if 1 < selPasses k then 1 else 0)
  (s.addF F.MERGE_STAT_RESCANS tile rescans).addF F.MERGE_STAT_DUPS tile dups

/-! Maps and ranks (R390, R393) -/

/-- The map of a composition slot under an epoch: the current one, or the one that drains (R390). -/
def State.mapOf (s : State) (slot epoch : Nat) : Option CompMap :=
  let x := s.comp slot
  match x.map, x.prev with
  | some m, some p => if p.epoch = epoch ∧ m.epoch ≠ epoch then some p else some m
  | m, _ => m

/-- R393: a rank of a slot's composition is not down. -/
def State.rankUp (s : State) (slot rank : Nat) : Bool := !(s.comp slot).down.contains rank

end Sys2Proof.Machine
end

