-- ==== Sys2Proof/Machine/Search.lean ====
section
/-! DEFINITION. Searches (R138 to R160) and selections over rows (R182, R183): routing and LUTs, passes, widening, boundary
rescans, bitmap and graph scans, exact scores, the parked state of two-phase requests, peers, and the hand-off of a
SEARCH_DELETE. A pass runs whole, in windows of exactly its blocks (log entry 51). -/
namespace Sys2Proof.Machine

/-! The operation area (R138) -/

def srK (d : Bytes) : Nat := opN d 8 4 % 2 ^ 21
def srRerank (d : Bytes) : Nat := opN d 16 2
def srTwoPhase (d : Bytes) : Bool := bit (opN d 1 1) 0
def srMassExp (d : Bytes) : Bool := bit (opN d 1 1) 1
def srBitmap (d : Bytes) : Bool := bit (opN d 1 1) 3
def srGraph (d : Bytes) : Bool := descOp d == 0x11
def srDelete (d : Bytes) : Bool := descOp d == 0x12

/-- R145, R170: K'. -/
def srKp (d : Bytes) : Nat := if srRerank d = 0 then srK d else max (srK d) (srRerank d)

/-- R148: a search with a filter. -/
def srFiltered (d : Bytes) : Bool := bit (opN d 1 1) 2 || srBitmap d || opN d 18 1 != 0

/-- R139, R15, R554, R124: the fields of a search command that do not depend on its index. -/
def srFieldsOk (d : Bytes) : Bool :=
  let addr (off : Nat) : Bool := decide (opN d off 8 < 2 ^ 52)
  let lim := if srGraph d then 1024 else 4096
  decide (opN d 1 1 < 16) && decide (opN d 2 2 < 4096) && decide (opN d 4 2 ≤ 1024) && decide (opN d 6 1 < 16) &&
    decide (opN d 7 1 < 64) && decide (opN d 8 4 ≤ 2 ^ 20) && decide (opN d 12 2 ≤ lim) && (srGraph d || decide (opN d 14 2 ≤ 4096)) &&
    decide (opN d 16 2 ≤ 4096) && decide (opN d 18 1 ≤ 32) && decide (opN d 7 1 + opN d 18 1 ≤ 64) && opN d 19 1 == 0 &&
    opN d 23 1 == 0 && addr 32 && addr 40 && addr 72 && addr 80 && addr 88 && (srBitmap d || opN d 88 8 == 0) &&
    opN d 32 8 % 64 == 0 && opN d 40 8 % 64 == 0 && (srRerank d == 0 || decide (srK d ≤ srRerank d)) &&
    (!srTwoPhase d || opN d 72 8 != 0) && (!srDelete d || srTwoPhase d)

/-- R138, R139: the fields that depend on the index. -/
def State.srIndexOk (s : State) (i : Nat) (d : Bytes) : Bool :=
  let fmt := s.f F.VINT_IDX_CFG_CODE_FMT i
  let qf := opN d 6 1
  s.f F.VINT_IDX_QCFG_DIM i != 0 && (if fmt = 10 then qf == 10 else decide (qf < 3)) &&
    (srRerank d == 0 || (s.on F.VINT_IDX_QCFG_RERANK_EN i && s.f F.VINT_IDX_CFG_MODE i != 2)) &&
    (!srGraph d || s.on F.VINT_IDX_QCFG_GRAPH_DEG i)

/-! What a search asks of a node -/

/-- The arguments of a search on one node. -/
structure Ask where
  d       : Bytes
  index   : Nat
  vint    : Nat
  k       : Nat
  kp      : Nat
  fmt     : Nat
  cl      : Nat
  mode    : Nat
  dim     : Nat
  qfmt    : Nat
  massExp : Bool
  dedup   : Bool
  part    : Nat
deriving DecidableEq, Repr, Inhabited

def State.askOf (s : State) (j : SearchJob) : Ask :=
  let i := j.index
  ⟨j.desc, i, j.vintage, srK j.desc, srKp j.desc, s.f F.VINT_IDX_CFG_CODE_FMT i, s.idxCl i, s.f F.VINT_IDX_CFG_MODE i,
    s.f F.VINT_IDX_QCFG_DIM i, opN j.desc 6 1, srMassExp j.desc, s.on F.MERGE_CFG_DEDUP_SEARCH j.part, j.part⟩

/-- R145: threshold mode. -/
def Ask.thresh (a : Ask) : Bool := decide (32 < a.kp)

/-- Bytes of a query vector, and from one vector of a command to the next. -/
def Ask.queryLen (a : Ask) : Nat := fmtBytes a.qfmt a.dim

def Ask.scan (a : Ask) (l : Nat) : ScanArgs := ⟨a.index, l, a.cl, a.fmt, a.mode, a.vint, a.thresh⟩

/-- R124: the slot descriptor of a query. -/
def Ask.slotDesc (a : Ask) (q : QJob) (t : F32) : Bytes :=
  let d := a.d
  leBytes 4 q.scale.toNat ++ leBytes 4 q.bias.toNat ++ leBytes 4 t.toNat ++ slice d 39 1 ++ slice d 50 1 ++
    leBytes 1 (b2n a.massExp + 2 * b2n (bit (opN d 1 1) 2)) ++ zeros 1 ++ slice d 80 24 ++ zeros 24

def Ask.slot (a : Ask) (q : QJob) (t : F32) : Slot :=
  { (default : Slot).clear with loaded := true, desc := a.slotDesc q t, lut := q.lut }

/-- R27: the context through whose tables a sub-request of a tenant reaches memory here: the tenant's lowest one bound to the
composition (log entry 52). -/
def State.tenantCtx (s : State) (tenant comp : Nat) : Option Nat :=
  (List.range Config.nContexts).find? fun c => s.on F.FAB_CTX_COMP_VALID c && s.tenant c == tenant &&
    (match s.ctxComp c with | some (_, m) => m.id == comp | none => false)

/-- Bytes that a job reads at an address of its command: through its context, or on a peer through a context of its tenant there. -/
def State.jobLoad (s : State) (o : JobOwner) (tenant addr len : Nat) : State × Bytes × Code :=
  match o with
  | .ctx c _ => s.ctxLoad c addr len
  | .peer _ _ _ comp _ _ => match s.tenantCtx tenant comp with
    | some c => s.ctxLoad c addr len
    | none => (s, zeros len, .denied)

/-! Routing (R142, R143) -/

/-- A score that is NaN counts as a value that the manual does not fix (log entry 49). -/
def orNan (k : Nat) (x : F32) : F32 := if fIsNaN x then Config.nanAs k else x

/-- R142: the probe order of a query, and its centroid scores that are NaN (R51). -/
def State.route (s : State) (a : Ask) (query : Bytes) : State × Except Code (List Nat × Nat) :=
  let n := s.f F.VINT_IDX_CFG_LIST_COUNT a.index
  let base := s.fAddr F.VINT_IDX_ROUTE_ADDR a.index
  let row := up64 (2 * a.dim)
  let (s, scores, code, nan) := (List.range n).foldl (fun (s, l, code, nan) c =>
    let (s, d, k) := s.load (base + c * row) (2 * a.dim)
    let x := if a.fmt = 10 then Config.hammingCentroid query d else score a.mode a.qfmt 1 query d a.dim
    (s, (orNan (2 + c) x, c) :: l, code.worst k, nan + b2n (fIsNaN x))) (s, ([] : List (F32 × Nat)), Code.ok, 0)
  let s := s.noteNum a.part persRoute nan 0
  let order := sortBy (fun x y => fLt y.1 x.1 || (fEq x.1 y.1 && decide (x.2 < y.2))) scores
  if code.bad then (s, .error code) else (s, .ok ((order.map (·.2)).take (opN a.d 12 2 + opN a.d 14 2), nan))

/-- R44, R45: fp32 truncated to an unsigned byte, and whether it counts as a saturation. -/
def fByte (x : F32) : Nat × Bool :=
  match fNum x with
  | .nan => (0, true)
  | .inf neg => (if neg then 0 else 255, true)
  | .fin neg m e =>
    let n := if 0 ≤ e then m * 2 ^ e.toNat else m / 2 ^ (-e).toNat
    if neg then (0, decide (0 < n)) else (min 255 n, decide (255 < n))

def fLeast (l : List F32) : F32 :=
  if l.any fIsNaN then Config.nanAs 0 else l.foldl (fun a x => if fLt x a then x else a) (l.headD fZero)

def fMost (l : List F32) : F32 := if l.any fIsNaN then Config.nanAs 1 else l.foldl fMax (l.headD fZero)

/-- R143: 255.0. -/
def f255 : F32 := 0x437F0000#32

/-- R143: the LUT of a PQ query with its scale and bias, from the codebook's bytes, and the saturations of its entries. -/
def pqLut (a : Ask) (query book : Bytes) : (Bytes × F32 × F32) × Nat :=
  let m := codeDim a.fmt a.cl
  let l := if a.fmt = 8 then 16 else 256
  let ds := a.dim / m
  let eb := fmtBits a.qfmt / 8
  let v := (List.range m).map fun j => (List.range l).map fun c =>
    score a.mode a.qfmt 1 (slice query (j * ds * eb) (ds * eb)) (slice book ((j * l + c) * ds * 2) (ds * 2)) ds
  let lo := v.map fLeast
  let sc := fMost ((v.zip lo).map fun (r, x) => fDiv (fSub (fMost r) x) f255)
  let ent (x y : F32) : Nat × Bool := if fEq sc fZero then (0, false) else fByte (fDiv (fSub x y) sc)
  let ents := (v.zip lo).flatMap fun (r, y) => r.map fun x => ent x y
  ((ents.map fun e => BitVec.ofNat 8 e.1, sc, lo.foldl fAdd fZero), (ents.filter (·.2)).length)

/-- R143: LUT, scale and bias of a query. -/
def State.lutOf (s : State) (a : Ask) (query : Bytes) : State × Except Code (Bytes × F32 × F32) :=
  if a.fmt = 10 then (s, .ok (query, fOne, fZero))
  else
    let (s, book, code) := s.load (s.fAddr F.VINT_IDX_BOOK_ADDR a.index) ((if a.fmt = 8 then 16 else 256) * a.dim * 2)
    if code.bad then (s, .error code)
    else
      let (lut, sat) := pqLut a query book
      (s.noteNum a.part persRoute 0 sat, .ok lut)

/-- Bytes of the LUT of a query. -/
def Ask.lutLen (a : Ask) : Nat := if a.fmt = 10 then a.queryLen else codeDim a.fmt a.cl * (if a.fmt = 8 then 16 else 256)

/-! Passes (R144, R125 to R128) -/

/-- The figures of a pass join those of its query. -/
def QJob.addPass (q : QJob) (z : Slot) (r : PassRec) : QJob :=
  { q with own := q.own ++ [r], matched := q.matched + z.visible, filtered := q.filtered + z.filtered, nan := q.nan + z.nans,
           poisoned := q.poisoned + z.poisoned, pflags := q.pflags ||| z.flags % 8 }

/-- What a slot keeps, as a pass. -/
def Slot.passRec (z : Slot) (thresh : Bool) (l : Nat) (ch : Chain) : PassRec :=
  ⟨l, ch.unit, ch.head, ⟨z.left, z.max, z.ranked.map fun e => ⟨e.item, e.score, false, false⟩, 0⟩,
    z.kept.length == (if thresh then 64 else 32), if thresh then z.overs != 0 else decide (z.kept.length < z.visible)⟩

/-- R144: slots of a pass over an index. -/
def State.passSlots (s : State) (i : Nat) : Nat :=
  if s.f F.VINT_IDX_CFG_CODE_FMT i = 9 ∧ s.idxCl i = 2 then 8 else 16

/-- R144: a query joins the pass that is open for a chain, or opens one; true when it joined. -/
def State.joinPass (s : State) (u head slots : Nat) : State × Bool :=
  if (s.pu u).open_.any fun x => x.1 == head && decide (x.2 < slots) then
    (s.setPu u fun p => { p with open_ := replaceFirst (fun x => x.1 == head && decide (x.2 < slots)) (fun x => (x.1, x.2 + 1)) p.open_ }, true)
  else (s.setPu u fun p => { p with open_ := p.open_ ++ [(head, 1)] }, false)

/-- R144: the passes that a dispatch opened have their first windows granted. -/
def State.closePasses (s : State) : State :=
  if s.press.all fun (_, p) => p.open_ == [] then s
  else { s with press := s.press.map fun (u, p) => (u, { p with open_ := [] }) }

/-- R165: the commands of a pass in its unit's queue: LUT_LOADs and SCAN windows, as many at once as the queue takes (log entry 51). -/
def State.notePeak (s : State) (u cmds : Nat) : State :=
  let (s, n) := s.draw
  let most := min 64 (max 1 cmds)
  let k := min 64 ((s.pu u).queue.length + 1 + Config.queuePeak n % most)
  s.setF F.PRESS_LOAD_QUEUE_PEAK u (max (s.f F.PRESS_LOAD_QUEUE_PEAK u) k)

/-- R144: a pass of one chain on its press unit: the windows, and what they read, count once for all the queries that share it. -/
def State.pressPass (s : State) (a : Ask) (q : QJob) (t : F32) (l : Nat) (ch : Chain) : State × QJob :=
  let u := ch.unit
  let z0 := a.slot q t
  let (zs, w) := s.scanWalk u 0xFFFF (a.scan l) Config.blocksPerUnit ch.head [(0, z0)]
    ⟨0, 0, Config.noBlock, false, false, false, []⟩
  let z := (zs.headD (0, default)).2
  let nans := newNans [(0, z0)] [(0, z)]
  let (s, joined) := s.joinPass u ch.head (s.passSlots a.index)
  let s := if joined then s else
    (((s.winNotes u w.read).addF F.PRESS_LOAD_SCAN_BLOCKS u w.done).addF F.PRESS_WIN_STAT_WIN_CYCLES u (128 * w.done)).notePeak u
      (1 + ceilDiv (max 1 w.done) 16)
  (s.addF F.PRESS_NUM_STAT_NAN_COUNT u nans, q.addPass z (z.passRec a.thresh l ch))

/-- What a vector tile meets in a chain: a visible entry, or damage with its flag and whether it hides an entry. -/
inductive Met where
  | entry (e : Entry) | hurt (flag : Nat) (counts : Bool)
deriving DecidableEq, Repr, Inhabited

/-- One entry of a block as a vector tile meets it. -/
def State.metAt (s : State) (u b : Nat) (a : ScanArgs) (h : Hdr) (k : Nat) : Option Met :=
  let flag := b2n (s.blkSome u b (entOff a.cl k) (entSize a.cl) .poisoned) +
    2 * b2n (s.blkSome u b (entOff a.cl k) (entSize a.cl) .uncorrectable)
  if flag ≠ 0 then some (.hurt flag true)
  else
    let e := s.entry u b a.cl k
    if !e.ok then some (.hurt 4 false) else if e.visible a.vint h.base then some (.entry e) else none

/-- R156: a chain read through the controller. -/
def State.chainMets (s : State) (u : Nat) (a : ScanArgs) : Nat → Nat → List Met
  | 0, _ => []
  | n + 1, b =>
    match s.blkCode u b 0 32 with
    | .poison => [.hurt 1 false]
    | .uncorrectable => [.hurt 2 false]
    | _ =>
      let h := s.hdr u b
      if !h.ok a.index a.list a.cl then [.hurt 4 false]
      else (List.range h.used).filterMap (s.metAt u b a h) ++ (if h.next = Config.noBlock then [] else s.chainMets u a n h.next)

/-- The counts of the codewords of a chain that a vector tile reads. -/
def State.noteChain (s : State) (u head : Nat) : State :=
  if s.ecc = [] then s else (s.chainBlocks u Config.blocksPerUnit head).foldl (fun s b => s.blkNote u b 0 4096) s

/-- R156: the bit of an entry in the bitmap of the command. -/
def State.bitmapBit (s : State) (j : SearchJob) (attr : Nat) : State × Bool × Code :=
  let n := attr % 2 ^ 40
  let (s, d, code) := s.jobLoad j.owner j.tenant (opN j.desc 88 8 + n / 8) 1
  (s, bit (byteAt d 0) (n % 8), code)

/-- R125, R156: an entry passes the filters of a search. -/
def State.passes (s : State) (j : SearchJob) (sd : Bytes) (attr : Nat) : State × Bool × Code :=
  if !filterPass sd attr then (s, false, .ok)
  else if srBitmap j.desc then s.bitmapBit j attr else (s, true, .ok)

/-- R156: a pass of one chain on vector tiles. -/
def State.tilePass (s : State) (j : SearchJob) (a : Ask) (q : QJob) (t : F32) (l : Nat) (ch : Chain) : State × Except Code QJob :=
  let mets := s.chainMets ch.unit (a.scan l) Config.blocksPerUnit ch.head
  let (s, z, code) := mets.foldl (fun (s, z, code) m =>
    match m with
    | .hurt f counts => (s, { z with flags := z.flags ||| f, poisoned := satAdd 16 z.poisoned (b2n counts) }, code)
    | .entry e =>
      let (s, ok, k) := s.passes j z.desc e.attr
      let z : Slot := if ok then z.entry a.thresh a.fmt a.cl a.mode e else { z with filtered := satAdd 32 z.filtered 1 }
      (s, z, code.worst k)) (s.noteChain ch.unit ch.head, a.slot q t, Code.ok)
  (s.noteNum a.part persVector z.nans 0, if code.bad then .error code else .ok (q.addPass z (z.passRec a.thresh l ch)))

/-- R168, R171, R186: a chain scanned again in full: its K' best with their tie count; QUOTA when they need more scratch. -/
def State.rescan (s : State) (j : SearchJob) (a : Ask) (q : QJob) (r : PassRec) : State × Except Code Part :=
  let z := a.slot q fNegInf
  let mets := s.chainMets r.unit (a.scan r.list) Config.blocksPerUnit r.head
  let (s, cands) := mets.foldl (fun (s, l) m =>
    match m with
    | .hurt _ _ => (s, l)
    | .entry e =>
      let (s, ok, _) := s.passes j z.desc e.attr
      let x := z.score a.fmt a.cl a.mode e.code
      if ok && !fIsNaN x && x != fNegInf then (s, l ++ [⟨BitVec.ofNat 64 e.item, x, false, false⟩]) else (s, l))
    (s.noteChain r.unit r.head, ([] : List Cand))
  if (s.mergeRoom a.part cands.length a.kp).bad then (s, .error .quota)
  else (s.noteSelection (s.tileOf a.part persVector) a.kp 0 0,
    .ok (combine false a.massExp a.kp [⟨fZero, cands.foldl (fun m c => fMax m c.score) fNegInf, cands, 0⟩]).part)

/-- R142, R144: the passes of one probed list. -/
def State.scanList (s : State) (j : SearchJob) (a : Ask) (t : F32) (q : QJob) (l : Nat) : State × Except Code QJob :=
  let s := s.noteBytes (s.listAddr a.index l) 64
  match s.chains a.index l with
  | .error .invalidArg => (s, .ok { q with pflags := q.pflags ||| 4 })
  | .error k => (s, .error k)
  | .ok cs =>
    (cs.filter fun c => c.head != Config.noBlock).foldl (fun (s, r) ch =>
      match r with
      | .error k => (s, .error k)
      | .ok q =>
        if srBitmap a.d then s.tilePass j a q t l ch
        else if s.pressOwner ch.unit != some a.part then (s, .error .denied)
        else if s.pressFenced ch.unit then
          (s, .error (match j.owner with | .ctx _ _ => .reset | .peer _ _ _ _ _ _ => .fenced))
        else
          let (s, q) := s.pressPass a q t l ch
          (s, .ok q)) (s, .ok q)

/-! The node merge (R170, R171, R173) -/

def Ask.merge (a : Ask) (q : QJob) : Merged := combine a.dedup a.massExp a.kp (q.own.map (·.part))

/-- R170: the threshold of the next round. -/
def Ask.threshold (a : Ask) (q : QJob) : F32 :=
  let p := (a.merge q).part
  if !a.thresh || p.cands.length < a.kp then fNegInf else lowScore p.cands

/-- R171: a boundary pass under boundary score b. -/
def PassRec.boundary (r : PassRec) (b : F32) : Bool := r.full && r.more && !fLt (lowScore r.part.cands) b

/-- R171: the passes of a query after the last round, boundary passes scanned again; how many there were. -/
def State.boundaryScans (s : State) (j : SearchJob) (a : Ask) (q : QJob) : State × Except Code (List PassRec × Nat) :=
  let p := (a.merge q).part
  let b := fMax q.floor (if p.cands.length < a.kp then fNegInf else lowScore p.cands)
  if a.kp = 0 then (s, .ok (q.own, 0))
  else q.own.foldl (fun (s, x) r => match x with
    | .error k => (s, .error k)
    | .ok (l, n) =>
      if r.boundary b then match s.rescan j a q r with
        | (s, .ok part) => (s, .ok (l ++ [{ r with part := part, full := false }], n + 1))
        | (s, .error k) => (s, .error k)
      else (s, .ok (l ++ [r], n))) (s, .ok ([], 0))

/-- The node merge of a query: its own partial result. R555: a rescan needs a vector tile; R168: the scratch. -/
def State.nodeMerge (s : State) (j : SearchJob) (a : Ask) (q : QJob) : State × Except Code QJob :=
  match s.boundaryScans j a q with
  | (t, .error k) => (t, .error k)
  | (t, .ok (own, n)) =>
    if n ≠ 0 ∧ !s.hasPers a.part persVector then (s, .error .invalidArg)
    else
      let q := { q with own := own, rescans := q.rescans + n }
      let count := (own.map (·.part.cands.length)).sum
      match s.selStage a.part a.kp with
      | none => (s, .error .invalidArg)
      | some (tile, tiles) =>
        if stageCands tiles < count ∧ !s.scratchHas a.part (16 * (count + a.kp)) then (t, .error .quota)
        else
          let m := a.merge q
          (t.noteSelection tile a.kp n m.dups, .ok { q with
            parts := SMap.ins q.parts j.rank m.part, dups := q.dups + m.dups, own := [], scanned := true })

/-! Graph traversals (R157 to R159) -/

/-- An item in the frontier. -/
structure GItem where
  item     : Nat
  score    : F32
  expanded : Bool
deriving DecidableEq, Repr, Inhabited

/-- A traversal. -/
structure GRun where
  frontier : List GItem
  seen     : List Nat
  count    : Nat
  q        : QJob
  cands    : List Cand
  code     : Code
deriving DecidableEq, Repr, Inhabited

/-- R158: the frontier's order. -/
def GItem.before (x y : GItem) : Bool := fLt y.score x.score || (fEq x.score y.score && decide (x.item < y.item))

/-- R157, R70: the entry of an item, with the BASE of its block; the flag of what hides it. -/
def State.itemEntry (s : State) (a : Ask) (item : Nat) : Code × Nat × Option (Entry × Nat) :=
  match s.probe a.index item with
  | .found k l =>
    let code := s.readCode (s.locAddr a.index k) 16
    let met (x : CwRead) : Bool := s.blkSome l.unit l.block 0 32 x || s.blkSome l.unit l.block (entOff a.cl l.slot) (entSize a.cl) x
    let flag := b2n (met .poisoned) + 2 * b2n (met .uncorrectable)
    let h := s.hdr l.unit l.block
    let e := s.entry l.unit l.block a.cl l.slot
    if flag ≠ 0 then (code, flag, none)
    else if h.size != a.cl || h.index != a.index || decide (h.used ≤ l.slot) || e.item != item then (code, 0, none)
    else if !e.ok then (code, 4, none)
    else (code, 0, some (e, h.base))
  | _ => (.ok, 0, none)

/-- R158: an item scored and, when it is visible and passes, offered. -/
def State.graphVisit (s : State) (j : SearchJob) (a : Ask) (z : Slot) (g : GRun) (item : Nat) (offer : Bool) : State × GRun :=
  let (code, flag, found) := s.itemEntry a item
  let s := match s.locate a.index item with
    | some l => ((s.noteProbe a.index item).blkNote l.unit l.block 0 32).blkNote l.unit l.block (entOff a.cl l.slot) (entSize a.cl)
    | none => s.noteProbe a.index item
  let g := { g with code := g.code.worst code, seen := item :: g.seen }
  let put (g : GRun) (x : F32) : GRun :=
    { g with frontier := (sortBy GItem.before (g.frontier ++ [⟨item, x, false⟩])).take (opN a.d 12 2) }
  match found with
  | none =>
    (s, put { g with q := { g.q with pflags := g.q.pflags ||| flag, poisoned := g.q.poisoned + b2n (flag % 4 != 0) } }
      (Config.graphRank item))
  | some (e, base) =>
    let x := z.score a.fmt a.cl a.mode e.code
    let g := put g (if fIsNaN x then Config.graphRank item else x)
    if !offer || !e.visible a.vint base then (s, g)
    else
      let (s, ok, k) := s.passes j z.desc e.attr
      let g := { g with code := g.code.worst k }
      if !ok then (s, { g with q := { g.q with filtered := g.q.filtered + 1 } })
      else if fIsNaN x then (s, { g with q := { g.q with nan := g.q.nan + 1 } })
      else if x = fNegInf then (s, g)
      else (s, { g with q := { g.q with matched := g.q.matched + 1 }, cands := g.cands ++ [⟨BitVec.ofNat 64 item, x, false, false⟩] })

/-- R157: degree of the graph. -/
def State.graphDeg (s : State) (i : Nat) : Nat := 8 * 2 ^ s.f F.VINT_IDX_QCFG_GRAPH_DEG i

/-- R158: one item expanded. -/
def State.graphExpand (s : State) (j : SearchJob) (a : Ask) (z : Slot) (g : GRun) (item : Nat) : State × GRun :=
  let deg := s.graphDeg a.index
  let addr := s.fAddr F.VINT_IDX_GRAPH_ADDR a.index + 64 + item * 8 * deg
  let g := { g with count := g.count + 1,
                    frontier := g.frontier.map fun (x : GItem) => if x.item = item then { x with expanded := true } else x }
  if !inHbm addr (8 * deg) then (s, { g with code := g.code.worst .denied })
  else
    let (s, d, k) := s.load addr (8 * deg)
    (List.range deg).foldl (fun (s, g) n =>
      let x := leAt d (8 * n) 8
      if x = Config.noItem ∨ g.seen.contains x then (s, g) else s.graphVisit j a z g x true) (s, { g with code := g.code.worst k })

/-- R158: the rounds of a traversal. -/
def State.graphRounds (s : State) (j : SearchJob) (a : Ask) (z : Slot) : Nat → GRun → State × GRun
  | 0, g => (s, g)
  | fuel + 1, g =>
    if 16 * opN a.d 14 2 ≤ g.count then (s, { g with q := { g.q with budgetEnd := true } })
    else
      let batch := (g.frontier.filter fun x => !x.expanded).take 64
      let worst := g.frontier.getLast?
      let beaten := decide (g.frontier.length = opN a.d 12 2) && match worst with
        | some w => batch.all fun x => w.before x
        | none => true
      if batch = [] || beaten || g.code.bad then (s, g)
      else
        let (s, g) := batch.foldl (fun (s, g) x => s.graphExpand j a z g x.item) (s, g)
        State.graphRounds s j a z fuel g

/-- R158: the traversal of a query on this node; its candidates go to the node merge. A beam of 0 scans nothing (R139); reserved bytes
of the table's header that are not 0 end the command (R15, R157). -/
def State.graphScan (s : State) (j : SearchJob) (a : Ask) (q : QJob) : State × Except Code QJob :=
  let base := s.fAddr F.VINT_IDX_GRAPH_ADDR a.index
  if opN a.d 12 2 = 0 then (s, .ok { q with own := [⟨0, 0, Config.noBlock, ⟨fZero, fNegInf, [], 0⟩, false, false⟩] }) else
  let (s, d, k) := s.load base 64
  if !k.bad && !allZero d 8 56 then (s, .error .invalidArg) else
  let z := a.slot q fNegInf
  let (s, g) := s.graphVisit j a z ⟨[], [], 0, q, [], k⟩ (leAt d 0 8) false
  let (s, g) := s.graphRounds j a z (16 * opN a.d 14 2 + 2) g
  let s := s.noteNum a.part persVector (g.q.nan - q.nan) 0
  if g.code.bad then (s, .error g.code)
  else
    let p : Part := ⟨fZero, g.cands.foldl (fun m c => fMax m c.score) fNegInf, g.cands, 0⟩
    (s, .ok { g.q with own := [⟨0, 0, Config.noBlock, p, false, false⟩], lists := g.q.lists + g.count })

/-! Rounds (R141, R148) -/

/-- Lists that the next round probes. -/
def nextRound (j : SearchJob) (q : QJob) : List Nat :=
  let n := match j.owner with
    | .ctx _ _ => if q.begun then opN j.desc 12 2 * 2 ^ (q.rounds - 1) else opN j.desc 12 2
    | .peer _ _ _ _ _ _ => q.order.length
  (q.order.drop q.lists).take n

/-- R148: a further round is due. -/
def wantsWiden (j : SearchJob) (q : QJob) : Bool :=
  match j.owner with
  | .ctx _ _ => !srGraph j.desc && srFiltered j.desc && opN j.desc 12 2 != 0 && decide (q.matched < srK j.desc) &&
      decide (q.lists < q.order.length)
  | .peer _ _ _ _ _ _ => false

/-- True when peers return compressed scores and the home node asks for the exact ones after the last round: two phases, or
a search that may widen (log entry 53). -/
def SearchJob.central (j : SearchJob) : Bool :=
  srTwoPhase j.desc || (srRerank j.desc != 0 && srFiltered j.desc && !srGraph j.desc && opN j.desc 14 2 != 0)

/-- Operation data of a sub-request (R375, log entry 53): lists, LUT, scale, bias, threshold, query. -/
def subData (ls : List Nat) (q : QJob) (t : F32) : Bytes :=
  (ls.map (leBytes 4)).flatten ++ q.lut ++ leBytes 4 q.scale.toNat ++ leBytes 4 q.bias.toNat ++ leBytes 4 t.toNat ++ q.query

/-- R170: the threshold of the next round on another rank: the K'-th highest score that its earlier rounds gave. -/
def Ask.peerFloor (a : Ask) (q : QJob) (rank : Nat) : F32 :=
  match SMap.find q.parts rank with
  | some p => if a.thresh && decide (a.kp ≤ p.cands.length) then lowScore p.cands else fNegInf
  | none => fNegInf

/-- R141: the time left that a sub-request carries; 0 when there is no deadline. -/
def State.timeLeft (s : State) (j : SearchJob) : Nat :=
  match j.deadline with
  | some t => max 1 (t - s.now)
  | none => 0

/-- One round of one query: this node's passes, and a sub-request to every other rank. -/
def State.launch (s : State) (id n : Nat) (j : SearchJob) (q : QJob) : State × Except Code QJob :=
  let a := s.askOf j
  let graph := srGraph j.desc
  let q0 := if q.begun then { q with rounds := q.rounds + 1 } else q
  let ls := nextRound j q0
  let t := match j.owner with
    | .ctx _ _ => if q.begun then a.threshold q else fNegInf
    | .peer _ _ _ _ _ _ => q.floor
  let q1 := { q0 with begun := true, lists := if graph then q0.lists else q0.lists + ls.length }
  let mine := j.ranks.contains j.rank
  let (s, r) :=
    if !mine then (s, .ok q1)
    else if graph then s.graphScan j a q1
    else ls.foldl (fun (s, r) l => match r with
      | .error k => (s, .error k)
      | .ok q => s.scanList j a t q l) (s, .ok q1)
  match r, j.comp with
  | .ok q2, some slot =>
    match s.mapOf slot j.epoch with
    | some m =>
      let others := j.ranks.filter (· != j.rank)
      if others.any fun x => !s.rankUp slot x then (s, .error .fenced)
      else
        let phase := if q.begun then 3 else if j.central then 1 else 0
        let s := others.foldl (fun s x =>
          s.sendSub m x (.job id n) j.vintage (s.timeLeft j) phase j.desc (subData (if graph then [] else ls) q2 (a.peerFloor q x))) s
        (s, .ok { q2 with busy := others.length })
    | none => (s, .error .routeStale)
  | r, _ => (s, r)

/-- The rounds of one query as far as they go without peers. -/
def State.rounds (id n : Nat) (j : SearchJob) : Nat → State → QJob → State × Except Code QJob
  | 0, s, q => (s, .ok q)
  | fuel + 1, s, q =>
    if q.scanned || q.busy ≠ 0 then (s, .ok q)
    else if !q.begun || wantsWiden j q then
      match s.launch id n j q with
      | (s, .ok q) => State.rounds id n j fuel s q
      | r => r
    else if j.ranks.contains j.rank then s.nodeMerge j (s.askOf j) q
    else (s, .ok { q with scanned := true })

/-- Every query of a job taken as far as its rounds go. -/
def State.scanJob (s : State) (id : Nat) (j : SearchJob) : State × Except Code SearchJob :=
  let (s, qs, code) := (j.queries.zip (List.range j.queries.length)).foldl (fun (s, qs, code) (q, n) =>
    match State.rounds id n j 20 s q with
    | (s, .ok q) => (s, qs ++ [q], code)
    | (s, .error k) => (s, qs ++ [q], code.worst k)) (s, [], Code.ok)
  (s, if code.bad then .error code else .ok { j with queries := qs })

/-! Exact scores (R150, R151, R174) -/

/-- R253, R258: a read of bytes of a namespace accepted: data at once, a code, or a read that waits for its LUN. -/
def State.startRead (s : State) (ns slot off len : Nat) (deadline : Option Nat) (owner : ReadOwner) :
    State × Option (Except Code Bytes) :=
  let s := s.lookup ns slot
  match s.slotRead ns slot with
  | .here d => (s, some (.ok (slice d off len)))
  | .lost => (s, some (.error .uncorrectable))
  | .unready p =>
    let (s, d) := s.rebuildRead p
    (s, some (match d with
      | some d => .ok (slice d off len)
      | none => .error .uncorrectable))
  | .flash p => (s.setCel fun x => { x with
      reads := x.reads ++ [⟨x.nextRead, ns, slot, off, len, entryOf p, deadline, owner⟩], nextRead := x.nextRead + 1 }, none)

/-- R150: bytes of a full vector. -/
def State.vecLen (s : State) (i : Nat) : Nat := up64 (fmtBytes (s.f F.VINT_IDX_QCFG_VEC_FMT i) (s.f F.VINT_IDX_QCFG_DIM i))

/-- R247, R264: what ends a search that reranks, by the namespace that its index names for the full vectors. -/
def State.rerankNs (s : State) (i tenant : Nat) (d : Bytes) : Code :=
  let ns := s.f F.VINT_IDX_QCFG_RERANK_NS i
  if srRerank d = 0 then .ok
  else if 4096 ≤ ns ∨ !s.nsOn ns then .invalidArg
  else if (s.nsDesc ns).tenant ≠ tenant then .denied else .ok

/-- R151: a deadline has been reached. -/
def State.isLate (s : State) (t : Option Nat) : Bool := match t with | some t => decide (t ≤ s.now) | none => false

/-- R150: the full vector of one candidate asked for; one asked for at or after the deadline comes too late (R151). -/
def State.startVec (s : State) (id n : Nat) (j : SearchJob) (item : Nat) : State × Vec :=
  let ns := s.f F.VINT_IDX_QCFG_RERANK_NS j.index
  let z := s.vecLen j.index
  let at_ := item * z
  if 4096 ≤ ns ∨ 4096 * (s.nsDesc ns).size < at_ + z ∨ s.isLate j.deadline then (s, ⟨item, 0, true, zeros z⟩)
  else (pieceRange 4096 at_ z).foldl (fun (s, v) (p, len) =>
    match s.startRead ns (p / 4096) (p % 4096) len j.deadline (.rerank id n item (p - at_)) with
    | (s, some (.ok d)) => (s, { v with got := putAt v.got (p - at_) d })
    | (s, some (.error _)) => (s, { v with failed := true })
    | (s, none) => (s, { v with left := v.left + 1 })) (s, ⟨item, 0, false, zeros z⟩)

/-- The candidates of a query that this node reranks, and those that each other rank does. -/
def SearchJob.mine (j : SearchJob) (q : QJob) : List Nat :=
  if srTwoPhase j.desc && q.homes ≠ [] then (q.homes.filter fun h => h.2 == j.rank).map (·.1)
  else match SMap.find q.parts j.rank with
    | some p => if q.exact.contains j.rank then [] else p.cands.map (·.item.toNat)
    | none => []

def SearchJob.theirs (j : SearchJob) (q : QJob) : List (Nat × List Nat) :=
  if srTwoPhase j.desc then
    ((j.ranks.filter (· != j.rank)).map fun r => (r, (q.homes.filter fun h => h.2 == r).map (·.1))).filter fun x => x.2 ≠ []
  else (q.parts.filter fun (r, p) => r != j.rank && !q.exact.contains r && p.cands ≠ []).map fun (r, p) => (r, p.cands.map (·.item.toNat))

/-- R150, R153: the reads of a query's own candidates start, and peers are asked for theirs. -/
def State.startRerank (s : State) (id n : Nat) (j : SearchJob) (q : QJob) : State × Except Code QJob :=
  let (s, vecs) := (if srRerank j.desc = 0 then [] else j.mine q).foldl (fun (s, l) x => let (s, v) := s.startVec id n j x; (s, l ++ [v])) (s, [])
  let q := { q with vecs := vecs }
  let rest := if srRerank j.desc = 0 then [] else j.theirs q
  if rest = [] then (s, .ok q)
  else match j.comp with
    | none => (s, .ok q)
    | some slot => match s.mapOf slot j.epoch with
      | none => (s, .error .routeStale)
      | some m =>
        if rest.any fun x => !s.rankUp slot x.1 then (s, .error .fenced)
        else (rest.foldl (fun s (r, items) => s.sendSub m r (.job id n) j.vintage (s.timeLeft j) 2 j.desc
          ((items.map (leBytes 8)).flatten ++ q.query)) s, .ok { q with busy := rest.length })

/-- A final score for a candidate: kept, replaced, or out of the candidate set. -/
def rescore (a : Ask) (vfmt : Nat) (q : QJob) (v : Vec) (c : Cand) : Cand × Bool × Bool :=
  if v.failed then ({ c with cheap := true }, false, false)
  else
    let x := score a.mode a.qfmt vfmt q.query v.got a.dim
    (⟨c.item, x, false, true⟩, fIsNaN x, fIsNaN x || x == fNegInf)

/-- R150, R151, R174: exact scores take the place of compressed ones in a part. -/
def State.applyVecs (s : State) (j : SearchJob) (q : QJob) (key : Nat) : QJob :=
  let a := s.askOf j
  let vfmt := s.f F.VINT_IDX_QCFG_VEC_FMT j.index
  match SMap.find q.parts key with
  | none => q
  | some p =>
    let out := p.cands.map fun c => match q.vecs.find? fun v => v.item == c.item.toNat with
      | some v => rescore a vfmt q v c
      | none => (c, false, false)
    let kept := (out.filter fun x => !x.2.2).map (·.1)
    let m := kept.foldl (fun m c => fMax m c.score) p.max
    let failed := (q.vecs.filter (·.failed)).length
    { q with parts := SMap.ins q.parts key ⟨rescaleMass a.massExp p.left p.max m, m, kept, 0⟩
             nan := q.nan + (out.filter (·.2.1)).length
             dropped := q.dropped + (out.filter (·.2.2)).length
             cheap := q.cheap + failed
             reranked := q.reranked + (q.vecs.length - failed)
             vecs := [] }

/-- The part that holds this node's candidates at the rerank. -/
def SearchJob.ownKey (j : SearchJob) (q : QJob) : Nat := if srTwoPhase j.desc && q.homes ≠ [] then 0 else j.rank

/-! Parked state (R153, R154) -/

/-- The header of a result record that carries a partial result of a query. -/
def QJob.head (q : QJob) (a : Ask) (k cond : Nat) (code : Code) : ResHead :=
  ⟨code, cond, a.massExp, k, q.nan, q.matched - q.dropped - q.dups, q.dups, q.poisoned, q.pflags, q.rescans⟩

/-- R152, R153: the global best RERANK of a query, and the rank that holds each. -/
def globalBest (a : Ask) (q : QJob) : Part × List (Nat × Nat) × Nat :=
  let m := combine (a.dedup && decide (1 < q.parts.length)) a.massExp (srRerank a.d) (q.parts.map (·.2))
  let homes := m.part.cands.map fun c =>
    (c.item.toNat, ((q.parts.find? fun (_, p) => p.cands.any fun x => x.item == c.item && x.score == c.score).map (·.1)).getD 0)
  (m.part, homes, m.dups)

/-- R168, R186: the merge of a query's partial results of several nodes, on the egress tile (R141). -/
def State.noteHome (s : State) (a : Ask) (q : QJob) (k dups : Nat) : State × Code :=
  if q.parts.length ≤ 1 then (s, .ok)
  else
    let count := (q.parts.map fun x => x.2.cands.length).sum
    let code := s.mergeRoom a.part count k
    (if code.bad then s else s.noteSelection (s.tileOf a.part persEgress) k 0 dups, code)

/-- R153: the state of every query, 64 + 16 × RERANK bytes, written and read back; the code is that of its loss. -/
def State.park (s : State) (c : Nat) (j : SearchJob) : State × Code × SearchJob :=
  let a := s.askOf j
  let base := if j.restarted then opN j.desc 80 8 else opN j.desc 72 8
  let k := srRerank j.desc
  let size := 64 + 16 * k
  let (s, code, qs) := (j.queries.zip (List.range j.queries.length)).foldl (fun (s, code, qs) (q, n) =>
    let (p, homes, dups) := globalBest a q
    let (s, _) := s.noteHome a q k dups
    let q := { q with homes := homes, dups := q.dups + dups }
    let (s, k1) := s.ctxStore c (base + n * size) (resultRecord (q.head a k 0 .ok) p)
    let (s, d, k2) := s.ctxLoad c (base + n * size) size
    let p := partOfRecord d
    (s, (code.worst k1).worst k2, qs ++ [{ q with parts := [(0, { p with ties := 0 })] }])) (s, Code.ok, [])
  (s, code, { j with queries := qs })

/-- R154: the query as a restart finds it. -/
def QJob.again (q : QJob) : QJob :=
  { q with lists := 0, begun := false, scanned := false, rounds := 0, matched := 0, filtered := 0, nan := 0, poisoned := 0, pflags := 0,
           dups := 0, rescans := 0, cheap := 0, reranked := 0, dropped := 0, budgetEnd := false, own := [], parts := [], exact := [],
           homes := [], vecs := [], busy := 0 }

/-! Results (R140, R179, R181) -/

/-- R152, R173: the final selection of a query; its duplicates. -/
def finalPart (j : SearchJob) (a : Ask) (k : Nat) (q : QJob) : Part × Nat :=
  let node (r : Nat) (p : Part) : Part := if srRerank j.desc = 0 ∨ q.exact.contains r then p else (combine false a.massExp k [p]).part
  match q.parts with
  | [] => (⟨fZero, fNegInf, [], 0⟩, 0)
  | [(r, p)] => (node r p, 0)
  | l =>
    let m := combine a.dedup a.massExp k (l.map fun (r, p) => node r p)
    (m.part, m.dups)

/-- R168, R186: the selections that the final result of a query takes: the K best of the candidates that this node reranked, and the
merge of the nodes' results. -/
def State.noteFinal (s : State) (j : SearchJob) (a : Ask) (k : Nat) (q : QJob) : State × Code :=
  let own := srRerank j.desc != 0 && q.parts.any fun (r, _) => r == (if srTwoPhase j.desc && q.homes ≠ [] then 0 else j.rank) && !q.exact.contains r
  let s := if own then match s.selStage a.part k with
      | some (tile, _) => s.noteSelection tile k 0 0
      | none => s
    else s
  s.noteHome a q k (finalPart j a k q).2

/-- R140: the search report of a query. -/
def searchReport (j : SearchJob) (q : QJob) : Bytes :=
  leBytes 4 (min q.lists 0xFFFFFFFF) ++ leBytes 2 (min q.rounds 0xFFFF) ++ leBytes 1 (b2n j.restarted + 2 * b2n q.budgetEnd) ++ zeros 1 ++
    leBytes 8 q.matched ++ leBytes 8 q.filtered ++ cap32 q.reranked ++ cap32 q.cheap ++ cap32 j.ranks.length ++ cap32 q.retries ++
    leBytes 8 j.vintage ++ leBytes 4 j.epoch ++ zeros 12

/-- A query's record and report, padded as R140 says; its condition word. -/
def queryResult (j : SearchJob) (a : Ask) (k : Nat) (q : QJob) : Bytes × Nat :=
  let (p, dups) := finalPart j a k q
  let q := { q with dups := q.dups + dups }
  let c := Compl.success (decide (p.cands.length < k)) (decide (q.rounds ≠ 0)) (decide (q.cheap ≠ 0)) 0 0
  let rec_ := resultRecord (q.head a k c.cond c.status) p
  (rec_ ++ zeros (up64 rec_.length - rec_.length) ++ searchReport j q, c.cond)

/-- R29: the completion of a condition word. -/
def Compl.ofConds (w count value : Nat) : Compl := Compl.success (bit w 0) (bit w 1) (bit w 2) count value

/-! Jobs -/

/-- The items of a SEARCH_DELETE by the rank that owns them (R155). -/
def SearchJob.victims (j : SearchJob) (a : Ask) : List (Nat × Nat) :=
  j.queries.flatMap fun q => (finalPart j a a.k q).1.cands.map fun c =>
    (c.item.toNat, ((q.homes.find? fun h => h.1 == c.item.toNat).map (·.2)).getD j.rank)

/-- R155: deletes of items staged here as one batch. -/
def State.stageDeletes (s : State) (i : Nat) (items : List Nat) : Except UpdFail (State × Nat × Nat) :=
  s.stage i (items.map fun x => ⟨2, 0, x, 0, []⟩)

/-- R155, R473, R474: the end of a SEARCH_DELETE once every owner has answered. -/
def State.endHandoff (s : State) (id c q : Nat) (j : SearchJob) (conds : Nat) : State :=
  if j.worst.bad then
    let n := if j.worst == .routeStale || j.worst == .fenced || j.worst == .reset then j.stamped else 0
    (s.dropJob id).finish c q ⟨j.worst, 0, n, 0⟩
  else if j.accepted = 0 then (s.dropJob id).finish c q (Compl.ofConds conds 0 0)
  else ((s.dropJob id).setReq c q fun r =>
    { r with work := .stamped j.highest false j.stamped, index := some j.index, vintage := j.highest, conds := conds }).completeUpdates j.index

/-- R155: the hand-offs of a SEARCH_DELETE: to peers, and to the update tile of this node, which may have to wait for its
log (R261). -/
def State.handOff (s : State) (id c q : Nat) (j : SearchJob) : State :=
  let a := s.askOf j
  let s := s.setJob id { j with phase := .handoff }
  let v := j.victims a
  let conds := j.queries.foldl (fun w x => w ||| (queryResult j a a.k x).2) 0
  let mine := (v.filter fun x => x.2 == j.rank).map (·.1)
  let others := (dedupNat (v.map (·.2))).filter (· != j.rank)
  let local_ : Except UpdFail (State × Nat × Nat) := if mine = [] then .ok (s, 0, 0) else s.stageDeletes j.index mine
  match local_ with
  | .error (.code k) => s.endReq c q k
  | .error _ => s.setReq c q fun r =>
      { r with work := match r.work with | .logWait t => .logWait t | _ => .logWait s.now, conds := conds }
  | .ok (s, n, top) =>
    let j := { j with phase := .handoff, accepted := if mine = [] then 0 else 1, stamped := n, highest := top }
    match (j.comp.bind fun slot => s.mapOf slot j.epoch) with
    | some m =>
      let s := others.foldl (fun s r => s.sendSub m r (.handoff id) j.vintage 0 0 j.desc
        (((v.filter fun x => x.2 == r).map fun x => leBytes 8 x.1).flatten)) s
      let j := { j with handoffs := others.length }
      let s := (s.setJob id j).setReq c q fun r => { r with work := .job id, conds := conds }
      if others = [] then s.endHandoff id c q j conds else s
    | none => (s.setJob id j).endHandoff id c q j conds

/-- R140, R181: the results written; then the completion, or the hand-off of a SEARCH_DELETE. -/
def State.writeResults (s : State) (id : Nat) (j : SearchJob) : State :=
  let a := s.askOf j
  match j.owner with
  | .ctx c q =>
    let outs := (j.queries.zip (List.range j.queries.length)).map fun (x, n) => (queryResult j a a.k x, n)
    let (s, room) := j.queries.foldl (fun (s, k) x => let (s, k') := s.noteFinal j a a.k x; (s, k.worst k')) (s, Code.ok)
    if room.bad then s.failJob id room else
    let (s, code) := s.ctxStores c (outs.map fun (o, n) => (opN j.desc 40 8 + n * resultStride a.k, o.1))
    if code.bad then s.failJob id code
    else if srDelete j.desc then s.handOff id c q j
    else (s.dropJob id).finish c q (Compl.ofConds (outs.foldl (fun w x => w ||| x.1.2) 0) j.queries.length 0)
  | .peer node queue tag comp epoch phase =>
    let k := if phase = 0 then a.k else if phase = 2 then ((j.queries.headD default).parts.map fun x => x.2.cands.length).sum else a.kp
    let plain := { j with desc := if phase = 0 then j.desc else slice j.desc 0 48 ++ zeros 2 ++ slice j.desc 50 78 }
    let (s, room) := j.queries.foldl (fun (s, c) x => let (s, c') := s.noteFinal plain a k x; (s, c.worst c')) (s, Code.ok)
    if room.bad then s.failJob id room
    else (s.dropJob id).sendReply node queue tag comp epoch .ok (j.queries.flatMap fun x => (queryResult plain a k x).1)

/-- R183, R173: the parts of a distributed selection: rank order, or pieces of 16 and then piece order. -/
def selectFinal (j : SearchJob) (q : QJob) : Part × Nat :=
  let k := opN j.desc 4 4 % 2 ^ 21
  let massExp := bit (opN j.desc 1 1) 0
  let dd := bit (opN j.desc 1 1) 1 && bit (opN j.desc 1 1) 2
  let piece := j.rank / 16
  let mine := q.parts.filter fun (r, _) => r / 16 == piece
  let peer := match j.owner with | .ctx _ _ => false | .peer _ _ _ _ _ _ => true
  if peer || j.ranks.length ≤ 16 then
    let m := combine dd massExp k (q.parts.map (·.2))
    (m.part, m.dups)
  else
    let l := if j.rank % 16 = 0 then
        let own := combine dd massExp k (mine.map (·.2))
        (q.parts.takeWhile fun (r, _) => decide (r / 16 < piece)) ++ [(j.rank, own.part)] ++
          (q.parts.filter fun (r, _) => decide (piece < r / 16))
      else q.parts
    let m := combine dd massExp k (l.map (·.2))
    (m.part, m.dups)

/-- R179, R182: the record of a selection written, or sent to the node that asked. -/
def State.endSelect (s : State) (id : Nat) (j : SearchJob) : State :=
  let q := j.queries.headD default
  let k := opN j.desc 4 4 % 2 ^ 21
  let (p, dups) := selectFinal j q
  let count := (q.parts.map fun x => x.2.cands.length).sum
  let many := decide (1 < q.parts.length)
  if many ∧ (s.mergeRoom j.part count k).bad then s.failJob id .quota else
  let s := if many then s.noteSelection (s.tileOf j.part persEgress) k 0 dups else s
  let total := q.dups + dups
  let c := Compl.success (decide (p.cands.length < k)) false false 1 0
  let rec_ := resultRecord ⟨c.status, c.cond, bit (opN j.desc 1 1) 0, k, q.nan, q.matched - total, total, 0, 0, 0⟩ p
  match j.owner with
  | .ctx ctx slot =>
    let (s, code) := s.ctxStore ctx (opN j.desc 32 8) rec_
    if code.bad then s.failJob id code else (s.dropJob id).finish ctx slot c
  | .peer node queue tag comp epoch _ => (s.dropJob id).sendReply node queue tag comp epoch .ok rec_

/-- R350, R473: a job of a suspended context stands still. -/
def State.jobRuns (s : State) (j : SearchJob) : Bool :=
  match j.owner with
  | .ctx c _ => s.ctxState c == ctxEnabled || s.ctxState c == ctxSuspending
  | .peer _ _ _ _ _ _ => true

/-- R154: a job as it restarts: from phase 1, under the map epoch in force. -/
def State.restart (s : State) (j : SearchJob) : SearchJob :=
  let j := { j with queries := j.queries.map QJob.again, restarted := true, phase := .scan }
  match (if j.comp.isSome then s.slotOfObject 0 j.index else none) with
  | some (n, m, o) => { j with comp := some n, epoch := m.epoch, rank := m.rank, ranks := (List.range (objShards o)).map (objFirst o + ·) }
  | none => j

/-- R153, R154: the state is parked and read back, or lost. -/
def State.parkJob (s : State) (id c : Nat) (j : SearchJob) : State × Bool :=
  let (t, code, j') := s.park c j
  if !code.bad then (t.setJob id { j' with phase := .rerank }, true)
  else if srDelete j.desc || j.restarted || opN j.desc 80 8 == 0 then (t.failJob id .stateLost, false)
  else
    let j := t.restart j
    let t := t.setJob id j
    (match j.owner with
      | .ctx c q => t.setReq c q fun r => { r with comp := j.comp, epoch := j.epoch }
      | .peer .. => t, true)

/-- The reads and requests of every query's rerank start. -/
def State.rerankJob (s : State) (id : Nat) (j : SearchJob) : State × Except Code SearchJob :=
  let (s, qs, code) := (j.queries.zip (List.range j.queries.length)).foldl (fun (s, qs, code) (q, n) =>
    match s.startRerank id n j q with
    | (s, .ok q) => (s, qs ++ [q], code)
    | (s, .error k) => (s, qs ++ [q], code.worst k)) (s, [], Code.ok)
  (s, if code.bad then .error code else .ok { j with queries := qs })

/-- True when a search reranks on this node after its rounds. -/
def SearchJob.reranks (j : SearchJob) : Bool :=
  srRerank j.desc != 0 && (match j.owner with
    | .ctx _ _ => true
    | .peer _ _ _ _ _ phase => phase == 0 || phase == 2)

/-- A job taken as far as it goes. -/
def State.runJob : Nat → State → Nat → State
  | 0, s, _ => s
  | fuel + 1, s, id =>
    match s.job id with
    | none => s
    | some j =>
      if !s.jobRuns j then s
      else match j.phase with
        | .scan =>
          if descOp j.desc = 0x14 then (if (j.queries.headD default).busy = 0 then s.endSelect id j else s)
          else match s.scanJob id j with
            | (s, .error k) => s.failJob id k
            | (s, .ok j) =>
              if !j.queries.all (·.scanned) then s.setJob id j
              else
                let peer := match j.owner with | .ctx _ _ => false | .peer _ _ _ _ _ _ => true
                if srTwoPhase j.desc && !peer then State.runJob fuel (s.setJob id { j with phase := .park }) id
                else if j.reranks then match s.rerankJob id j with
                  | (s, .ok j) => State.runJob fuel (s.setJob id { j with phase := .rerank }) id
                  | (s, .error k) => s.failJob id k
                else State.runJob fuel (s.setJob id { j with phase := .write }) id
        | .park => match j.owner with
          | .ctx c _ => match s.parkJob id c j with
            | (s, false) => s
            | (s, true) => match s.job id with
              | some j => if j.phase = .rerank then
                  (match s.rerankJob id j with
                  | (s, .ok j) => State.runJob fuel (s.setJob id j) id
                  | (s, .error k) => s.failJob id k)
                else State.runJob fuel s id
              | none => s
          | .peer _ _ _ _ _ _ => s
        | .rerank =>
          if j.queries.all fun q => q.busy = 0 && q.vecs.all fun v => v.left = 0 then
            let qs := j.queries.map fun q => s.applyVecs j q (j.ownKey q)
            let s := s.noteNum j.part persVector ((qs.map (·.nan)).sum - (j.queries.map (·.nan)).sum) 0
            State.runJob fuel (s.setJob id { j with queries := qs, phase := .write }) id
          else s
        | .write => s.writeResults id j
        | .handoff => s

/-- A job taken as far as it goes, with the lines of cask space that it needs. -/
def State.driveJob (s : State) (id : Nat) : State :=
  match s.job id with
  | none => s
  | some j => State.withLines 64 s j.tenant fun s => s.runJob 64 id

/-- Every job, after something that jobs may wait for has come. -/
def State.wakeJobs (s : State) : State := (s.jobs.map (·.1)).foldl State.driveJob s

/-- One query of a job changed. -/
def State.setQuery (s : State) (id n : Nat) (f : QJob → QJob) : State :=
  match s.job id with
  | some j => s.setJob id { j with queries := modAt j.queries n f }
  | none => s

/-- R150, R151: bytes of a full vector have come, or will not. -/
def State.vecPiece (s : State) (id n item off : Nat) (d : Option Bytes) : State :=
  (s.setQuery id n fun q => { q with vecs := q.vecs.map fun v =>
    if v.item = item then
      { v with left := v.left - 1, failed := v.failed || d.isNone, got := match d with | some b => putAt v.got off b | none => v.got }
    else v }).driveJob id

/-! Answers of peers -/

/-- The figures that a partial result record and its report add to a query. -/
def QJob.addRecord (q : QJob) (graph : Bool) (r rep : Bytes) : QJob :=
  let matched := leAt rep 8 8
  let dups := leAt r 40 4
  { q with nan := q.nan + leAt r 28 4, matched := q.matched + matched, filtered := q.filtered + leAt rep 16 8, dups := q.dups + dups
           dropped := q.dropped + (matched - leAt r 32 8 - dups), poisoned := q.poisoned + leAt r 44 4
           pflags := q.pflags ||| byteAt r 48, rescans := q.rescans + leAt r 50 2, reranked := q.reranked + leAt rep 24 4
           cheap := q.cheap + leAt rep 28 4, lists := q.lists + (if graph then leAt rep 0 4 else 0)
           budgetEnd := q.budgetEnd || bit (byteAt rep 6) 1, busy := q.busy - 1 }

/-- R153: exact scores from the node that holds the candidates; one that it does not return has left the set. -/
def exactFrom (massExp : Bool) (items : List Nat) (got : List Cand) (p : Part) : Part × Nat :=
  let kept := p.cands.filterMap fun c =>
    if !items.contains c.item.toNat then some c
    else (got.find? fun g => g.item == c.item).map fun g => if g.cheap then { c with cheap := true } else g
  let m := kept.foldl (fun m c => fMax m c.score) p.max
  (⟨rescaleMass massExp p.left p.max m, m, kept, 0⟩, p.cands.length - kept.length)

/-- The answer to a sub-request of a search or selection (R152, R153, R183). -/
def State.jobReply (s : State) (id n rank : Nat) (k : Code) (d : Bytes) : State :=
  match s.job id with
  | none => s
  | some j =>
    if k.bad then s.failJob id k
    else
      let a := s.askOf j
      let size := up64 (64 + 16 * leAt d 8 4)
      let rep := slice d size 64
      let p := partOfRecord d
      let f (q : QJob) : QJob :=
        if descOp j.desc = 0x14 then
          { q with parts := SMap.ins q.parts rank p, nan := q.nan + leAt d 28 4, matched := q.matched + leAt d 32 8 + leAt d 40 4,
                   dups := q.dups + leAt d 40 4, busy := q.busy - 1 }
        else if j.phase = .rerank then
          let key := if srTwoPhase j.desc then 0 else rank
          let items := ((j.theirs q).find? fun x => x.1 == rank).map (·.2) |>.getD []
          match SMap.find q.parts key with
          | some old =>
            let (np, gone) := exactFrom a.massExp items p.cands old
            { q with parts := SMap.ins q.parts key np, nan := q.nan + leAt d 28 4, dropped := q.dropped + gone
                     reranked := q.reranked + leAt rep 24 4, cheap := q.cheap + leAt rep 28 4, busy := q.busy - 1 }
          | none => { q with busy := q.busy - 1 }
        else
          let q := q.addRecord (srGraph j.desc) d rep
          let m : Merged := match SMap.find q.parts rank with
            | some old => combine a.dedup a.massExp a.kp [old, p]
            | none => ⟨p, 0⟩
          { q with parts := SMap.ins q.parts rank m.part, dups := q.dups + m.dups, exact := if srRerank j.desc ≠ 0 ∧ !j.central then rank :: q.exact else q.exact }
      (s.setQuery id n f).driveJob id

/-- R155, R474: an owner's answer to a hand-off. -/
def State.handoffReply (s : State) (id : Nat) (k : Code) (d : Bytes) : State :=
  match s.job id with
  | none => s
  | some j =>
    let j := if k.bad then { j with handoffs := j.handoffs - 1, worst := j.worst.worst k }
      else { j with handoffs := j.handoffs - 1, accepted := j.accepted + 1, stamped := j.stamped + leAt d 0 4,
                    highest := max j.highest (leAt d 8 8) }
    let s := s.setJob id j
    match j.owner with
    | .ctx c q => if j.handoffs = 0 then s.endHandoff id c q j (((s.req c q).map (·.conds)).getD 0) else s
    | .peer _ _ _ _ _ _ => s

/-! Serving peers (R141, R388) -/

/-- A job for a sub-request of a search on an index of this node, which arrived at `since`; its time left counts from then (R141). -/
def State.peerSearch (s : State) (owner : JobOwner) (slot epoch rank tenant phase pin left since : Nat) (desc data : Bytes) : State :=
  let i := opN desc 2 2 % 4096
  let part := s.f F.VINT_IDX_CFG_PARTITION i
  let j : SearchJob := ⟨owner, tenant, part, desc, i, pin, if left = 0 then none else some (since + left), some slot, epoch, rank, [rank],
    .scan, [], false, 0, 0, 0, 0, .ok⟩
  let a := s.askOf j
  let id := s.nextJob
  let q0 : QJob := { (default : QJob) with floor := fNegInf }
  let (q, phase') : QJob × JobPhase :=
    if phase = 2 then
      let n := (data.length - a.queryLen) / 8
      let cands := (List.range n).map fun k => (⟨BitVec.ofNat 64 (leAt data (8 * k) 8), fZero, false, false⟩ : Cand)
      ({ q0 with query := slice data (8 * n) a.queryLen, parts := [(rank, ⟨fZero, fNegInf, cands, 0⟩)], begun := true, scanned := true },
        .scan)
    else
      let n := (data.length - a.lutLen - 12 - a.queryLen) / 4
      ({ q0 with order := (List.range n).map fun k => leAt data (4 * k) 4, lut := slice data (4 * n) a.lutLen
                 scale := BitVec.ofNat 32 (leAt data (4 * n + a.lutLen) 4), bias := BitVec.ofNat 32 (leAt data (4 * n + a.lutLen + 4) 4)
                 floor := BitVec.ofNat 32 (leAt data (4 * n + a.lutLen + 8) 4)
                 query := slice data (4 * n + a.lutLen + 12) a.queryLen }, .scan)
  let s : State := { s with nextJob := id + 1 }
  (s.setJob id { j with queries := [q], phase := phase' }).driveJob id

/-- R155, R69: the hand-off of a SEARCH_DELETE at an owner: the code, entries stamped and vintage; none while it must wait. -/
def State.takeHandoff (s : State) (i : Nat) (data : Bytes) : Except UpdFail (State × Bytes) :=
  match s.stageDeletes i ((pieces 8 data).map leNat) with
  | .ok (s, n, v) => .ok (s, leBytes 4 n ++ zeros 4 ++ leBytes 8 v)
  | .error e => .error e

/-! Starting a search -/

/-- R555: the personalities that a search needs in its partition. -/
def State.searchPers (s : State) (n : Nat) (d : Bytes) : Bool :=
  let vec := srBitmap d || srGraph d || srRerank d != 0
  s.hasPers n persRoute && (srBitmap d || srGraph d || s.hasPers n persDispatch) && (s.selStage n (srKp d)).isSome &&
    (!vec || s.hasPers n persVector)

/-- R139: an address range that the context cannot reach. -/
def State.reach (s : State) (c va len : Nat) (write : Bool) : State × Code :=
  match s.ctxMap c va len write with
  | (s, .ok _) => (s, .ok)
  | (s, .error k) => (s, k)

/-- R139, R15, R55: the checks of a search command. -/
def State.searchChecks (s : State) (c : Nat) (d : Bytes) : State × Code :=
  let i := opN d 2 2 % 4096
  let fields := srFieldsOk d && s.srIndexOk i d
  let own := ((s.idxCheck c i).getD .ok).worst (s.rerankNs i (s.tenant c) d)
  let dim := s.f F.VINT_IDX_QCFG_DIM i
  let n := opN d 4 2 % 2048
  let (s, k1) := s.reach c (opN d 32 8) (n * up64 (fmtBytes (opN d 6 1 % 16) dim)) false
  let (s, k2) := s.reach c (opN d 40 8) (n * resultStride (srK d)) true
  let park := n * (64 + 16 * srRerank d)
  let (s, k3) := if srTwoPhase d then s.reach c (opN d 72 8) park true else (s, .ok)
  let (s, k4) := if srTwoPhase d && opN d 80 8 != 0 then s.reach c (opN d 80 8) park true else (s, .ok)
  (s, ((((if fields then Code.ok else .invalidArg).worst own).worst k1).worst k2).worst (k3.worst k4))

/-- R142, R143: one query of a command loaded and routed. -/
def State.newQuery (s : State) (a : Ask) (c n : Nat) : State × Except Code QJob :=
  let (s, query, code) := s.ctxLoad c (opN a.d 32 8 + n * up64 a.queryLen) a.queryLen
  if code.bad then (s, .error code)
  else match (if srGraph a.d then (s, .ok ([], 0)) else s.route a query) with
    | (s, .error k) => (s, .error k)
    | (s, .ok (order, nan)) => match s.lutOf a query with
      | (s, .error k) => (s, .error k)
      | (s, .ok (lut, sc, b)) =>
        let q : QJob := default
        (s, .ok { q with query := query, lut := lut, scale := sc, bias := b, order := order, nan := nan, floor := fNegInf })

/-- R141: the composition slot and epoch to which a search on an index is pinned as it is accepted. -/
def State.idxEpoch (s : State) (i : Nat) : Option Nat × Nat :=
  match s.idxComp i with
  | some (n, m) => (some n, m.epoch)
  | none => (none, 0)

/-- R141: a search begins, under the epoch to which it was pinned: its queries are routed and its job runs. -/
def State.beginSearch (s : State) (c q : Nat) (r : Req) : State :=
  let d := r.desc
  let i := opN d 2 2
  let us := opN d 20 4
  let deadline := if us = 0 then none else some (r.takenAt + us)
  let shard := r.comp.bind fun n => (s.mapOf n r.epoch).bind fun m =>
    if m.epoch ≠ r.epoch then none else (m.object 0 i).map fun o => (n, m, (List.range (objShards o)).map (objFirst o + ·))
  let base : SearchJob := ⟨.ctx c q, s.tenant c, s.f F.VINT_IDX_CFG_PARTITION i, d, i, r.vintage, deadline, none, 0, 0, [0], .scan, [], false,
    0, 0, 0, 0, .ok⟩
  if r.comp.isSome && shard.isNone then s.endReq c q .routeStale else
  let j := match shard with
    | some (n, m, ranks) => { base with comp := some n, epoch := m.epoch, rank := m.rank, ranks := ranks }
    | none => base
  let a := s.askOf j
  let (s, qs, code) := (List.range (opN d 4 2)).foldl (fun (s, qs, code) n =>
    match s.newQuery a c n with
    | (s, .ok x) => (s, qs ++ [x], code)
    | (s, .error k) => (s, qs, code.worst k)) (s, [], Code.ok)
  let id := s.nextJob
  let s : State := { s with nextJob := id + 1 }
  let s := (s.setJob id { j with queries := qs }).setReq c q fun r => { r with work := .job id, comp := j.comp, epoch := j.epoch }
  if code.bad then s.failJob id code else s.runJob 64 id

/-- R144: the requests whose passes are held and which share index, vintage and so partition with a request: context and request. -/
def State.passGroup (s : State) (r : Req) : List (Nat × Req) :=
  s.ctxs.flatMap fun (c, x) => (x.reqs.filter fun y => (match y.work with | .grouped _ => true | _ => false) &&
    y.index == r.index && y.vintage == r.vintage).map fun y => (c, y)

/-- R144: the queries of those requests. -/
def State.grouped (s : State) (r : Req) : Nat := ((s.passGroup r).map fun x => opN x.2.desc 4 2).sum

/-- R144: the held passes that a request belongs to are issued: every request of the group begins, but for those of contexts that do
not run. -/
def State.beginGroup (s : State) (r : Req) : State :=
  ((s.passGroup r).foldl (fun s (c, y) => if s.ctxState c = ctxEnabled then s.beginSearch c y.slot y else s) s).closePasses

/-- R138 to R144: a search command: checked, pinned, and begun at once or held for its group. -/
def searchCmd (c q op : Nat) (s : State) : State :=
  match (s.req c q).map Req.work with
  | some (Work.logWait _) =>
    s.runCmd c q op fun s _ =>
      match s.jobs.find? fun (_, j) => j.owner == .ctx c q && j.phase == .handoff with
      | some (id, j) => s.handOff id c q j
      | none => s
  | _ =>
    s.runCmd c q op fun s r =>
      let d := r.desc
      let i := opN d 2 2 % 4096
      let (s, code) := s.searchChecks c d
      let part := s.f F.VINT_IDX_CFG_PARTITION i
      if code.bad then s.finishCode c q code
      else match s.pinVintage i (opN d 24 8) with
        | none => s.finishCode c q .invalidArg
        | some v =>
          if opN d 4 2 = 0 then s.finishCode c q .ok
          else if !s.searchPers part d || (srDelete d && !s.hasPers part persUpdate) then s.finishCode c q .invalidArg
          else if s.fencedFor part [persRoute, persDispatch, persMerge] then s.endReq c q .reset
          else if (match s.idxComp i with | some (n, _) => (s.comp n).removing | none => false) then s.endReq c q .routeStale
          else
            let pinned (r : Req) : Req := { r with index := some i, vintage := v, comp := (s.idxEpoch i).1, epoch := (s.idxEpoch i).2 }
            let wait := s.f F.TILE_DISPATCH_GROUP_WAIT_NS part
            let s := s.setReq c q pinned
            if srGraph d || srBitmap d || wait = 0 then (s.beginSearch c q (pinned r)).closePasses
            else
              let s := s.setWork c q (.grouped (s.now + ceilDiv wait 1000))
              if s.passSlots i ≤ s.grouped (pinned r) then s.beginGroup (pinned r) else s

/-- SEARCH: R138 to R160. -/
def execSearch (c : BitVec 12) (q : BitVec 16) (s : State) : Host.Outcome State Fault Refusal :=
  gated s (searchCmd c.toNat q.toNat 0x10)

/-- SEARCH_GRAPH: R157 to R159. -/
def execSearchGraph (c : BitVec 12) (q : BitVec 16) (s : State) : Host.Outcome State Fault Refusal :=
  gated s (searchCmd c.toNat q.toNat 0x11)

/-- SEARCH_DELETE: R153 to R155, R474. -/
def execSearchDelete (c : BitVec 12) (q : BitVec 16) (s : State) : Host.Outcome State Fault Refusal :=
  gated s (searchCmd c.toNat q.toNat 0x12)

/-- PASS_GROUP_TIMEOUT: R144, R164: GROUP_WAIT_NS after a pass opened, as it stood then, its first window is issued. -/
def execPassGroupTimeout (c : BitVec 12) (q : BitVec 16) (s : State) : Host.Outcome State Fault Refusal :=
  gated s fun s =>
    let c := c.toNat
    let q := q.toNat
    match s.req c q with
    | some r => match r.work, r.index with
      | .grouped t, some i =>
        if s.ctxState c = ctxEnabled ∧ (t ≤ s.now ∨ s.passSlots i ≤ s.grouped r) then
          State.withLines 64 s (s.tenant c) fun s => s.beginGroup r
        else s
      | _, _ => s
    | none => s

/-! SELECT (R182, R183) -/

/-- R182: the fields of a SELECT. -/
def selectOk (d : Bytes) : Bool :=
  decide (opN d 1 1 < 16) && decide (opN d 2 1 < 3) && opN d 3 1 == 0 && decide (opN d 4 4 ≤ 2 ^ 20) && decide (opN d 8 8 < 2 ^ 40) &&
    decide (opN d 16 8 < 2 ^ 52) && (if bit (opN d 1 1) 2 then decide (opN d 24 8 < 2 ^ 52) else opN d 24 8 == 0) &&
    decide (opN d 32 8 < 2 ^ 52) && opN d 32 8 % 64 == 0 && opZero d 40 56

/-- R182: one row, or one node's slice of it, selected: its partial result, NaN scores, candidates, duplicates. -/
def selectRow (d row ids : Bytes) (rank : Nat) : Part × Nat × Nat × Nat :=
  let flags := opN d 1 1
  let n := opN d 8 8
  let base := if bit flags 3 then rank * n else 0
  let scores := elemsF (opN d 2 1) row n
  let named := (scores.zip (List.range n)).map fun (x, k) =>
    (⟨BitVec.ofNat 64 (if bit flags 2 then leAt ids (8 * k) 8 else base + k), x, false, false⟩ : Cand)
  let cands := named.filter fun c => !fIsNaN c.score && c.score != fNegInf
  let m := combine (bit flags 1 && bit flags 2) (bit flags 0) (opN d 4 4 % 2 ^ 21)
    [⟨fZero, cands.foldl (fun m c => fMax m c.score) fNegInf, cands, 0⟩]
  (m.part, (scores.filter fIsNaN).length, cands.length, m.dups)

/-- R168, R182: the slice of this node selected on a partition. -/
def State.selectHere (s : State) (o : JobOwner) (tenant part : Nat) (d : Bytes) (rank : Nat) : State × Except Code QJob :=
  let n := opN d 8 8
  let k := opN d 4 4 % 2 ^ 21
  match s.selStage part k with
  | none => (s, .error .invalidArg)
  | some (tile, tiles) =>
    if stageCands tiles < n ∧ !s.scratchHas part (16 * k) then (s, .error .quota)
    else
      let (s, row, k1) := s.jobLoad o tenant (opN d 16 8) (n * (fmtBits (opN d 2 1) / 8))
      let (s, ids, k2) := if bit (opN d 1 1) 2 then s.jobLoad o tenant (opN d 24 8) (8 * n) else (s, [], .ok)
      if (k1.worst k2).bad then (s, .error (k1.worst k2))
      else
        let (p, nan, count, dups) := selectRow d row ids rank
        let q : QJob := default
        ((s.noteSelection tile k 0 dups).addF F.TILE_NUM_STAT_NAN_COUNT tile nan, .ok { q with parts := [(rank, p)], nan := nan, matched := count, dups := dups })

/-- R183: a distributed selection at the node that merges `asks` beside its own slice. -/
def State.distSelect (s : State) (o : JobOwner) (tenant part slot : Nat) (m : CompMap) (d : Bytes) (own : Bool) (asks all : List Nat) :
    State × Except Code Nat :=
  let empty : QJob := default
  match (if own then s.selectHere o tenant part d m.rank else (s, .ok empty)) with
  | (s, .error k) => (s, .error k)
  | (s, .ok q) =>
    if asks.any fun r => !s.rankUp slot r then (s, .error .fenced)
    else
      let id := s.nextJob
      let s : State := { s with nextJob := id + 1 }
      let s := asks.foldl (fun s r => s.sendSub m r (.job id 0) 0 0 0 d []) s
      (s.setJob id ⟨o, tenant, part, d, 0, 0, none, some slot, m.epoch, m.rank, all, .scan, [{ q with busy := asks.length }], false, 0, 0, 0, 0,
        .ok⟩, .ok id)

/-- R183: the ranks that the node of a SELECT asks: all others, or with more than 16 the lowest of each piece of 16 and, at such a
one, its own piece. -/
def CompMap.selectAsks (m : CompMap) : List Nat :=
  let lead := m.rank % 16 == 0
  (List.range m.members.length).filter fun r => r != m.rank &&
    (decide (m.members.length ≤ 16) || r % 16 == 0 || (lead && r / 16 == m.rank / 16))

/-- R182: the selection of a row of this node runs as a job. -/
def State.selectOwn (s : State) (c q part : Nat) (d : Bytes) (x : QJob) : State :=
  let id := s.nextJob
  let s : State := { s with nextJob := id + 1 }
  ((s.setJob id ⟨.ctx c q, s.tenant c, part, d, 0, 0, none, none, 0, 0, [0], .scan, [x], false, 0, 0, 0, 0, .ok⟩).setWork c q
    (.job id)).runJob 64 id

/-- SELECT: R182, R183, R166. -/
def execSelect (c : BitVec 12) (q : BitVec 16) (s : State) : Host.Outcome State Fault Refusal :=
  gated s fun s => s.runCmd c.toNat q.toNat 0x14 fun s r =>
    let c := c.toNat
    let q := q.toNat
    let d := r.desc
    let part := s.partOf c
    let k := opN d 4 4 % 2 ^ 21
    let n := opN d 8 8 % 2 ^ 40
    let (s, k1) := s.reach c (opN d 16 8) (n * (fmtBits (opN d 2 1 % 3) / 8)) false
    let (s, k2) := if bit (opN d 1 1) 2 then s.reach c (opN d 24 8) (8 * n) false else (s, .ok)
    let (s, k3) := s.reach c (opN d 32 8) (64 + 16 * k) true
    let code := (((if selectOk d then Code.ok else .invalidArg).worst k1).worst k2).worst k3
    if code.bad then s.finishCode c q code
    else if (s.selStage part k).isNone then s.finishCode c q .invalidArg
    else if s.fencedFor part [persMerge] then s.endReq c q .reset
    else if bit (opN d 1 1) 3 then
      match s.ctxComp c with
      | none => s.finishCode c q .denied
      | some (slot, m) =>
        if (s.comp slot).removing then s.endReq c q .routeStale
        else
          match s.distSelect (.ctx c q) (s.tenant c) part slot m d (decide (m.members.length ≤ 16) || m.rank % 16 == 0) m.selectAsks
              (List.range m.members.length) with
          | (s, .error k) => s.endReq c q k
          | (s, .ok id) => (s.setReq c q fun r => { r with work := .job id, comp := some slot, epoch := m.epoch }).runJob 64 id
    else match s.selectHere (.ctx c q) (s.tenant c) part d 0 with
      | (s, .error k) => s.endReq c q k
      | (s, .ok x) => s.selectOwn c q part d x

/-- R183: a sub-request of a distributed selection: a slice, or at the lowest rank of a piece the whole piece. A peer selects
in the lowest partition that has a stage for it (log entry 54). -/
def State.peerSelect (s : State) (o : JobOwner) (slot : Nat) (m : CompMap) (tenant : Nat) (d : Bytes) : State :=
  let n := m.members.length
  let k := opN d 4 4 % 2 ^ 21
  let part := ((List.range 8).find? fun p => (s.selStage p k).isSome).getD 0
  let asks := if 16 < n ∧ m.rank % 16 = 0 then (List.range n).filter fun r => r != m.rank && r / 16 == m.rank / 16 else []
  match (if s.fencedFor part [persMerge] then (s, .error .fenced) else s.distSelect o tenant part slot m d true asks (m.rank :: asks)) with
  | (s, .error e) => match o with
    | .peer node queue tag comp epoch _ => s.sendReply node queue tag comp epoch e []
    | .ctx _ _ => s
  | (s, .ok id) => s.driveJob id

end Sys2Proof.Machine
end

