-- ==== Sys2Proof/Machine/Attention.lean ====
section
/-! DEFINITION. Retrieval attention (R187 to R212): the lengths table, summaries and the choice of pages, the query conversion,
passes over pages with their combination, output records, and the backward pass. -/
namespace Sys2Proof.Machine

/-! The command (R192 to R195) -/

/-- The fields of an attention command. -/
structure Att where
  d      : Bytes
  bwd    : Bool
  all    : Bool
  save   : Bool
  dkv    : Bool
  fmt    : Nat
  qfmt   : Nat
  dim    : Nat
  hkv    : Nat
  group  : Nat
  nfirst : Nat
  nsel   : Nat
  scale  : F32
  /-- TILE_ATTN_CFG as the request was accepted (R211) -/
  cfg    : Nat
deriving DecidableEq, Repr, Inhabited

/-- R192: 1/√D rounded to nearest even. -/
def invSqrt (d : Nat) : F32 :=
  let n := (List.range 61).foldl (fun a k => if (a + 2 ^ (60 - k)) * (a + 2 ^ (60 - k)) * d ≤ 2 ^ 120 then a + 2 ^ (60 - k) else a) 0
  fRound false n (-60) (decide (n * n * d ≠ 2 ^ 120))

/-- The operation area of a command, under the configuration that it was accepted with. -/
def attOf (d : Bytes) (cfg : Nat) : Att :=
  let fl := opN d 1 1
  let sc := BitVec.ofNat 32 (opN d 16 4)
  let dim := opN d 4 2
  ⟨d, descOp d == 0x19, bit fl 0, bit fl 1, bit fl 2, opN d 2 1, opN d 3 1, dim, opN d 6 2, opN d 8 1, opN d 9 1, opN d 10 2,
    if fEq sc fZero then invSqrt dim else sc, cfg⟩

/-- Query heads of a token (R192). -/
def Att.heads (a : Att) : Nat := a.hkv * a.group

/-- R187: codewords of a row. -/
def Att.w (a : Att) : Nat := rowCws a.dim

/-- R188: bytes from one page to the next, and of a summary. -/
def Att.stride (a : Att) : Nat := 4096 * (if a.w ≤ 1 then 1 else if a.w = 2 then 2 else if a.w ≤ 4 then 4 else 8)
def Att.sumBytes (a : Att) : Nat := 16 + 16 * ceilDiv (2 * a.dim) 16

/-- R194: bytes of a query vector and of an output record. -/
def Att.qs (a : Att) : Nat := up64 (fmtBytes a.qfmt a.dim)
def Att.rs (a : Att) : Nat := 64 + up64 (4 * a.dim)

/-- R207: bytes of a page list. -/
def Att.ls (a : Att) : Nat := 64 + up64 (4 * (a.nfirst + a.nsel))

/-- R192, R195, R15, R554: the checks of the operation area. -/
def Att.ok (a : Att) : Bool :=
  let d := a.d
  let addr (off : Nat) : Bool := decide (opN d off 8 < 2 ^ 52)
  let sc := fNum (BitVec.ofNat 32 (opN d 16 4))
  decide (opN d 1 1 < 8) && decide (3 ≤ a.fmt ∧ a.fmt ≤ 5) && decide (a.qfmt < 3) && decide (1 ≤ a.dim ∧ a.dim ≤ 256) &&
    decide (a.hkv ≤ 256) && decide (a.group ≤ 16) && decide (a.nsel ≤ 4096) && opZero d 14 2 && opZero d 20 4 &&
    (match sc with | .fin _ _ _ => true | _ => false) && addr 24 && addr 32 && addr 40 && addr 48 && addr 56 && addr 64 &&
    opN d 24 8 % 32 == 0 && opN d 32 8 % 64 == 0 && opZero d 72 24 &&
    (if a.bwd then opZero d 40 8 && !a.all && !a.save && !opZero d 48 8 && !opZero d 56 8 && !opZero d 64 8
     else opZero d 56 16 && !(a.all && a.save) && !(a.save && opZero d 48 8))

/-- R193: an entry of the lengths table. -/
structure SeqEnt where
  kvBase  : Nat
  sumBase : Nat
  kvLen   : Nat
  first   : Nat
  cap     : Nat
  count   : Nat
  /-- tokens of the entries before it (R194) -/
  row     : Nat
deriving DecidableEq, Repr, Inhabited

def seqOf (row : Nat) (e : Bytes) : SeqEnt := ⟨leAt e 0 8, leAt e 8 8, leAt e 16 4, leAt e 20 4, leAt e 24 4, byteAt e 28, row⟩

/-- R195: an entry is in order. -/
def seqOk (e : Bytes) : Bool :=
  decide (leAt e 0 8 < 2 ^ 52) && decide (leAt e 8 8 < 2 ^ 52) && leAt e 0 8 % 65536 == 0 && leAt e 8 8 % 16 == 0 &&
    decide (leAt e 16 4 ≤ 64 * leAt e 24 4) && decide (byteAt e 28 ≤ 64) && allZero e 29 3

def SeqEnt.npages (e : SeqEnt) : Nat := ceilDiv e.kvLen 64

/-- R193: the considered pages. -/
def SeqEnt.pages (e : SeqEnt) : List Nat := (List.range e.npages).drop e.first

/-- R199: tokens of a page that are valid. -/
def SeqEnt.valid (e : SeqEnt) (p : Nat) : Nat := if p + 1 = e.npages then e.kvLen - 64 * p else 64

/-- The lengths table with its token numbers. -/
def seqsOf (table : Bytes) (n : Nat) : List SeqEnt :=
  ((List.range n).foldl (fun (row, l) k =>
    let e := seqOf row (slice table (32 * k) 32)
    (row + e.count, l ++ [e])) (0, [])).2

/-! Queries (R205) -/

/-- A query head: as given, converted, and its figures. -/
structure Head where
  /-- token and head number -/
  row  : Nat
  h    : Nat
  raw  : Bytes
  void : Bool
  conv : Bytes
  scale : F32
  sat  : Nat
deriving DecidableEq, Repr, Inhabited

def fAbs (x : F32) : F32 := x &&& 0x7FFFFFFF#32

/-- R205: QMAX of a format. -/
def qMax (fmt : Nat) : F32 := fOfSmall (if fmt = 3 then 448 else if fmt = 4 then 57344 else 127)

/-- R205: a query head converted. -/
def headOf (a : Att) (row h : Nat) (raw : Bytes) : Head :=
  let q := elemsF a.qfmt raw a.dim
  let void := q.any fun x => match fNum x with | .fin _ _ _ => false | _ => true
  let m := q.foldl (fun m x => fMax m (fAbs x)) fZero
  let qs := if fEq m fZero then fOne else fDiv m (qMax a.fmt)
  let (conv, sat) := packF a.fmt (q.map fun x => fDiv x qs)
  ⟨row, h, raw, void, conv, fMul a.scale qs, sat⟩

/-- The press slot of a query head (R123, R124). -/
def Head.slot (x : Head) : Slot :=
  { (default : Slot).clear with loaded := true, desc := leBytes 4 x.scale.toNat ++ zeros 60, lut := x.conv }

/-! Pages and summaries (R188, R189, R191) -/

/-- A page as it is attended: its number, its press unit and block, its scales and valid tokens. -/
structure Page where
  num    : Nat
  unit   : Nat
  block  : Nat
  scaleK : F32
  scaleV : F32
  valid  : Nat
deriving DecidableEq, Repr, Inhabited

/-- R188: a page's address translated; it lies on press pages of this node. -/
def State.pagePlace (s : State) (c va : Nat) : State × Except Code (Nat × Nat) :=
  match s.translate c va false with
  | (s, .error k) => (s, .error k)
  | (s, .ok d) =>
    if inHbm d 4096 && s.pressMode (groupOf d) then (s, .ok (physUnit (s.phys d), physBlock (s.phys d))) else (s, .error .denied)

/-- R188, R189: a summary record; it lies on interleaved pages, and its reserved bytes are 0 (R15). -/
def State.summary (s : State) (c va len : Nat) : State × Except Code Bytes :=
  match s.ctxMap c va len false with
  | (s, .error k) => (s, .error k)
  | (s, .ok l) =>
    if l.any fun (d, n) => !inHbm d n || s.pressMode (groupOf d) then (s, .error .denied)
    else match l.foldl (fun (s, r) (d, n) =>
        match r with
        | .error k => (s, .error k)
        | .ok b =>
          let (s, x, k) := s.load d n
          (s, if k.bad then .error k else .ok (b ++ x))) (s, (.ok [] : Except Code Bytes)) with
      | (s, .error k) => (s, .error k)
      | (s, .ok b) => (s, if allZero b 8 8 then .ok b else .error .invalidArg)

/-- R196: a summary score. -/
def sumScore (a : Att) (x : Head) (rec_ : Bytes) : F32 :=
  fAdd (fMul a.scale (dotScore a.qfmt 1 x.raw (rec_.drop 16) a.dim)) (BitVec.ofNat 32 (leAt rec_ 0 4))

/-- The summaries of considered pages. -/
def State.summaries (s : State) (c : Nat) (a : Att) (e : SeqEnt) (kvh : Nat) (pages : List Nat) :
    State × Except Code (List (Nat × Bytes)) :=
  pages.foldl (fun (s, r) p =>
    match r with
    | .error k => (s, .error k)
    | .ok l => match s.summary c (e.sumBase + (kvh * e.cap + p) * a.sumBytes) a.sumBytes with
      | (s, .ok b) => (s, .ok (l ++ [(p, b)]))
      | (s, .error k) => (s, .error k)) (s, .ok [])

/-- R197: the pages that the choice is made among, with their group scores. -/
def pageCands (a : Att) (e : SeqEnt) (heads : List Head) (sums : List (Nat × Bytes)) : List Cand :=
  (sums.filter fun (p, _) => decide (e.first + a.nfirst ≤ p)).filterMap fun (p, b) =>
    let xs := ((heads.filter fun x => !x.void).map fun x => sumScore a x b).filter fun x => !fIsNaN x
    let m := xs.foldl fMax fNegInf
    if m = fNegInf then none else some ⟨BitVec.ofNat 64 p, m, false, false⟩

/-- R197: the attended pages in ascending order and the ties at the last place; the choice is a selection of its own (R166 to R169),
which needs its scratch. -/
def State.attended (s : State) (part : Nat) (a : Att) (e : SeqEnt) (heads : List Head) (sums : List (Nat × Bytes)) :
    State × Except Code (List Nat × Nat) :=
  if heads = [] then (s, .ok ([], 0))
  else if a.all then (s, .ok (e.pages, 0))
  else
    let cands := pageCands a e heads sums
    match s.selStage part a.nsel with
    | none => (s, .error .invalidArg)
    | some (tile, tiles) =>
      if stageCands tiles < cands.length ∧ !s.scratchHas part (16 * (cands.length + a.nsel)) then (s, .error .quota)
      else
        let m := combine (s.on F.MERGE_CFG_DEDUP_ATTN part) false a.nsel [⟨fZero, fNegInf, cands, 0⟩]
        let sel := m.part.cands.map (·.item.toNat)
        (s.noteSelection tile a.nsel 0 m.dups,
          .ok (e.pages.filter fun p => decide (p < e.first + a.nfirst) || sel.contains p, m.part.ties))

/-- R198: SUM_MAX, EST_SEL, EST_LEFT and SUM_NAN of a head. -/
def estimates (a : Att) (x : Head) (sums : List (Nat × Bytes)) (att : List Nat) : F32 × F32 × F32 × Nat :=
  let scores := sums.map fun (p, b) => (p, sumScore a x b)
  let m := scores.foldl (fun m (_, y) => if fIsNaN y then m else fMax m y) fNegInf
  let (es, el, nan) := scores.foldl (fun (es, el, nan) (p, y) =>
    if fIsNaN y then (es, el, nan + 1)
    else if y = fNegInf then (es, el, nan)
    else if att.contains p then (fAdd es (fExpDiff y m), el, nan)
    else (es, fAdd el (fExpDiff y m), nan)) (fZero, fZero, 0)
  (m, es, el, nan)

/-- R191, R199, R206: the attended pages translated, with their scales. -/
def State.placePages (s : State) (c : Nat) (a : Att) (part : Nat) (e : SeqEnt) (kvh : Nat) (sums : List (Nat × Bytes)) (att : List Nat) :
    State × Except Code (List Page) :=
  att.foldl (fun (s, r) p =>
    match r with
    | .error k => (s, .error k)
    | .ok l => match s.pagePlace c (e.kvBase + (kvh * e.cap + p) * a.stride) with
      | (s, .error k) => (s, .error k)
      | (s, .ok (u, b)) =>
        if s.pressOwner u != some part then (s, .error .denied)
        else
          let rec_ := ((sums.find? fun x => x.1 == p).map (·.2)).getD []
          let sc (off : Nat) : F32 := if a.fmt = 5 then bf16 (leAt rec_ off 2) else fZero
          (s, .ok (l ++ [⟨p, u, b, sc 4, sc 6, e.valid p⟩]))) (s, .ok [])

/-! Passes (R199 to R202) -/

/-- R199, R211: a unit's pages cut into those of one command each, in order: at most NPAGE_MAX and 16 ÷ w, and with QUARTET_ONLY of
one quartet. -/
def Att.cut (a : Att) (ps : List Page) : List (List Page) :=
  let most := max 1 (min (a.cfg % 8) (16 / max 1 a.w))
  let fits (l : List Page) (p : Page) : Bool :=
    decide (l.length < most) && (!bit a.cfg 3 || l.all fun x => quartet x.block == quartet p.block)
  (ps.foldl (fun ls p => match ls with
    | l :: rest => if fits l p then (l ++ [p]) :: rest else [p] :: l :: rest
    | [] => [[p]]) ([] : List (List Page))).reverse

/-- R109, R121, R122: the window of one ATTN or QK command: its pages are read up to one that is damaged, whose code ends the request. -/
def State.attnRun (s : State) (a : Att) (qk : Bool) (l : List Page) : State × Code :=
  let u := (l.headD default).unit
  let rows := if qk then 64 else 128
  if s.pressFenced u then (s, .reset)
  else
    let codes := l.map fun p => s.blkCode u p.block 0 (32 * a.w * rows)
    let met := l.take ((codes.takeWhile (· == .ok)).length + 1)
    let s := met.foldl (fun s p => s.winRead u p.block 0 (32 * a.w * rows)) s
    (s.winTime u (a.w * rows * l.length), (codes.find? (· != .ok)).getD .ok)

/-- R199: slot sets of 16 heads that hold a head for which a pass runs (R205). -/
def liveSets (heads : List Head) : List (List Head) :=
  ((List.range (ceilDiv heads.length 16)).map fun k => ((heads.drop (16 * k)).take 16).filter fun x => !x.void).filter (· != [])

/-- R199: the passes of every slot set and unit: each is the slots loaded and the commands of the unit's pages. -/
def State.readPages (s : State) (a : Att) (units : List (List Page)) (sets : List (List Head)) (qk : Bool) : State × Code :=
  (sets.flatMap fun z => units.map fun l => (z, l)).foldl (fun (s, k) (z, l) =>
    if k.bad then (s, k)
    else (a.cut l).foldl (fun (s, k) cmd => if k.bad then (s, k) else s.attnRun a qk cmd)
      (s.notePeak (l.headD default).unit (z.length + (a.cut l).length), k)) (s, Code.ok)

/-- One pass: the pages of one unit under one query head. -/
def State.attendUnit (s : State) (a : Att) (x : Head) (ps : List Page) : Slot :=
  ps.foldl (fun z p => z.attend a.fmt a.dim p.scaleK p.scaleV (s.attnRows p.unit p.block a.dim 0) (s.attnRows p.unit p.block a.dim 64)
    p.valid) x.slot

/-- Pages by press unit, units in the order of the lowest page that they hold. -/
def byUnit (ps : List Page) : List (List Page) :=
  (dedupNat (ps.map (·.unit))).map fun u => ps.filter fun p => p.unit == u

/-- R202: passes combined: m, l and the normalised output. -/
def combinePasses (dim : Nat) (zs : List Slot) : F32 × F32 × List F32 :=
  let m := zs.foldl (fun m z => fMax m z.max) fNegInf
  let (l, o) := zs.foldl (fun (l, o) z =>
    let f := if z.max = fNegInf then fZero else if z.max = fPosInf ∧ m = fPosInf then fOne else fExpDiff z.max m
    let acc := if z.acc.length = dim then z.acc else List.replicate dim fZero
    (fAdd l (fMul z.sum f), (o.zip acc).map fun (x, y) => fAdd x (fMul y f))) (fZero, List.replicate dim fZero)
  (m, l, if fLt fZero l then o.map fun x => fDiv x l else List.replicate dim fZero)

def f32s (l : List F32) : Bytes := (l.map fun x => leBytes 4 x.toNat).flatten

/-- What an output record reports (R203). -/
structure AttRec where
  pages  : Nat
  tokens : Nat
  max    : F32
  sum    : F32
  sumMax : F32
  estSel : F32
  estLeft : F32
  leftPages : Nat
  nan    : Nat
  sumNan : Nat
  ties   : Nat
  sat    : Nat
  out    : List F32
deriving DecidableEq, Repr, Inhabited

/-- R203: an output record. -/
def attRecord (a : Att) (void : Bool) (r : AttRec) : Bytes :=
  let head := zeros 1 ++ leBytes 1 (b2n a.all + 2 * b2n void) ++ zeros 2 ++ cap32 r.pages ++ cap32 r.tokens ++ f32s [r.max, r.sum]
  let sums := f32s [r.sumMax, r.estSel, r.estLeft] ++ cap32 r.leftPages ++ leBytes 2 (min r.nan 0xFFFF) ++ leBytes 2 (min r.sumNan 0xFFFF)
  head ++ sums ++ cap32 r.ties ++ cap32 r.sat ++ zeros 16 ++ f32s r.out ++ zeros (up64 (4 * a.dim) - 4 * a.dim)

/-- R202, R203: the record of one query head. -/
def State.headRecord (s : State) (a : Att) (e : SeqEnt) (sums : List (Nat × Bytes)) (ps : List Page) (ties : Nat) (x : Head) : Bytes :=
  let left := e.pages.length - ps.length
  let (sm, es, el, sn) := if a.all then (fNegInf, fZero, fZero, 0) else estimates a x sums (ps.map (·.num))
  if x.void then
    attRecord a true ⟨ps.length, 0, fNegInf, fZero, fNegInf, fZero, fZero, left, 0, sn, ties, x.sat, List.replicate a.dim fZero⟩
  else
    let zs := (byUnit ps).map (s.attendUnit a x)
    let (m, l, out) := combinePasses a.dim zs
    attRecord a false ⟨ps.length, (zs.map fun z => min 0xFFFF z.tokens).sum, m, l, sm, es, el, left, (zs.map (·.nans)).sum, sn, ties, x.sat, out⟩

/-! A sequence and key-value head -/

/-- The query heads of a group (R192, R194), or the code of reading one. -/
def State.groupHeads (s : State) (c : Nat) (a : Att) (e : SeqEnt) (kvh : Nat) : State × Except Code (List Head) :=
  ((List.range e.count).flatMap fun r => (List.range a.group).map fun g => (e.row + r, kvh * a.group + g)).foldl (fun (s, res) (r, h) =>
    match res with
    | .error k => (s, .error k)
    | .ok l =>
      let (s, b, k) := s.ctxLoad c (opN a.d 32 8 + (r * a.heads + h) * a.qs) (fmtBytes a.qfmt a.dim)
      (s, if k.bad then .error k else .ok (l ++ [headOf a r h b]))) (s, .ok [])

/-- R205, R212, R54: what the route tile counts as it converts the query heads of a group. -/
def State.noteHeads (s : State) (n : Nat) (heads : List Head) : State :=
  (s.noteNum n persRoute 0 (heads.map (·.sat)).sum).addF F.TILE_ATTN_STAT_VOID_HEADS (s.tileOf n persRoute) (heads.filter (·.void)).length

/-- R196, R212, R51: what the route tile counts as it scores summaries. -/
def State.noteSums (s : State) (n : Nat) (a : Att) (heads : List Head) (sums : List (Nat × Bytes)) : State :=
  if a.all then s
  else (s.noteNum n persRoute (heads.map fun x => (estimates a x sums []).2.2.2).sum 0).addF F.TILE_ATTN_STAT_SUMMARIES
    (s.tileOf n persRoute) (sums.length * heads.length)

/-- R323: the binding of a partition's press unit. -/
def State.pressRec (s : State) (n u : Nat) : PressRec :=
  match (s.part n).img with
  | some g => (g.press.find? fun r => r.unit == u).getD default
  | none => default

/-- R212, R316: pages counted on the scan-dispatch tile of their unit and, where records are combined, on its merge tile. -/
def State.notePages (s : State) (n : Nat) (units : List (List Page)) (combined : Bool) : State :=
  units.foldl (fun s l =>
    let r := s.pressRec n (l.headD default).unit
    let s := s.addF F.TILE_ATTN_STAT_PAGES r.dispatch l.length
    if combined then s.addF F.TILE_ATTN_STAT_PAGES r.merge l.length else s) s

/-- R51, R54: the NaN scores that the press units met. -/
def State.noteNans (s : State) (a : Att) (units : List (List Page)) (heads : List Head) : State :=
  let live := heads.filter fun x => !x.void
  units.foldl (fun s l => s.addF F.PRESS_NUM_STAT_NAN_COUNT (l.headD default).unit
    (live.map fun x => (l.map fun p =>
      (x.slot.pageScores a.fmt a.dim p.scaleK (s.attnRows p.unit p.block a.dim 0) p.valid).2).sum).sum) s

/-- A page list (R207). -/
def pageList (a : Att) (ps : List Nat) : Bytes :=
  let b := leBytes 4 ps.length ++ zeros 60 ++ (ps.map (leBytes 4)).flatten
  b ++ zeros (a.ls - b.length)

/-- R197 to R207: one sequence and key-value head of ATTEND: the records and the page list to write. -/
def State.attendGroup (s : State) (c part : Nat) (a : Att) (i : Nat) (e : SeqEnt) (kvh : Nat) :
    State × Except Code (List (Nat × Bytes)) :=
  match s.groupHeads c a e kvh with
  | (s, .error k) => (s, .error k)
  | (s, .ok heads) =>
    let s := s.noteHeads part heads
    let want := if heads = [] then [] else if a.all && a.fmt != 5 then [] else e.pages
    match s.summaries c a e kvh want with
    | (s, .error k) => (s, .error k)
    | (s, .ok sums) => match (s.noteSums part a heads sums).attended part a e heads sums with
      | (s, .error k) => (s, .error k)
      | (s, .ok (att, ties)) => match s.placePages c a part e kvh sums att with
        | (s, .error k) => (s, .error k)
        | (s, .ok ps) =>
        let sets := liveSets heads
        let units := byUnit ps
        let (s, code) := s.readPages a units sets false
        if code.bad then (s, .error code)
        else
          let s := if sets = [] then s else (s.notePages part units true).noteNans a units heads
          let recs := heads.map fun x => (opN a.d 40 8 + (x.row * a.heads + x.h) * a.rs, s.headRecord a e sums ps ties x)
          let lists := if a.save then [(opN a.d 48 8 + (i * a.hkv + kvh) * a.ls, pageList a att)] else []
          (s, .ok (recs ++ lists))

/-! The backward pass (R207 to R209) -/

/-- R208: a key or value element dequantised. -/
def dequant (fmt : Nat) (sc : F32) (dim : Nat) (row : Bytes) : List F32 := (List.range dim).map (valueElem fmt sc row)

/-- Gradients of one group: dq by head; dk and dv of every page of the list, by token. -/
structure Grads where
  dq : List F32
  dk : List (List (List F32))
  dv : List (List (List F32))
deriving DecidableEq, Repr, Inhabited

/-- y + f × x. -/
def axpy (f : F32) (x y : List F32) : List F32 := (y.zip x).map fun (b, a) => fAdd b (fMul f a)

/-- R208: one query head over one page: dq, dk and dv. -/
def headPage (a : Att) (x : Head) (dout : Bytes) (p : Page) (keys vals : List Bytes) (dq : List F32) (dk dv : List (List F32)) :
    List F32 × List (List F32) × List (List F32) :=
  let f (off : Nat) : F32 := BitVec.ofNat 32 (leAt dout off 4)
  let doh := elemsF 0 (dout.drop 64) a.dim
  let qh := elemsF a.qfmt x.raw a.dim
  let xs := (x.slot.pageScores a.fmt a.dim p.scaleK keys p.valid).1
  (List.range p.valid).foldl (fun (dq, dk, dv) t =>
    let sc := xs.getD t fNegInf
    if sc = fNegInf then (dq, dk, dv)
    else
      let l := f 4
      let pr := if fEq l fZero then fZero else fDiv (fExpDiff sc (f 0)) l
      let k := dequant a.fmt p.scaleK a.dim (keys.getD t [])
      let v := dequant a.fmt p.scaleV a.dim (vals.getD t [])
      let ds := fMul pr (fSub (sumR43 ((doh.zip v).map fun (y, z) => fMul y z)) (f 8))
      (axpy ds k dq, dk.modify t (axpy ds qh), dv.modify t (axpy pr doh))) (dq, dk, dv)

/-- R208: one query head over the page list. -/
def State.headGrads (s : State) (a : Att) (x : Head) (dout : Bytes) (ps : List Page) (dk dv : List (List (List F32))) : Grads :=
  let zero := List.replicate a.dim fZero
  if x.void then ⟨zero, dk, dv⟩
  else
    let (dq, dk, dv) := ((List.range ps.length).zip ps).foldl (fun (dq, dk, dv) (j, p) =>
      let (q, k, v) := headPage a x dout p (s.attnRows p.unit p.block a.dim 0) (s.attnRows p.unit p.block a.dim 64) dq
        (dk.getD j []) (dv.getD j [])
      (q, dk.set j k, dv.set j v)) (zero, dk, dv)
    ⟨dq, dk, dv⟩

/-- R209: bytes of one query gradient. -/
def Att.gs (a : Att) : Nat := up64 (4 * a.dim)

/-- R208: the key and value rows that the vector tiles read through the controller; the code of a damaged one. -/
def State.backRows (s : State) (a : Att) (ps : List Page) : State × Code :=
  ps.foldl (fun (s, k) p =>
    let n := 32 * a.w * p.valid
    let code := (s.blkCode p.unit p.block 0 n).worst (s.blkCode p.unit p.block (2048 * a.w) n)
    ((s.blkNote p.unit p.block 0 n).blkNote p.unit p.block (2048 * a.w) n, k.worst code)) (s, Code.ok)

/-- R207 to R209: one sequence and key-value head of ATTEND_BWD; `total` is the number of query tokens. -/
def State.backGroup (s : State) (c part total : Nat) (a : Att) (i : Nat) (e : SeqEnt) (kvh : Nat) :
    State × Except Code (List (Nat × Bytes)) :=
  match s.groupHeads c a e kvh with
  | (s, .error k) => (s, .error k)
  | (s, .ok []) => (s, .ok [])
  | (s, .ok heads) =>
    let s := s.noteHeads part heads
    let (s, lb, k) := s.ctxLoad c (opN a.d 48 8 + (i * a.hkv + kvh) * a.ls) a.ls
    let n := leAt lb 0 4
    let nums := (List.range n).map fun j => leAt lb (64 + 4 * j) 4
    if k.bad then (s, .error k)
    else
      match s.summaries c a e kvh (if a.fmt = 5 then nums else []) with
      | (s, .error k) => (s, .error k)
      | (s, .ok sums) => match s.placePages c a part e kvh sums nums with
        | (s, .error k) => (s, .error k)
        | (s, .ok ps) =>
          let sets := liveSets heads
          let units := byUnit ps
          let (s, code) := s.readPages a units sets true
          let (s, vals) := if sets = [] ∨ code.bad then (s, Code.ok) else s.backRows a ps
          if (code.worst vals).bad then (s, .error (code.worst vals))
          else
            let s := if sets = [] then s else (s.notePages part units false).noteNans a units heads
            let blank := ps.map fun _ => List.replicate 64 (List.replicate a.dim fZero)
            let start : State × Code × List (Nat × Bytes) × List (List (List F32)) × List (List (List F32)) := (s, .ok, [], blank, blank)
            let (s, code, out, dk, dv) := heads.foldl (fun (s, code, out, dk, dv) x =>
              let (s, dout, k) := s.ctxLoad c (opN a.d 56 8 + (x.row * a.heads + x.h) * a.rs) a.rs
              let g := s.headGrads a x dout ps dk dv
              let bytes := f32s (g.dq.map fun y => fMul y a.scale)
              (s, code.worst k, out ++ [(opN a.d 64 8 + (x.row * a.heads + x.h) * a.gs, bytes ++ zeros (a.gs - bytes.length))], g.dk, g.dv))
              start
            let base := opN a.d 64 8 + total * a.heads * a.gs
            let rows (off : Nat) (at_ : Nat) (g : List (List F32)) : List (Nat × Bytes) :=
              ((List.range 64).zip g).map fun (t, r) => (at_ + 4 * a.dim * (off + t), f32s (r.map fun y => if off = 0 then fMul y a.scale else y))
            let kv := if a.dkv then ((List.range ps.length).zip (dk.zip dv)).flatMap fun (j, k, v) =>
                let at_ := base + ((i * a.hkv + kvh) * (a.nfirst + a.nsel) + j) * 512 * a.dim
                rows 0 at_ k ++ rows 64 at_ v
              else []
            if code.bad then (s, .error code) else (s, .ok (out ++ kv))

/-- R195: the page lists that a backward pass reads name only pages that exist. -/
def State.listsOk (s : State) (c : Nat) (a : Att) (seqs : List SeqEnt) : Bool :=
  ((List.range seqs.length).zip seqs).all fun (i, e) => e.count == 0 || a.group == 0 || (List.range a.hkv).all fun kvh =>
    let lb := (s.ctxLoad c (opN a.d 48 8 + (i * a.hkv + kvh) * a.ls) a.ls).2.1
    let n := leAt lb 0 4
    decide (n ≤ a.nfirst + a.nsel) && (List.range n).all fun j => decide (leAt lb (64 + 4 * j) 4 < e.npages)

/-- R555: the personalities that attention needs. -/
def State.attPers (s : State) (n : Nat) (a : Att) : Bool :=
  s.hasPers n persRoute && s.hasPers n persDispatch &&
    (if a.bwd then s.hasPers n persVector else s.hasPers n persMerge && (a.all || (s.selStage n a.nsel).isSome))

/-- R181: every record of a command that a code ended. -/
def State.failAttn (s : State) (c : Nat) (a : Att) (total : Nat) (k : Code) : State :=
  if a.bwd then s else (List.range (total * a.heads)).foldl (fun s n => s.tryStore c (opN a.d 40 8 + n * a.rs) (failRecord k)) s

/-- R194, R207, R208: every group of every sequence attended, or its gradients formed: what is to be stored, or the code that ends
the command. -/
def State.attendGroups (s : State) (c part total : Nat) (a : Att) (seqs : List SeqEnt) : State × Except Code (List (Nat × Bytes)) :=
  let groups := ((List.range seqs.length).zip seqs).flatMap fun (i, e) => (List.range a.hkv).map fun kvh => (i, e, kvh)
  groups.foldl (fun (s, res) (i, e, kvh) =>
    match res with
    | .error k => (s, .error k)
    | .ok l =>
      match (if a.bwd then s.backGroup c part total a i e kvh else s.attendGroup c part a i e kvh) with
      | (s, .ok x) => (s, .ok (l ++ x))
      | (s, .error k) => (s, .error k)) (s, (.ok [] : Except Code (List (Nat × Bytes))))

/-- R192 to R210: an attention command. -/
def attendCmd (c q op : Nat) (s : State) : State :=
  s.runCmd c q op fun s r =>
    let a := attOf r.desc (r.snap.headD 0)
    let part := s.partOf c
    let nseq := opN a.d 12 2
    let (s, table, code) := s.ctxLoad c (opN a.d 24 8) (32 * nseq)
    let seqs := seqsOf table nseq
    let total := (seqs.map (·.count)).sum
    let tableOk := (List.range nseq).all fun k => seqOk (slice table (32 * k) 32)
    if code.bad then s.finishCode c q (if a.ok then code else code.worst .invalidArg)
    else if !a.ok || !tableOk then s.finishCode c q .invalidArg
    else
      let (s, k1) := s.reach c (opN a.d 32 8) (total * a.heads * a.qs) false
      let (s, k2) := if a.bwd then s.reach c (opN a.d 48 8) (nseq * a.hkv * a.ls) false else s.reach c (opN a.d 40 8) (total * a.heads * a.rs) true
      if (k1.worst k2).bad then s.finishCode c q (k1.worst k2)
      else if (a.bwd && !s.listsOk c a seqs) || !s.attPers part a then s.finishCode c q .invalidArg
      else if s.fencedFor part [persRoute, persDispatch, if a.bwd then persVector else persMerge] then s.finishCode c q .reset
      else
        let (s, outs) := s.attendGroups c part total a seqs
        match outs with
        | .error k => (s.failAttn c a total k).finishCode c q k
        | .ok l =>
          let (s, k) := s.ctxStores c l
          s.finish c q (Compl.of k (if a.bwd then 0 else total * a.heads) 0)

/-- ATTEND: R192 to R207. -/
def execAttend (c : BitVec 12) (q : BitVec 16) (s : State) : Host.Outcome State Fault Refusal :=
  gated s (attendCmd c.toNat q.toNat 0x18)

/-- ATTEND_BWD: R207 to R209. -/
def execAttendBwd (c : BitVec 12) (q : BitVec 16) (s : State) : Host.Outcome State Fault Refusal :=
  gated s (attendCmd c.toNat q.toNat 0x19)

end Sys2Proof.Machine
end

