-- ==== Sys2Proof/Machine/Embedding.lean ====
section
/-! DEFINITION. Embedding tables (R213 to R236): descriptors and their enabling, row slots and their versions, GATHER with its
coalescer, pooling and prefetch, SCATTER, ROW_WRITE, PUBLISH, and the rows that other nodes hold. -/
namespace Sys2Proof.Machine

/-! Tables (R213 to R216) -/

/-- A table descriptor. -/
structure Tab where
  t       : Nat
  rows    : Nat
  e       : Nat
  fmt     : Nat
  shadow  : Bool
  sharded : Bool
  tenant  : Nat
  part    : Nat
  cold    : Nat
  base    : Nat
  first   : Nat
  held    : Nat
  hot     : Nat
  ver     : Nat
  /-- reserved fields are 0 -/
  clear   : Bool
deriving DecidableEq, Repr, Inhabited

def tabOf (t : Nat) (d : Bytes) : Tab :=
  ⟨t, leAt d 0 8 % 2 ^ 41, leAt d 8 2 % 2 ^ 13, byteAt d 10 % 16, bit (byteAt d 11) 0, bit (byteAt d 11) 1, byteAt d 12, byteAt d 13 % 8,
    leAt d 14 2, leAt d 16 8 % 2 ^ 52, leAt d 24 8, leAt d 32 8, leAt d 40 8, leAt d 56 8,
    decide (leAt d 0 8 < 2 ^ 41) && decide (leAt d 8 2 < 2 ^ 13) && decide (byteAt d 10 < 16) && decide (byteAt d 11 < 4) &&
      decide (byteAt d 13 < 8) && decide (leAt d 16 8 < 2 ^ 52) && allZero d 48 8⟩

def State.tab (s : State) (t : Nat) : Tab := tabOf t (s.peek (s.tabAddr t) 64)

def State.tabOn (s : State) (t : Nat) : Bool := bit (s.reg .tileEmbEn (t / 64)) (t % 64)

/-- R216: bytes of a row slot. -/
def Tab.rs (b : Tab) : Nat := 32 * ceilDiv (16 + b.e * (fmtBits b.fmt / 8)) 32

/-- Bytes that the row slots of a table take in HBM. -/
def Tab.span (b : Tab) : Nat := b.hot * b.rs * (if b.shadow then 2 else 1)

/-- R468: an address range touches a lent group. -/
def State.touchesLent (s : State) (addr len : Nat) : Bool :=
  (pieceRange (2 ^ 30) addr len).any fun (a, _) => bit (s.reg .poolLent (groupOf a / 64)) (groupOf a % 64)

/-- R215, R468: the conditions under which a table may be enabled. -/
def State.tabOk (s : State) (t : Nat) : Bool :=
  let b := s.tab t
  decide (1 ≤ b.e ∧ b.e ≤ 4096) && decide (b.fmt ≤ 5) && decide (b.rows ≤ 2 ^ 40) && b.clear && decide (1 ≤ b.ver ∧ b.ver ≤ 2 ^ 62) &&
    b.base % 64 == 0 && (s.readCode (s.tabAddr t) 64 == .ok) &&
    (if b.sharded then decide (b.held ≠ 0) && b.first % b.held == 0 else b.first == 0 && b.held == b.rows) &&
    decide (b.hot ≤ b.held) && (!b.shadow || b.hot == b.held) && (b.span == 0 || (s.plainHbm b.base b.span && !s.touchesLent b.base b.span))

def State.tabVer (s : State) (t : Nat) : Nat := s.f F.TILE_EMB_VER_VERSION t

/-- R215, R227, R234: a write of enable bits of TILE_EMB_EN[j] takes effect; true when a bit was refused. -/
def State.writeTabEn (s : State) (j v : Nat) : State × Bool :=
  let old := s.reg .tileEmbEn j
  (List.range 64).foldl (fun (s, bad) k =>
    let t := 64 * j + k
    if bit v k && !bit old k then
      if s.tabOk t then
        ((s.setReg .tileEmbEn j (setBit (s.reg .tileEmbEn j) k true)).setF F.TILE_EMB_VER_VERSION t (s.tab t).ver, bad)
      else (s, true)
    else if !bit v k && bit old k then
      ((s.setReg .tileEmbEn j (setBit (s.reg .tileEmbEn j) k false)).setF F.TILE_EMB_VER_VERSION t 0, bad)
    else (s, bad)) (s, false)

/-! Row slots (R216, R217, R229, R230) -/

/-- A row as it was read: its slot and what the read met. -/
structure Row where
  slot : Bytes
  code : Code
  cold : Bool
deriving DecidableEq, Repr, Inhabited

def Tab.slotAddr (b : Tab) (r k : Nat) : Nat := b.base + (if b.shadow then 2 * r + k else r) * b.rs

def rowVersion (slot : Bytes) : Nat := leAt slot 0 8

/-- R229, R230: which slot of a row a read returns: of a pinned batch the highest version up to its own. -/
def pickSlot (pinned : Option Nat) (v0 v1 : Nat) : Nat :=
  match pinned with
  | none => if v0 < v1 then 1 else 0
  | some p =>
    if v0 ≤ p ∧ v1 ≤ p then (if v0 < v1 then 1 else 0)
    else if v1 ≤ p then 1 else 0

/-- R217: the slots of the namespace that hold a cold row: the first and their number. -/
def Tab.coldSlots (b : Tab) (r : Nat) : Nat × Nat :=
  let at_ := (r - b.hot) * b.rs
  (at_ / 4096, (at_ + b.rs - 1) / 4096 + 1 - at_ / 4096)

/-- R247, R257, R264: the code that ends a command on a cold row: by its namespace, and for a write by the space left. -/
def State.coldCode (s : State) (b : Tab) (write : Bool) (r : Nat) : Code :=
  if r < b.hot then .ok
  else
    let d := s.nsDesc b.cold
    let (first, n) := b.coldSlots r
    if 4096 ≤ b.cold ∨ !s.nsOn b.cold then .invalidArg
    else if d.tenant ≠ b.tenant then .denied
    else if d.size < first + n ∨ (write && (d.readOnly || d.kind == nsLog)) then .invalidArg
    else if write && s.writeRefused d.kind then .quota else .ok

/-- The worst code over the rows of this node that a command touches. -/
def State.coldCodes (s : State) (b : Tab) (write : Bool) (rows : List Nat) : Code :=
  rows.foldl (fun k r => k.worst (s.coldCode b write (r - b.first))) .ok

/-- R217, R264: a cold row read through the stages of a cellar read. -/
def State.coldSlot (s : State) (b : Tab) (r : Nat) : State × Row :=
  let (first, n) := b.coldSlots r
  let (s, d, ok) := s.readSlots b.cold first n
  (s, ⟨slice d ((r - b.hot) * b.rs % 4096) b.rs, if ok then .ok else .uncorrectable, true⟩)

/-- A local row as a read returns it. -/
def State.readRow (s : State) (b : Tab) (r : Nat) (pinned : Option Nat) : State × Row :=
  if b.hot ≤ r then s.coldSlot b r
  else
    let k := if b.shadow then pickSlot pinned (s.peekN (b.slotAddr r 0) 8) (s.peekN (b.slotAddr r 1) 8) else 0
    let (s, d, code) := s.load (b.slotAddr r k) b.rs
    (s, ⟨d, code, false⟩)

/-- Gather tiles of a partition. -/
def State.gatherTiles (s : State) (n : Nat) : List Nat :=
  match (s.part n).img with
  | some g => (g.tiles.filter fun t => t.pers == persGather).map (·.tile)
  | none => []

/-- R236: prefetched copies discarded unused, counted on the first gather tile of the partition (log entry 308). -/
def State.noteDrops (s : State) (n : Nat) (rows : List PreRow) : State :=
  s.addF F.TILE_EMB_STAT_PREFETCH_DROPS ((s.gatherTiles n).headD 0) (rows.filter fun x => !x.used).length

/-- R223: copies of a row that a write makes old. -/
def State.stale (s : State) (b : Tab) (r : Nat) : State :=
  let old := (s.prefetch.filter fun p => p.table == b.t).flatMap fun p => p.rows.filter fun x => x.row == r
  let s := s.noteDrops b.part old
  { s with prefetch := s.prefetch.map fun p => if p.table = b.t then { p with rows := p.rows.filter fun x => x.row != r } else p }

/-- R226, R227, R229: a local row rewritten whole: in HBM, or in the cellar. -/
def State.writeRow (s : State) (b : Tab) (r : Nat) (slot : Bytes) : State :=
  let s := s.stale b (r + b.first)
  if r < b.hot then
    let v := rowVersion slot
    let v0 := s.peekN (b.slotAddr r 0) 8
    let v1 := s.peekN (b.slotAddr r 1) 8
    let k := if !b.shadow then 0 else if v0 = v then 0 else if v1 = v then 1 else if v1 < v0 then 1 else 0
    s.store (b.slotAddr r k) slot
  else
    let (first, n) := b.coldSlots r
    let (s, old, _) := s.readSlots b.cold first n
    let new := putAt old ((r - b.hot) * b.rs % 4096) slot
    (List.range n).foldl (fun s k => s.writeSlot b.cold (first + k) (slice new (4096 * k) 4096) .own) s

/-- R222: the elements of a row in fp32. -/
def Tab.elems (b : Tab) (slot : Bytes) : List F32 :=
  let x := elemsF b.fmt (slot.drop 16) b.e
  if b.fmt = 5 then x.map fun y => fMul y (bf16 (leAt slot 8 2)) else x

/-! The common fields of GATHER and SCATTER (R218, R224) -/

structure Emb where
  d       : Bytes
  pool    : Bool
  weights : Bool
  /-- SCATTER: EXPORT; GATHER: PIN -/
  third   : Bool
  prefetch : Bool
  t       : Nat
  fmt     : Nat
  n       : Nat
  bags    : Nat
deriving DecidableEq, Repr, Inhabited

def embOf (d : Bytes) : Emb :=
  let f := opN d 1 1
  ⟨d, bit f 0, bit f 1, bit f 2, bit f 3, opN d 2 2, opN d 4 1, opN d 8 4, opN d 12 4⟩

/-- R15, R554: the fields that both commands share. -/
def Emb.ok (x : Emb) : Bool :=
  let d := x.d
  let addr (off al : Nat) : Bool := decide (opN d off 8 < 2 ^ 52) && opN d off 8 % al == 0
  decide (x.fmt < 3) && opZero d 5 3 && decide (x.n < 2 ^ 24) && (if x.pool then decide (x.bags < 2 ^ 24) else x.bags == 0) &&
    addr 16 8 && (if x.pool then addr 24 1 else opZero d 24 8) && (if x.weights then addr 32 1 else opZero d 32 8) && addr 40 64 && addr 48 1

/-- R218: the fields of GATHER; its REPORT is aligned. -/
def Emb.gatherOk (x : Emb) : Bool :=
  x.ok && opN x.d 48 8 % 64 == 0 && decide (opN x.d 1 1 < 16) && opZero x.d 68 28 &&
    (if x.prefetch then decide (opN x.d 56 8 < 2 ^ 52) && decide (opN x.d 64 4 < 2 ^ 24) else opZero x.d 56 12)

/-- R224: the fields of SCATTER. -/
def Emb.scatterOk (x : Emb) : Bool :=
  x.ok && decide (opN x.d 1 1 < 8) && opZero x.d 68 28 &&
    (if x.third then decide (opN x.d 56 8 < 2 ^ 52) && opN x.d 56 8 % 64 == 0 && opZero x.d 64 4
     else opZero x.d 56 8 && (match fNum (BitVec.ofNat 32 (opN x.d 64 4)) with | .fin _ _ _ => true | _ => false))

/-- Output rows or gradients: their number, and bytes from one to the next. -/
def Emb.outs (x : Emb) : Nat := if x.pool then x.bags else x.n
def Emb.os (x : Emb) (b : Tab) : Nat := up64 (b.e * (fmtBits x.fmt / 8))

/-- The arrays of a batch: indices, bag of each position and its first position, weights. -/
structure Batch where
  idx     : List Nat
  offs    : List Nat
  weights : List F32
deriving DecidableEq, Repr, Inhabited

/-- R219: the batch read from memory, or its code. -/
def State.batchOf (s : State) (c : Nat) (x : Emb) : State × Except Code Batch :=
  let (s, ib, k1) := s.ctxLoad c (opN x.d 16 8) (8 * x.n)
  let (s, ob, k2) := if x.pool then s.ctxLoad c (opN x.d 24 8) (4 * (x.bags + 1)) else (s, [], .ok)
  let (s, wb, k3) := if x.weights then s.ctxLoad c (opN x.d 32 8) (4 * x.n) else (s, [], .ok)
  let code := (k1.worst k2).worst k3
  let idx := (List.range x.n).map fun k => leAt ib (8 * k) 8
  let offs := if x.pool then (List.range (x.bags + 1)).map fun k => leAt ob (4 * k) 4 else []
  let w := if x.weights then (List.range x.n).map fun k => BitVec.ofNat 32 (leAt wb (4 * k) 4) else List.replicate x.n fOne
  (s, if code.bad then .error code else .ok ⟨idx, offs, w⟩)

/-- R219: the offsets of a pooled batch. -/
def Batch.offsOk (g : Batch) (n : Nat) : Bool :=
  decide (g.offs.headD 0 = 0) && decide (g.offs.getLastD 0 = n) && (g.offs.zip (g.offs.drop 1)).all fun (a, b) => decide (a ≤ b)

/-- R217: where a row lives: none on this node, or the rank of its owner. -/
def Tab.owner (b : Tab) (m : Option CompMap) (r : Nat) : Option Nat :=
  match m with
  | some m => if r / b.held = m.rank then none else some (r / b.held)
  | none => none

/-- R221: the windows of a batch: distinct rows in order of first occurrence. -/
def coalesce (window : Nat) (idx : List Nat) : List (List Nat) :=
  let (done, cur) := idx.foldl (fun (done, cur) r =>
    if cur.contains r then (done, cur)
    else if cur.length < window then (done, cur ++ [r])
    else (done ++ [cur], [r])) ([], ([] : List Nat))
  if cur = [] then done else done ++ [cur]

/-- R220: a report. -/
structure EmbRep where
  code    : Code
  windows : Nat
  fetches : Nat
  remote  : Nat
  cold    : Nat
  hits    : Nat
  ver     : Nat
  nan     : Nat
  sat     : Nat
  poisoned : Nat
deriving DecidableEq, Repr, Inhabited

def EmbRep.bytes (r : EmbRep) : Bytes :=
  leBytes 1 r.code.num ++ zeros 3 ++ cap32 r.windows ++ leBytes 8 r.fetches ++ leBytes 8 r.remote ++ leBytes 8 r.cold ++ leBytes 8 r.hits ++
    leBytes 8 r.ver ++ cap32 r.nan ++ cap32 r.sat ++ cap32 r.poisoned ++ zeros 4

/-- R213, R233: the table of a command as its descriptor stood when the command was accepted. -/
def Req.tab (r : Req) (t : Nat) : Tab := tabOf t (leBytes 64 (r.snap.getD 2 0))

/-- R221, R235: WINDOW as the command was accepted. -/
def Req.window (r : Req) : Nat := max 1 (r.snap.getD 1 0 % 2 ^ 14)

/-- R220, R230: the published version of its table as a command was accepted. -/
def Req.ver (r : Req) : Nat := r.snap.headD 0

/-- R223, R235: bytes of the prefetch buffers of a partition's gather tiles. -/
def State.preRoom (s : State) (r : Req) (part : Nat) : Nat :=
  min 0x14 (bits (r.snap.getD 1 0) 23 16) * 65536 * (s.gatherTiles part).length

/-- R227, R233: the open version of a table, for a command that was accepted while the table was enabled. -/
def State.openVer (s : State) (r : Req) (t : Nat) : Nat := (if s.tabOn t then s.tabVer t else r.ver) + 1

/-- R213: the checks of the table that a command names. -/
def State.tabCheck (s : State) (c : Nat) (r : Req) (t : Nat) : Except Code Tab :=
  let b := r.tab t
  let code := Code.ofNum (r.snap.getD 3 0)
  if 1024 ≤ t || !r.on then .error .invalidArg
  else if code.bad then .error code
  else if b.tenant ≠ s.tenant c ∨ b.part ≠ s.partOf c then .error .denied
  else .ok b

/-- R217, R388: the composition of a command on a table: none when it is not sharded. -/
def State.tabComp (s : State) (c : Nat) (b : Tab) : Except Code (Option (Nat × CompMap)) :=
  if !b.sharded then .ok none
  else match s.ctxComp c with
    | none => .error .denied
    | some (n, m) =>
      if (match m.object 1 b.t with | some o => objFirst o != 0 | none => false) then .error .invalidArg
      else if (s.comp n).removing then .error .routeStale else .ok (some (n, m))

/-- R30, R213, R217: the table of a command whose operation area is in order or not, or the largest code that ends it. -/
def State.tabArg (s : State) (c : Nat) (r : Req) (t : Nat) (areaOk : Bool) : Except Code (Tab × Option (Nat × CompMap)) :=
  let area : Code := if areaOk then .ok else .invalidArg
  match s.tabCheck c r t with
  | .error k => .error (area.worst k)
  | .ok b => match s.tabComp c b with
    | .error k => .error (area.worst k)
    | .ok cm => if areaOk then .ok (b, cm) else .error area

/-- R219: an index or its owner is out of range. -/
def Tab.idxOk (b : Tab) (m : Option CompMap) (r : Nat) : Bool :=
  decide (r < b.rows) && match m with
    | some m => decide (r / b.held < m.members.length)
    | none => true

/-- The rows of a batch that this node holds. -/
def Tab.mine (b : Tab) (m : Option CompMap) (rows : List Nat) : List Nat := rows.filter fun r => (b.owner m r).isNone

/-- R555, R30: what ends a command that needs the gather tiles of its partition. -/
def State.tilesCode (s : State) (n : Nat) : Code :=
  if !s.hasPers n persGather then .invalidArg else if s.fencedFor n [persGather] then .reset else .ok

/-- R236: fetches on the first gather tile of a partition and windows on every one (log entry 308). -/
def State.noteGather (s : State) (n fetches windows : Nat) : State :=
  let tiles := s.gatherTiles n
  (tiles.foldl (fun s t => s.addF F.TILE_EMB_STAT_WINDOWS t windows) s).addF F.TILE_EMB_STAT_FETCHES (tiles.headD 0) fetches

/-- R45, R54: saturations by output row: row k is formed on the gather tile of rank k mod G (log entry 308). -/
def State.noteSats (s : State) (n : Nat) (sats : List Nat) : State :=
  let tiles := s.gatherTiles n
  ((List.range sats.length).zip sats).foldl (fun s (k, x) =>
    s.addF F.TILE_NUM_STAT_SAT_COUNT (tiles.getD (k % max 1 tiles.length) 0) x) s

/-! Rows of other nodes (R217) -/

/-- The sub-requests of a command that this node sent. -/
def State.subsOf (s : State) (p : SubOwner → Bool) : List OutSub := s.fab.subs.filter fun o => p o.owner

def isGather (c q : Nat) : SubOwner → Bool
  | .gather a b _ => a == c && b == q
  | _ => false

def isScatter (c q : Nat) : SubOwner → Bool
  | .scatter a b => a == c && b == q
  | _ => false

/-- The answers of a command's sub-requests taken up. -/
def State.dropSubs (s : State) (p : SubOwner → Bool) : State :=
  s.setFab fun x => { x with subs := x.subs.filter fun o => !p o.owner }

/-- A row that a peer sent: bytes 10 and 11 of its slot hold the code that its read met and whether the cellar served it (log entry 55). -/
def remoteSlot (d : Bytes) : Row := ⟨putAt d 10 [0#8, 0#8], Code.ofNum (byteAt d 10), byteAt d 11 == 1⟩

/-- A row among the answers of a command's sub-requests. -/
def remoteRow (rs : Nat) (subs : List OutSub) (r : Nat) : Row :=
  match subs.findSome? fun o => match o.owner with
    | .gather _ _ rows => ((List.range rows.length).find? fun k => rows.getD k 0 == r).map fun k => slice (o.answer.getD []) (k * rs) rs
    | _ => none with
  | some d => remoteSlot d
  | none => ⟨zeros rs, .uncorrectable, false⟩

/-- R217: the rows of a batch by owner, in the order in which its windows ask for them. -/
def remoteRows (b : Tab) (m : Option CompMap) (idx : List Nat) : List (Nat × List Nat) :=
  let rows := idx.filterMap fun r => (b.owner m r).map fun o => (o, r)
  (dedupNat (rows.map (·.1))).map fun o => (o, (rows.filter fun x => x.1 == o).map (·.2))

/-- R393: a rank of a batch is down. -/
def State.anyDown (s : State) (cm : Option (Nat × CompMap)) (ranks : List Nat) : Bool :=
  match cm with
  | some (n, _) => ranks.any fun r => !s.rankUp n r
  | none => false

/-! Prefetch (R223) -/

/-- The buffer of a context on a table. -/
def State.preBuf (s : State) (c t : Nat) : Option Prefetch := s.prefetch.find? fun p => p.ctx == c && p.table == t

/-- R223: a GATHER uses this buffer. -/
def Prefetch.serves (p : Prefetch) (x : Emb) : Bool := p.next == opN x.d 16 8 && p.count == x.n

/-- R223: the buffer of a context on a table is released. -/
def State.releasePrefetch (s : State) (c : Nat) (b : Tab) : State :=
  let mine (p : Prefetch) : Bool := p.ctx == c && p.table == b.t
  let s := s.noteDrops b.part ((s.prefetch.filter mine).flatMap (·.rows))
  { s with prefetch := s.prefetch.filter fun p => !mine p }

/-- R223: a GATHER is issued: a buffer that it does not use is released; of the copies of other nodes' rows, those stay whose row no
command at its owner has written since, which only the owner can tell (log entry 309). -/
def State.issueGather (s : State) (c : Nat) (x : Emb) (b : Tab) : State :=
  match s.preBuf c b.t with
  | none => s
  | some p =>
    if !p.serves x then s.releasePrefetch c b
    else
      let (s, rows, old) := p.rows.foldl (fun (s, rows, old) y =>
        if !y.remote then (s, rows ++ [y], old)
        else
          let (s, n) := s.draw
          if Config.copyFresh n then (s, rows ++ [y], old) else (s, rows, old ++ [y])) (s, ([] : List PreRow), ([] : List PreRow))
      let s := s.noteDrops b.part old
      { s with prefetch := s.prefetch.map fun y => if y = p then { p with rows := rows } else y }

/-- R223: a usable prefetched copy; a pinned batch uses one only where it came from the slot that R230 chooses. -/
def State.prefetched (s : State) (c : Nat) (x : Emb) (b : Tab) (pinned : Option Nat) (r : Nat) : Option PreRow :=
  match s.preBuf c b.t with
  | none => none
  | some p =>
    if !p.serves x then none
    else match p.rows.find? fun y => y.row == r with
      | none => none
      | some y => if y.remote || y.cold || rowVersion y.slot = rowVersion (s.readRow b (r - b.first) pinned).2.slot then some y else none

/-- R223: a prefetched copy has been used. -/
def State.useCopy (s : State) (c t r : Nat) : State :=
  { s with prefetch := s.prefetch.map fun p =>
      if p.ctx = c ∧ p.table = t then { p with rows := p.rows.map fun y => if y.row = r then { y with used := true } else y } else p }

/-- R223: the buffers that give way, oldest first, so that a batch finds room for `need` bytes of `room`. -/
def State.makeRoom (s : State) (part need room : Nat) : State :=
  let taken (l : List Prefetch) : Nat := ((l.filter fun p => s.partOf p.ctx == part).map fun p => (p.rows.map (·.slot.length)).sum).sum
  (s.prefetch.filter fun p => s.partOf p.ctx == part).foldl (fun s p =>
    if taken s.prefetch + need ≤ room then s
    else
      let s := s.noteDrops part p.rows
      { s with prefetch := s.prefetch.filter (· != p) }) s

/-- R216: the rows of other nodes asked for, one sub-request to each of their owners. -/
def State.askOwners (s : State) (m : CompMap) (d : Bytes) (pin : Bool) (owner : List Nat → SubOwner) (asks : List (Nat × List Nat)) : State :=
  asks.foldl (fun s (o, rows) => s.sendSub m o (owner rows) (b2n pin) 0 0 d ((rows.map (leBytes 8)).flatten)) s

/-- R223: the prefetch of the next batch: the rows of its first window, those of other nodes by a sub-request to each owner. -/
def State.prefetchNext (s : State) (c : Nat) (r : Req) (x : Emb) (b : Tab) (m : Option CompMap) (pinned : Option Nat) : State :=
  let n := opN x.d 64 4
  let room := s.preRoom r b.part
  let (t, ib, code) := s.ctxLoad c (opN x.d 56 8) (8 * n)
  if code.bad || room / b.rs = 0 || t.pool.needs ≠ s.pool.needs then s
  else
    let idx := (List.range n).map fun k => leAt ib (8 * k) 8
    let win := (((coalesce r.window idx).headD []).filter (b.idxOk m)).take (room / b.rs)
    let t := t.makeRoom b.part (win.length * b.rs) room
    let (t, rows) := (b.mine m win).foldl (fun (t, l) r =>
      let (t, w) := t.readRow b (r - b.first) pinned
      (t, if w.code.bad then l else l ++ [⟨r, w.slot, w.cold, false, false⟩])) (t, ([] : List PreRow))
    let t := t.noteGather b.part rows.length 0
    let t : State := { t with prefetch := t.prefetch ++ [⟨c, b.t, opN x.d 56 8, n, rows⟩] }
    match m with
    | some m => t.askOwners m x.d pinned.isSome (fun l => .prefetch c b.t l) (remoteRows b (some m) win)
    | none => t

/-- R223: rows of another node for a prefetch buffer have come: the buffer takes them, if it is there still. -/
def State.prefetchReply (s : State) (c t : Nat) (rows : List Nat) (code : Code) (d : Bytes) : State :=
  let rs := d.length / max 1 rows.length
  let got := if code.bad then [] else ((List.range rows.length).zip rows).filterMap fun (k, r) =>
    let w := remoteSlot (slice d (k * rs) rs)
    if w.code.bad then none else some (⟨r, w.slot, w.cold, true, false⟩ : PreRow)
  { s with prefetch := s.prefetch.map fun p => if p.ctx = c ∧ p.table = t then { p with rows := p.rows ++ got } else p }

/-! GATHER (R218 to R223, R230) -/

/-- A row that a window fetched. -/
structure Fetched where
  row    : Nat
  got    : Row
  remote : Bool
  hit    : Bool
deriving DecidableEq, Repr, Inhabited

/-- One window's rows. -/
def State.fetchWindow (s : State) (c : Nat) (x : Emb) (b : Tab) (m : Option CompMap) (pinned : Option Nat) (subs : List OutSub)
    (rows : List Nat) : State × List Fetched :=
  rows.foldl (fun (s, l) r =>
    match s.prefetched c x b pinned r, b.owner m r with
    | some y, _ => (s.useCopy c b.t r, l ++ [⟨r, ⟨y.slot, .ok, y.cold⟩, y.remote, true⟩])
    | none, some _ => (s, l ++ [⟨r, remoteRow b.rs subs r, true, false⟩])
    | none, none =>
      let (s, w) := s.readRow b (r - b.first) pinned
      (s, l ++ [⟨r, w, false, false⟩])) (s, [])

/-- R221: the window that serves each position: rows of the windows in turn. -/
def posRows (window : Nat) (idx : List Nat) : List (Nat × Nat) :=
  let (_, _, l) := idx.foldl (fun (k, cur, l) r =>
    if cur.contains r then (k, cur, l ++ [(k, r)])
    else if cur.length < window then (k, cur ++ [r], l ++ [(k, r)])
    else (k + 1, [r], l ++ [(k + 1, r)])) (0, ([] : List Nat), ([] : List (Nat × Nat)))
  l

/-- The bag of a position: the last whose first position is not above it. -/
def bagOf (offs : List Nat) (i : Nat) : Nat := ((offs.dropLast).filter fun o => decide (o ≤ i)).length - 1

/-- R222: the output rows of a batch: fp32 values, or none where a row of it could not be read. -/
def embOut (x : Emb) (b : Tab) (g : Batch) (vals : List (Option (List F32))) : List (Option (List F32)) :=
  let wv := (vals.zip g.weights).map fun (v, w) => v.map fun l => l.map fun y => fMul w y
  if !x.pool then wv
  else (List.range x.bags).map fun k =>
    let lo := g.offs.getD k 0
    let hi := g.offs.getD (k + 1) 0
    let mine := slice' wv lo (hi - lo)
    if mine.any (·.isNone) then none
    else
      let rows := mine.filterMap id
      some ((List.range b.e).map fun e => sumR43 (rows.map fun r => r.getD e fZero))
where
  slice' (l : List (Option (List F32))) (off n : Nat) : List (Option (List F32)) := (l.drop off).take n

/-- An output row; where a row of it was damaged its bytes are not fixed (log entry 55). -/
def State.outBytes (s : State) (x : Emb) (b : Tab) (v : Option (List F32)) : State × Bytes × Nat × Nat :=
  match v with
  | some l =>
    let (d, sat) := packF x.fmt l
    let nan := (l.filter fIsNaN).length
    (s, d ++ zeros (x.os b - d.length), nan, sat)
  | none =>
    let (s, n) := s.draw
    (s, (List.range (x.os b)).map fun k => Config.damagedRowByte n k, 0, 0)

/-- R220 to R223: a GATHER whose rows have come. -/
def State.finishGather (s : State) (c q : Nat) (r : Req) (x : Emb) (b : Tab) (m : Option CompMap) (g : Batch) : State :=
  let pinned := r.pinned.map (·.2)
  let wins := coalesce r.window g.idx
  let subs := s.subsOf (isGather c q)
  let (s, got) := wins.foldl (fun (s, l) w =>
    let (s, f) := s.fetchWindow c x b m pinned subs w
    (s, l ++ [f])) (s, ([] : List (List Fetched)))
  let all := got.flatten
  let vals := (posRows r.window g.idx).map fun (k, i) =>
    match (got.getD k []).find? fun f => f.row == i with
    | some f => if f.got.code.bad then none else some (b.elems f.got.slot)
    | none => none
  let start : State × List (Nat × Bytes) × Nat × List Nat := (s, [], 0, [])
  let outs := embOut x b g vals
  let (s, stores, nan, sats) := ((List.range outs.length).zip outs).foldl (fun (s, l, nan, sats) (k, v) =>
    let (s, d, n1, n2) := s.outBytes x b v
    (s, l ++ [(opN x.d 40 8 + k * x.os b, d)], nan + n1, sats ++ [n2])) start
  let code := all.foldl (fun k f => k.worst f.got.code) Code.ok
  let rep : EmbRep := ⟨code, wins.length, all.length, (all.filter (·.remote)).length, (all.filter fun f => f.got.cold).length,
    (all.filter (·.hit)).length, r.ver, nan, sats.sum, (all.filter fun f => f.got.code.bad).length⟩
  let s := (s.noteGather b.part (all.filter fun f => !f.remote && !f.hit).length wins.length).noteSats b.part sats
  let s := match s.preBuf c b.t with
    | some p => if p.serves x then s.releasePrefetch c b else s
    | none => s
  let s := if x.prefetch then s.prefetchNext c r x b m pinned else s
  let (s, k) := s.ctxStores c (stores ++ [(opN x.d 48 8, rep.bytes)])
  (s.dropSubs (isGather c q)).finish c q (Compl.of (code.worst k) 0 0)

/-- The checks of a GATHER or SCATTER: table, composition, batch, rows; of several codes the largest (R30). -/
def State.embChecks (s : State) (c : Nat) (r : Req) (x : Emb) (fieldsOk : Bool) (extra : Tab → Bool) (write : Bool)
    (outs : List (Nat × Nat × Bool)) : State × Except Code (Tab × Option (Nat × CompMap) × Batch) :=
  match s.tabArg c r x.t fieldsOk with
  | .error k => (s, .error k)
  | .ok (b, cm) =>
    let (s, k) := outs.foldl (fun (s, k) (a, n, w) => let (s, e) := s.reach c a n w; (s, k.worst e)) (s, Code.ok)
    match s.batchOf c x with
    | (s, .error e) => (s, .error (e.worst k))
    | (s, .ok g) =>
      let m := cm.map (·.2)
      let inRange : Code := if !g.idx.all (b.idxOk m) || (x.pool && !g.offsOk x.n) || !extra b then .invalidArg else .ok
      let code := ((k.worst inRange).worst (s.tilesCode b.part)).worst
        (if inRange.bad then .ok else s.coldCodes b write (dedupNat (b.mine m g.idx)))
      (s, if code.bad then .error code else .ok (b, cm, g))

/-- R216: a command that waits for rows of other nodes. -/
def State.askRows (s : State) (c q : Nat) (d : Bytes) (pin : Bool) (slot : Nat) (m : CompMap) (asks : List (Nat × List Nat)) : State :=
  (s.askOwners m d pin (fun rows => .gather c q rows) asks).setReq c q fun r =>
    { r with work := .remote asks.length .ok, comp := some slot, epoch := m.epoch }

/-- R221, R223: the rows of other nodes that a GATHER asks for: in each window those that no copy serves. -/
def State.gatherAsks (s : State) (c : Nat) (r : Req) (x : Emb) (b : Tab) (m : Option CompMap) (g : Batch) : List (Nat × List Nat) :=
  remoteRows b m ((coalesce r.window g.idx).flatMap fun w => w.filter fun i => (b.owner m i).isSome && (s.prefetched c x b none i).isNone)

/-- GATHER: R218 to R223, R229, R230. -/
def execGather (c : BitVec 12) (q : BitVec 16) (s : State) : Host.Outcome State Fault Refusal :=
  gated s fun s => s.runCmd c.toNat q.toNat 0x20 fun s r =>
    let c := c.toNat
    let q := q.toNat
    let x := embOf r.desc
    match s.embChecks c r x x.gatherOk (fun b => !x.third || b.shadow) false
        [(opN x.d 40 8, x.outs * x.os (r.tab x.t), true), (opN x.d 48 8, 64, true)] with
    | (s, .error k) => s.finishCode c q k
    | (s, .ok (b, cm, g)) =>
      let m := cm.map (·.2)
      let s := s.issueGather c x b
      let asks := s.gatherAsks c r x b m g
      if s.anyDown cm (asks.map (·.1)) then s.finishCode c q .fenced
      else match asks, cm with
        | [], _ => s.finishGather c q r x b m g
        | _, none => s.finishGather c q r x b m g
        | _, some (n, m) => s.askRows c q r.desc x.third n m asks

/-! SCATTER (R224 to R226) -/

/-- R225: the sum of a row: its positions in ascending order, each with its weight and gradient; and how many. -/
def rowSum (x : Emb) (b : Tab) (g : Batch) (grads : List (List F32)) (r : Nat) : Nat × List F32 :=
  let pos := ((List.range x.n).zip g.idx).filter fun (_, y) => y == r
  let terms := pos.map fun (i, _) =>
    let gr := grads.getD (if x.pool then bagOf g.offs i else i) []
    gr.map fun y => fMul (g.weights.getD i fOne) y
  (pos.length, (List.range b.e).map fun e => sumR43 (terms.map fun t => t.getD e fZero))

/-- R226: a row after an update: its slot, and its saturations. -/
def Tab.updated (b : Tab) (slot : Bytes) (alpha : F32) (sum : List F32) (ver : Nat) : Bytes × Nat :=
  let sc := bf16 (leAt slot 8 2)
  let new := ((b.elems slot).zip sum).map fun (x, y) =>
    let z := fAdd x (fMul alpha y)
    if b.fmt = 5 then fDiv z sc else z
  let (d, sat) := packF b.fmt new
  (leBytes 8 ver ++ slice slot 8 8 ++ d ++ zeros (b.rs - 16 - d.length), sat)

/-- What a SCATTER counts over rows: rows written, saturations, damaged rows, rows of the cellar, and the worst code. -/
structure Scat where
  rows : Nat
  sat  : Nat
  bad  : Nat
  cold : Nat
  code : Code
deriving DecidableEq, Repr, Inhabited

def Scat.none : Scat := ⟨0, 0, 0, 0, .ok⟩

def Scat.add (a b : Scat) : Scat := ⟨a.rows + b.rows, a.sat + b.sat, a.bad + b.bad, a.cold + b.cold, a.code.worst b.code⟩

/-- R226: local rows updated under a version. -/
def State.updateRows (s : State) (b : Tab) (alpha : F32) (ver : Nat) (rows : List (Nat × List F32)) : State × Scat :=
  rows.foldl (fun (s, z) (r, sum) =>
    let (s, w) := s.readRow b (r - b.first) none
    if w.code.bad then (s, z.add ⟨0, 0, 1, b2n w.cold, w.code⟩)
    else
      let (d, sat) := b.updated w.slot alpha sum ver
      (s.writeRow b (r - b.first) d, z.add ⟨1, sat, 0, b2n w.cold, .ok⟩)) (s, Scat.none)

/-- R226: a sum record. -/
def sumRecord (b : Tab) (r n : Nat) (sum : List F32) : Bytes :=
  let d := leBytes 8 r ++ leBytes 4 n ++ zeros 4 ++ f32s sum
  d ++ zeros (up64 (16 + 4 * b.e) - d.length)

/-- The end of a SCATTER over `distinct` rows, of which other nodes hold `remote`: its report and completion; `ver` is the version
stamped, and 0 with EXPORT. -/
def State.endScatter (s : State) (c q : Nat) (r : Req) (x : Emb) (b : Tab) (distinct fetches remote ver : Nat) (z : Scat) : State :=
  let wins := ceilDiv distinct r.window
  let rep : EmbRep := ⟨z.code, wins, fetches, remote, z.cold, 0, ver, 0, z.sat, z.bad⟩
  let s := s.noteGather b.part (distinct - remote) wins
  let (s, k) := s.ctxStore c (opN x.d 48 8) rep.bytes
  ((s.dropSubs (isScatter c q)).dropSubs (isGather c q)).finish c q (Compl.of (z.code.worst k) z.rows ver)

/-- R225: the gradients of a batch; those of empty bags are not read. -/
def State.gradsOf (s : State) (c : Nat) (x : Emb) (b : Tab) (g : Batch) : State × Except Code (List (List F32)) :=
  (List.range x.outs).foldl (fun (s, res) n =>
    match res with
    | .error k => (s, .error k)
    | .ok l =>
      if x.pool && g.offs.getD n 0 == g.offs.getD (n + 1) 0 then (s, .ok (l ++ [[]]))
      else
        let (s, d, k) := s.ctxLoad c (opN x.d 40 8 + n * x.os b) (fmtBytes x.fmt b.e)
        (s, if k.bad then .error k else .ok (l ++ [elemsF x.fmt d b.e]))) (s, .ok [])

/-- R225: the distinct rows of a batch in the order of first occurrence, with their term counts and sums. -/
def rowSums (x : Emb) (b : Tab) (g : Batch) (grads : List (List F32)) : List (Nat × Nat × List F32) :=
  (dedupNat g.idx).map fun r => (r, rowSum x b g grads r)

/-- R226: a SCATTER with EXPORT, once the rows of other nodes have come: the sums of the rows that can be read are stored as a list. -/
def State.emitGrads (s : State) (c q : Nat) (r : Req) (x : Emb) (b : Tab) (m : Option CompMap) (sums : List (Nat × Nat × List F32)) : State :=
  let subs := s.subsOf (isGather c q)
  let (s, out, z) := sums.foldl (fun (s, l, z) (i, n, sum) =>
    let (s, w) := match b.owner m i with
      | some _ => (s, remoteRow b.rs subs i)
      | none => s.readRow b (i - b.first) none
    if w.code.bad then (s, l, z.add ⟨0, 0, 1, b2n w.cold, w.code⟩)
    else (s, l ++ [sumRecord b i n sum], z.add ⟨1, 0, 0, b2n w.cold, .ok⟩)) (s, ([] : List Bytes), Scat.none)
  let remote := ((remoteRows b m (sums.map (·.1))).map fun y => y.2.length).sum
  let (s, k) := s.ctxStore c (opN x.d 56 8) out.flatten
  if k.bad then (s.dropSubs (isGather c q)).finishCode c q k else s.endScatter c q r x b sums.length out.length remote 0 z

/-- R216, R225: a SCATTER that updates: the rows of this node at once, those of other nodes by a sub-request to each. -/
def State.applyGrads (s : State) (c q : Nat) (r : Req) (x : Emb) (b : Tab) (cm : Option (Nat × CompMap)) (asks : List (Nat × List Nat))
    (sums : List (Nat × Nat × List F32)) : State :=
  let ver := s.openVer r b.t
  let mine := (sums.filter fun y => (b.owner (cm.map (·.2)) y.1).isNone).map fun (i, _, sum) => (i, sum)
  let (s, z) := s.updateRows b (BitVec.ofNat 32 (opN x.d 64 4)) ver mine
  let s := s.noteSats b.part [z.sat]
  match asks, cm with
  | [], _ => s.endScatter c q r x b sums.length sums.length 0 ver z
  | _, none => s.endScatter c q r x b sums.length sums.length 0 ver z
  | _, some (slot, m) =>
    let remote := (asks.map fun y => y.2.length).sum
    let s := asks.foldl (fun s (o, rs) => s.sendSub m o (.scatter c q) 0 0 0 r.desc
      ((rs.map fun y => leBytes 8 y ++ f32s ((sums.find? fun z => z.1 == y).map (·.2.2) |>.getD [])).flatten)) s
    s.setReq c q fun r => { r with work := .remote asks.length z.code, comp := some slot, epoch := m.epoch,
                                   figures := [sums.length, remote, z.rows, z.sat, z.bad, z.cold, ver] }

/-- SCATTER: R224 to R226. -/
def execScatter (c : BitVec 12) (q : BitVec 16) (s : State) : Host.Outcome State Fault Refusal :=
  gated s fun s => s.runCmd c.toNat q.toNat 0x21 fun s r =>
    let c := c.toNat
    let q := q.toNat
    let x := embOf r.desc
    match s.embChecks c r x x.scatterOk (fun b => x.third || !b.shadow) (!x.third) [(opN x.d 48 8, 64, true)] with
    | (s, .error k) => s.finishCode c q k
    | (s, .ok (b, cm, g)) => match s.gradsOf c x b g with
      | (s, .error k) => s.finishCode c q k
      | (s, .ok grads) =>
        let sums := rowSums x b g grads
        let asks := remoteRows b (cm.map (·.2)) (sums.map (·.1))
        if s.anyDown cm (asks.map (·.1)) then s.finishCode c q .fenced
        else if !x.third then s.applyGrads c q r x b cm asks sums
        else match asks, cm with
          | [], _ => s.emitGrads c q r x b (cm.map (·.2)) sums
          | _, none => s.emitGrads c q r x b none sums
          | _, some (slot, m) => s.askRows c q r.desc false slot m asks

/-! Answers and service of peers -/

/-- R226: what the owners of a SCATTER's rows answered. -/
def scatAnswer (o : OutSub) : Scat :=
  let d := o.answer.getD []
  ⟨leAt d 0 4, leAt d 4 4, leAt d 8 4, leAt d 12 4, Code.ofNum (byteAt d 16)⟩

/-- R217: a command on a table whose answers from other nodes have all come. -/
def State.endRemote (s : State) (c q : Nat) (r : Req) (worst : Code) : State :=
  let x := embOf r.desc
  let b := r.tab x.t
  let m := r.comp.bind fun n => s.mapOf n r.epoch
  if descOp r.desc = 0x21 ∧ !x.third then
    let f (k : Nat) : Nat := r.figures.getD k 0
    let z := (s.subsOf (isScatter c q)).foldl (fun z o => z.add (scatAnswer o)) ⟨f 2, f 3, f 4, f 5, worst⟩
    s.endScatter c q r x b (f 0) (f 0) (f 1) (f 6) z
  else match s.batchOf c x with
    | (s, .error k) => s.endReq c q k
    | (s, .ok g) =>
      if descOp r.desc = 0x20 then s.finishGather c q r x b m g
      else match s.gradsOf c x b g with
        | (s, .error k) => s.endReq c q k
        | (s, .ok grads) => s.emitGrads c q r x b m (rowSums x b g grads)

/-- R217: the answer to a sub-batch; once all have come the command ends. -/
def State.embReply (s : State) (c q tag : Nat) (code : Code) (d : Bytes) : State :=
  match s.req c q with
  | none => s
  | some r => match r.work with
    | .remote left worst =>
      if code.bad then s.endReq c q code
      else
        let s := s.setFab fun x => { x with subs := x.subs.map fun o => if o.tag = tag then { o with answer := some d } else o }
        if 1 < left then s.setWork c q (.remote (left - 1) worst)
        else State.withLines 64 s (s.tenant c) fun s => s.endRemote c q r worst
    | _ => s

/-- R388: the table of a sub-batch, owned by the tenant that asks. -/
def State.peerTab (s : State) (tenant t : Nat) : Except Code Tab :=
  if 1024 ≤ t || !s.tabOn t then .error .invalidArg
  else
    let b := s.tab t
    if b.tenant ≠ tenant then .error .denied
    else if (s.part b.part).img.isNone then .error .fenced
    else if s.fencedFor b.part [persGather] then .error .fenced
    else if !s.hasPers b.part persGather then .error .invalidArg
    else .ok b

/-- The rows of a sub-batch are this node's, and those in the cellar can be had. -/
def State.peerRows (s : State) (b : Tab) (write : Bool) (rows : List Nat) : Code :=
  if rows.all fun r => decide (b.first ≤ r ∧ r < b.first + b.held) then s.coldCodes b write rows else .invalidArg

/-- R217, R230: a sub-batch of a GATHER served: whole rows, of a pinned one at the version that was published here as it arrived. -/
def State.peerGather (s : State) (tenant pin : Nat) (a : Arrival) (desc data : Bytes) : State × Code × Bytes :=
  match s.peerTab tenant (embOf desc).t with
  | .error k => (s, k, [])
  | .ok b =>
    let rows := (pieces 8 data).map leNat
    let k := s.peerRows b false rows
    if k.bad then (s, k, [])
    else
      let (s, d) := rows.foldl (fun (s, d) r =>
        let (s, w) := s.readRow b (r - b.first) (if pin = 0 then none else some a.ver)
        (s, d ++ putAt w.slot 10 (leBytes 1 w.code.num ++ leBytes 1 (b2n w.cold)))) (s, ([] : Bytes))
      (s.noteGather b.part rows.length 0, .ok, d)

/-- R226: a sub-batch of a SCATTER applied; with EXPORT its rows are sent whole. -/
def State.peerScatter (s : State) (tenant : Nat) (a : Arrival) (desc data : Bytes) : State × Code × Bytes :=
  if (embOf desc).third then s.peerGather tenant 0 a desc data
  else match s.peerTab tenant (embOf desc).t with
    | .error k => (s, k, [])
    | .ok b =>
      let rows := (pieces (8 + 4 * b.e) data).map fun d => (leAt d 0 8, elemsF 0 (d.drop 8) b.e)
      let k := s.peerRows b true (rows.map (·.1))
      if k.bad then (s, k, [])
      else
        let (s, z) := s.updateRows b (BitVec.ofNat 32 (opN desc 64 4)) (s.tabVer b.t + 1) rows
        ((s.noteGather b.part rows.length 0).noteSats b.part [z.sat], .ok,
          leBytes 4 z.rows ++ leBytes 4 z.sat ++ leBytes 4 z.bad ++ leBytes 4 z.cold ++ leBytes 1 z.code.num)

/-! ROW_WRITE and PUBLISH (R227, R229) -/

/-- R230: a sub-batch that waits here and is pinned to a version of a table below one. -/
def pinnedFrame (t v : Nat) (f : Frame) (a : Arrival) : Bool :=
  let d := slice f.payload 32 128
  descOp d == 0x20 && bit (opN d 1 1) 2 && opN d 2 2 == t && decide (a.ver < v)

/-- R229: a batch pinned below a version of a table runs. -/
def State.pinnedBelow (s : State) (t v : Nat) : Bool :=
  (s.ctxs.any fun (_, x) => x.reqs.any fun r => !r.work.ended && match r.pinned with
    | some (u, p) => u == t && decide (p < v)
    | none => false) ||
  (s.fab.held.any fun h => pinnedFrame t v h.frame h.since) || s.fab.partWaits.any fun w => pinnedFrame t v w.2.2.1 w.2.2.2

/-- R228: the ROW_WRITEs on a table that are held, by their places in its order. -/
def State.heldWrites (s : State) (t : Nat) : List Nat :=
  s.ctxs.flatMap fun (_, x) => (x.reqs.filter fun r => r.work == .rowHeld && opN r.desc 2 2 == t).map fun r => r.figures.headD 0

/-- R228, R229: a ROW_WRITE waits: for a pinned batch, or for one on its table that was accepted before it and is held. -/
def State.writeWaits (s : State) (r : Req) (b : Tab) : Bool :=
  b.shadow && (s.pinnedBelow b.t (s.openVer r b.t - 1) ||
    (s.heldWrites b.t).any fun k => r.work != .rowHeld || decide (k < r.figures.headD 0))

/-- R229: a ROW_WRITE held; it is counted once. -/
def State.holdWrite (s : State) (c q : Nat) (r : Req) (b : Tab) : State :=
  if r.work = .rowHeld then s
  else (s.addF F.TILE_EMB_STAT_WRITE_WAITS ((s.gatherTiles b.part).headD 0) 1).setReq c q fun r =>
    { r with work := .rowHeld, figures := [(s.heldWrites b.t).foldl max 0 + 1] }

/-- R227: a row record written under the open version. -/
def Tab.stamped (b : Tab) (rec_ : Bytes) (ver : Nat) : Bytes := leBytes 8 ver ++ slice rec_ 8 (b.rs - 8)

/-- R227: rows written with the version that they carry from now on. -/
def State.writeRows (s : State) (b : Tab) (rows : List (Nat × Bytes)) (ver : Nat) : State :=
  rows.foldl (fun s (x, rec_) => s.writeRow b (x - b.first) (b.stamped rec_ ver)) s

/-- R15, R227: the fields of a ROW_WRITE (log entry 100); the table gives REPORT no alignment. -/
def rowWriteOk (d : Bytes) : Bool :=
  opZero d 1 1 && opZero d 4 4 && decide (opN d 8 4 < 2 ^ 24) && opZero d 12 4 && decide (opN d 16 8 < 2 ^ 52) && opN d 16 8 % 32 == 0 &&
    opZero d 24 24 && decide (opN d 48 8 < 2 ^ 52) && opZero d 56 40

/-- R15, R227: the fields of a PUBLISH (log entry 100). -/
def publishOk (d : Bytes) : Bool := opZero d 1 1 && opZero d 4 44 && decide (opN d 48 8 < 2 ^ 52) && opZero d 56 40

/-- R15, R216, R227: the row records of a ROW_WRITE: each names a row of this node, and its reserved bytes are 0. -/
def Tab.recsOk (b : Tab) (m : Option CompMap) (rows : List (Nat × Bytes)) : Bool :=
  rows.all fun (i, x) => b.idxOk m i && (b.owner m i).isNone && allZero x 10 6

/-- ROW_WRITE: R227 to R229. -/
def execRowWrite (c : BitVec 12) (q : BitVec 16) (s : State) : Host.Outcome State Fault Refusal :=
  gated s fun s => s.runCmd c.toNat q.toNat 0x22 fun s r =>
    let c := c.toNat
    let q := q.toNat
    let d := r.desc
    let n := opN d 8 4
    match s.tabArg c r (opN d 2 2) (rowWriteOk d) with
    | .error k => s.finishCode c q k
    | .ok (b, cm) =>
      let (s, k1) := s.reach c (opN d 48 8) 64 true
      let (s, recs, k2) := s.ctxLoad c (opN d 16 8) (n * b.rs)
      let rows := (pieces b.rs recs).map fun x => (leAt x 0 8, x)
      let inRange := b.recsOk (cm.map (·.2)) rows
      let code := ((k1.worst k2).worst (s.tilesCode b.part)).worst
        (if k2.bad then .ok else if inRange then s.coldCodes b true (rows.map (·.1)) else .invalidArg)
      if code.bad then s.finishCode c q code
      else if s.writeWaits r b then s.holdWrite c q r b
      else
        let ver := s.openVer r b.t
        let (s, k) := (s.writeRows b rows ver).ctxStore c (opN d 48 8) (EmbRep.bytes ⟨.ok, 0, 0, 0, 0, 0, ver, 0, 0, 0⟩)
        s.finish c q (Compl.of k n ver)

/-- PUBLISH: R217, R227. -/
def execPublish (c : BitVec 12) (q : BitVec 16) (s : State) : Host.Outcome State Fault Refusal :=
  gated s fun s => s.runCmd c.toNat q.toNat 0x23 fun s r =>
    let c := c.toNat
    let q := q.toNat
    let d := r.desc
    match s.tabArg c r (opN d 2 2) (publishOk d) with
    | .error k => s.finishCode c q k
    | .ok (b, _) =>
      let (s, k) := s.reach c (opN d 48 8) 64 true
      let code := k.worst (s.tilesCode b.part)
      if code.bad then s.finishCode c q code
      else
        let ver := s.openVer r b.t
        let s := if s.tabOn b.t then s.setF F.TILE_EMB_VER_VERSION b.t ver else s
        let (s, k) := s.ctxStore c (opN d 48 8) (EmbRep.bytes ⟨.ok, 0, 0, 0, 0, 0, ver, 0, 0, 0⟩)
        s.finish c q (Compl.of k 0 ver)

end Sys2Proof.Machine
end

