-- ==== Sys2Proof/Machine/CellarCmd.lean ====
section
/-! DEFINITION. The cellar's commands and events (R237 to R266, R553, R560): channels, the start, namespaces, what a LUN
does next and how it ends, reads with their decode ladder and deadlines, wear and space, the debug window. -/
namespace Sys2Proof.Machine

/-! Frames that have lost their place -/

/-- R251: a write has one frame fewer to wait for; with the last it ends. -/
def State.writePart (s : State) : Purpose → State
  | .host c q => match s.req c q with
    | some r => match r.work with
      | .writing left => if 1 < left then s.setWork c q (.writing (left - 1)) else s.finish c q (Compl.code .ok)
      | _ => s
    | none => s
  | _ => s

/-- A frame to be written again (R256, R553), under a new SEQ (R242): one whose slot a newer write or a discard has taken needs no
second program (R253), and a map segment is noted as changed, to be written as it stands. -/
def State.renewFrame (s : State) (f : FrameRec) (p : Purpose) : State × Option FrameRec :=
  let key := mapKey f.ns f.lslot
  match p with
  | .filler => (s, none)
  | .segment k => (s.setCel fun x => { x with dirty := if (SMap.find x.dirty k).isSome then x.dirty else SMap.ins x.dirty k s.now }, none)
  | .reloc old =>
    let (t, sq) := s.drawSeq
    if s.isLive (entryPlace old) then (t, some { f with seq := sq }) else (s, none)
  | .log _ _ =>
    let (t, sq) := s.drawSeq
    (t.setCel fun x => { x with logRing := if SMap.find x.logRing f.lslot = some (f.seq + 1) then SMap.ins x.logRing f.lslot (sq + 1) else x.logRing },
      some { f with seq := sq })
  | .host _ _ | .own => match SMap.find s.cellar.buffer key with
    | some (q, d) =>
      if q = f.seq then
        let (t, sq) := s.drawSeq
        (t.setCel fun x => { x with buffer := SMap.ins x.buffer key (sq, d) }, some { f with seq := sq })
      else (s.writePart p, none)
    | none => (s.writePart p, none)

/-- The frames of programs written again, each through `put`. -/
def State.renewAll (s : State) (l : List ProgOp) (put : State → Nat → FrameRec → Purpose → State) : State :=
  (l.flatMap fun o => o.frames.map fun (_, f, p) => (o.stream, f, p)).foldl (fun s (st, f, p) => match s.renewFrame f p with
    | (s, some f) => put s st f p
    | (s, none) => s) s

/-- The frames of programs written again through their streams. -/
def State.rewriteAll (s : State) (l : List ProgOp) : State := s.renewAll l fun s st f p => s.appendFrame st f p

/-- R256: the frames of programs written again into a member of a superblock, and past its end through their streams. -/
def State.refill (s : State) (sb k : Nat) (l : List ProgOp) : State :=
  s.renewAll l fun s st f p => match s.cellar.supers.find? fun b => b.id == sb with
    | some b => if s.takesFrame (b.members.getD k default) then s.placeFrame b k f p else s.appendFrame st f p
    | none => s.appendFrame st f p

/-- A relocation read of a place (R259). -/
def State.queueReloc (s : State) (place : Nat) : State :=
  match s.frameAt place with
  | some f => s.setCel fun x => { x with
      reads := x.reads ++ [⟨x.nextRead, f.ns, f.lslot, 0, 4096, entryOf place, none, .reloc⟩], nextRead := x.nextRead + 1 }
  | none => s

/-- The live frames of a block queued for relocation (R252). -/
def State.emptyBlock (s : State) (key : Nat) : State :=
  ((s.cellar.flash.filter fun (p, _) => placeMember p == key && s.isLive p).map (·.1)).foldl State.queueReloc s

/-- R256: a spare block takes the place of a member that its superblock has lost; where its channel has none the superblock goes on
without. The answer's second part is the place that the spare took. -/
def State.replaceMember (s : State) (b : Super) (key : Nat) : State × Option Nat :=
  let hit (m : Member) : Bool := memberKey m.ch m.tg m.lun m.block == key
  match (b.members.find? hit).bind fun m => s.pickMember false m.ch with
  | some m =>
    let s := s.setBlock (memberKey m.ch m.tg m.lun m.block) fun k => { k with taken := true }
    (s.modSuper b.id fun b => { b with members := b.members.map fun x => if hit x then m else x },
      (List.range b.members.length).find? fun k => hit (b.members.getD k default))
  | none =>
    let ms := b.members.filter fun m => !hit m
    (s.modSuper b.id fun b => { b with members := ms, rot := if ms = [] then 0 else b.rot % ms.length,
                                       closed := b.closed || ms.all fun m => !s.takesFrame m }, none)

/-- R256: a block fails: it is retired, a spare block takes its place in its superblock, its queued programs and those that failed are
written again (into the spare block where the superblock is closed to its stream) and the frames it holds move. -/
def State.loseBlock (s : State) (key : Nat) (failed : List ProgOp) : State :=
  let s := (s.retire key).setBlock key fun b => { b with taken := true }
  let lk := key % 2 ^ 11
  let lost := failed ++ (s.lunSt lk).progs.filter fun o => memberKey o.ch o.tg o.lun o.block == key
  let s := s.setLun lk fun l => { l with progs := l.progs.filter fun o => memberKey o.ch o.tg o.lun o.block != key }
  let s := match s.cellar.supers.find? fun b => b.members.any fun m => memberKey m.ch m.tg m.lun m.block == key with
    | none => s.rewriteAll lost
    | some b => match s.replaceMember b key with
      | (s, some k) => if b.closed then s.refill b.id k lost else s.rewriteAll lost
      | (s, none) => s.rewriteAll lost
  s.emptyBlock key

/-! Reads that end -/

/-- The tenant whose translation a request's bytes took. -/
def State.reqTenant (s : State) (c : Nat) : Nat := s.tenant c

/-- R264: a CELLAR_READ has one slot fewer to wait for; with the last it ends. -/
def State.readPart (s : State) (c q : Nat) (code : Code) : State :=
  match s.req c q with
  | some r => match r.work with
    | .reading left worst =>
      let w := worst.worst code
      if 1 < left then s.setWork c q (.reading (left - 1) w)
      else if w.bad then s.finishCode c q w else s.finish c q (Compl.of w 0 0)
    | _ => s
  | none => s

/-- Bytes delivered to a destination; the worst code. -/
def State.storeRuns (s : State) (tenant : Nat) (dest : List (Nat × Nat)) (d : Bytes) : State × Code :=
  let (s, k, _) := dest.foldl (fun (s, k, o) (a, n) => let (s, e) := s.devStore tenant a (slice d o n); (s, k.worst e, o + n)) (s, Code.ok, 0)
  (s, k)

/-- R264: a destination left by TIMEOUT or UNCORRECTABLE: each unit holds its old contents or the data read. -/
def State.storeSome (s : State) (tenant : Nat) (dest : List (Nat × Nat)) (d : Bytes) : State :=
  (dest.flatMap fun (a, n) => pieceRange 64 a n).foldl (fun (s, o) (a, n) =>
    let (s, k) := s.draw
    (if Config.unitDelivered k then (s.devStore tenant a (slice d o n)).1 else s, o + n)) (s, 0) |>.1

/-- A read ends for whom it was made: the bytes of its frame, or a code (with the data that were read all the same). -/
def State.endRead (s : State) (r : ReadReq) (d : Bytes) (code : Code) : State :=
  let b := slice d r.off r.len
  let s := s.setCel fun x => { x with reads := x.reads.filter fun y => y.id != r.id }
  match r.owner with
  | .cmd c q dest =>
    if code.bad then (s.storeSome (s.reqTenant c) dest b).readPart c q code
    else
      let (s, k) := s.storeRuns (s.reqTenant c) dest b
      s.readPart c q k
  | .rerank job query item off => s.vecPiece job query item off (if code.bad then none else some b)
  | .reloc => s

/-- The data that a read's entry names. -/
def State.readData (s : State) (r : ReadReq) : Bytes := ((s.frameAt (entryPlace r.entry)).map (·.data)).getD (zeros 4096)

/-! Space (R253, R255) -/

/-- R253: no read that resolved to a block is under way. -/
def State.blockUnread (s : State) (key : Nat) : Bool := !s.cellar.reads.any fun r => placeMember (entryPlace r.entry) == key

/-- R255: superblocks whose live frames have all moved: their blocks are erased. -/
def State.eraseEmptied (s : State) : State :=
  let gone := s.cellar.supers.filter fun b => b.leaving && !(s.placesOf b).any s.isLive
  gone.foldl (fun s b =>
    let s := b.members.foldl (fun s m => s.setLun (lunKey m.ch m.tg m.lun) fun l =>
      { l with erases := l.erases ++ [memberKey m.ch m.tg m.lun m.block] }) s
    s.setCel fun x => { x with supers := x.supers.filter fun y => y.id != b.id }) s

/-- R255: a superblock's live frames queued for relocation. -/
def State.leaveSuper (s : State) (b : Super) (wear : Bool) : State :=
  let live := (s.placesOf b).filter s.isLive
  (live.foldl State.queueReloc (s.modSuper b.id fun b => { b with leaving := true, wear := wear })).eraseEmptied

/-- A superblock whose programs have all ended, on channels that take operations. -/
def State.settled (s : State) (b : Super) : Bool :=
  b.closed && b.members.all fun m => s.chIsReady m.ch &&
    (let l := s.lunSt (lunKey m.ch m.tg m.lun)
     !(l.progs.any fun o => o.sb == b.id) && match l.op with | .program o => o.sb != b.id | _ => true)

/-! Channels (R239, R240, R553) -/

/-- R240, R268: ENABLE goes to 1: the targets are reset, identified and trained. -/
def State.startChannel (s : State) (c : Nat) : State :=
  (s.setF F.CELLAR_CH_STAT_STATE c chTraining).setCel fun x =>
    { x with chTargets := SMap.ins x.chTargets c (s.f F.CELLAR_CH_CFG_TARGETS c), chans := SMap.del x.chans c }

/-- R553: a channel takes no further operation. -/
def State.stopChannel (s : State) (c state : Nat) : State :=
  let mine (k : Nat) : Bool := k % 64 == c
  let queued := (s.cellar.luns.filter fun (k, _) => mine k).flatMap fun (_, l) => l.progs
  let running := (s.cellar.luns.filter fun (k, _) => mine k).filterMap fun (_, l) => match l.op with | .read id => some id | _ => none
  let s := (s.setF F.CELLAR_CH_STAT_STATE c state).setCel fun x =>
    { x with luns := x.luns.map fun (k, l) => if mine k then (k, { l with progs := [] }) else (k, l) }
  let s := s.setCel fun x => { x with supers := x.supers.map fun b =>
    { b with closed := b.closed || (b.members.any (·.ch == c) && b.members.all fun m => !s.takesFrame m) } }
  let s := s.rewriteAll queued
  let held := s.cellar.reads.filter fun r => placeCh (entryPlace r.entry) == c && !running.contains r.id
  held.foldl (fun s r =>
    let (s, d) := s.rebuildRead (entryPlace r.entry)
    match d with
    | some d => s.endRead r d .ok
    | none => match r.owner with
      | .cmd a b _ => (s.setCel fun x => { x with reads := x.reads.filter fun y => y.id != r.id }).readPart a b .uncorrectable
      | _ => s.endRead r [] .uncorrectable) s

/-- R239: a target that is accepted against the reference geometry. -/
def targetAccepted (t : TargetReport) (ref : Option Geom) : Bool :=
  t.answered && t.pageCrcOk && t.lpddr4 && t.dataBytes == 16384 && decide (2176 ≤ t.spareBytes) &&
    (t.planes == 1 || t.planes == 2 || t.planes == 4) && decide (1 ≤ t.luns) && decide (t.luns ≤ 4) &&
    decide (t.blocks ≤ 65536) && decide (t.pages ≤ 4096) &&
    match ref with
    | none => true
    | some g => g.planes == t.planes && g.luns == t.luns && g.blocks == t.blocks && g.pages == t.pages

/-- R560: the good blocks of a channel. -/
def State.channelGood (s : State) (c : Nat) : Nat :=
  (s.lunsOf c).foldl (fun a (t, l) =>
    a + ((List.range s.geomOr.blocks).filter fun b => !(s.blockSt (memberKey c t l b)).bad).length) 0

/-- R239: whether every target of a channel is accepted, and the reference geometry after them. -/
def State.acceptTargets (s : State) (n : Nat) (targets : List TargetReport) : Bool × Option Geom :=
  (List.range n).foldl (fun (ok, ref) k =>
    match targets[k]? with
    | none => (false, ref)
    | some t => if targetAccepted t ref then (ok, ref.orElse fun _ => some ⟨n, t.planes, t.luns, t.blocks, t.pages⟩) else (false, ref))
    (true, s.cellar.geom)

/-- R239, R256: a channel READY, with the blocks that its parts report as bad. -/
def State.channelUp (s : State) (c n : Nat) (targets : List TargetReport) : State :=
  let s := s.setFs c [(F.CELLAR_CH_STAT_STATE, chReady), (F.CELLAR_CH_STAT_LUNS, s.geomOr.luns - 1)]
  let s := s.setCel fun x => { x with chans := SMap.ins x.chans c { s.geomOr with targets := n }, zqAt := SMap.ins x.zqAt c s.now }
  let bad := ((List.range n).zip targets).flatMap fun (t, r) => r.badBlocks.map fun (l, _, b) => memberKey c t l b
  bad.foldl (fun s k => s.setBlock k fun b => { b with bad := true }) s

/-- R256, R560: a channel that first comes up after the start adds its good blocks to the spare ones. -/
def State.addSpare (s : State) (c : Nat) : State :=
  if s.cellar.counted.contains c then s.retryWaiting
  else
    ((s.setCel fun x => { x with counted := x.counted ++ [c] }).setF F.CELLAR_HEALTH_SPARE_LEFT 0
      (min (2 ^ 32 - 1) (s.f F.CELLAR_HEALTH_SPARE_LEFT 0 + s.channelGood c))).retryWaiting

/-- CHANNEL_TRAINING_END: R239, R240, R256: STATE leaves TRAINING. -/
def execChannelTrainingEnd (c : BitVec 6) (targets : List TargetReport) (trained : Bool) (s : State) : Host.Outcome State Fault Refusal :=
  gated s fun s =>
    let c := c.toNat
    if 48 ≤ c ∨ s.chState c ≠ chTraining then s
    else
      let n := SMap.get 0 s.cellar.chTargets c
      let (ok, ref) := s.acceptTargets n targets
      let s := s.setCel fun x => { x with geom := ref }
      if !ok then (s.setF F.CELLAR_CH_STAT_STATE c chFailedPart).event F.TOP_INT_STAT_CELLAR
      else if !trained then (s.setF F.CELLAR_CH_STAT_STATE c chFailedTrain).event F.TOP_INT_STAT_CELLAR
      else
        let s := s.channelUp c n targets
        if s.cellar.started then s.addSpare c else s

/-- FAILED_RUN: R240, R553. -/
def execFailedRun (c : BitVec 6) (s : State) : Host.Outcome State Fault Refusal :=
  gated s fun s => if c.toNat < 48 ∧ s.chState c.toNat = chReady then ((s.stopChannel c.toNat chFailedRun).linkLost (0x120 + c.toNat)).event F.TOP_INT_STAT_CELLAR else s

/-- ZQ_SHORT_CALIBRATION: R238: every 100 ms on a channel in use. -/
def execZqShortCalibration (c : BitVec 6) (s : State) : Host.Outcome State Fault Refusal :=
  gated s fun s =>
    if s.chIsReady c.toNat && s.due (SMap.get 0 s.cellar.zqAt c.toNat) 100000 then
      s.setCel fun x => { x with zqAt := SMap.ins x.zqAt c.toNat s.now }
    else s

/-! The start (R560) -/

/-- R250, R258: the flash frames that a start can read: on READY channels. -/
def State.startFrames (s : State) (kind : Nat) : List (Nat × FrameRec) :=
  s.cellar.flash.filter fun (p, f) => f.kind == kind && s.chIsReady (placeCh p)

/-- R250: of frames by key the one of the highest SEQ. -/
def newestBy (l : List (Nat × Nat × FrameRec)) : SMap (Nat × FrameRec) :=
  l.foldl (fun m (k, p, f) => match SMap.find m k with
    | some (_, g) => if g.seq < f.seq then SMap.ins m k (p, f) else m
    | none => SMap.ins m k (p, f)) []

/-- R250: one more than the SEQ of a map entry: that of the frame that it names, or, where it names none, of the segment that holds it. -/
def State.entrySeq (s : State) (key e : Nat) : Nat :=
  let seqAt (p : Nat) : Nat := ((s.frameAt p).map (fun f => f.seq + 1)).getD 0
  match entryState e with
  | 1 => seqAt (entryPlace e)
  | _ => ((SMap.find s.cellar.segments (key / 512)).map seqAt).getD 0

/-- R250: the map that the segments give. -/
def segmentMap (segs : SMap (Nat × FrameRec)) : SMap Nat :=
  segs.foldl (fun m (k, _, f) => (List.range 512).foldl (fun m i => SMap.put 0 m (512 * k + i) (leAt f.data (8 * i) 8)) m) []

/-- R250: the replay of the data frames. -/
def State.replayFrames (s : State) : State :=
  (s.startFrames 1).foldl (fun s (p, f) =>
    let key := mapKey f.ns f.lslot
    if s.entrySeq key (s.mapEntry key) ≤ f.seq then s.setCel fun x => { x with map := SMap.put 0 x.map key (entryOf p) } else s) s

/-- R245, R246, R560: the start reads back every frame of an unverified superblock that lies on a READY channel; one that it cannot
decode makes its slot LOST. -/
def State.verifyAtStart (s : State) : State :=
  (s.cellar.supers.filter fun b => !b.verified).foldl (fun s b =>
    let s := ((s.placesOf b).filter fun p => s.chIsReady (placeCh p)).foldl (fun s p =>
      match s.frameAt p with
      | some f => if f.kind = 1 ∧ s.isLive p then (s.ladderRead f.ns f.lslot p).1 else s.noteRead p
      | none => s) s
    if b.members.all fun m => s.chIsReady m.ch then s.modSuper b.id fun b => { b with verified := true } else s) s

/-- R560: START set: the directory is found, the map loaded, newer superblocks replayed, unverified ones verified. -/
def State.startCellar (s : State) (src : Src) : State :=
  if s.cellar.started then (s.setF F.CELLAR_CFG_START 0 0).writeErr .action src .cellarCfg 0
  else if s.cellar.starting.isSome then s
  else
    let segs := newestBy ((s.startFrames 3).map fun (p, f) => (mapKey f.ns f.lslot, p, f))
    let top := s.cellar.flash.foldl (fun a (_, f) => max a (f.seq + 1)) s.cellar.frameSeq
    let s := s.setCel fun x => { x with segments := segs.map fun (k, p, _) => (k, p), map := segmentMap segs, frameSeq := top }
    let s := s.replayFrames.verifyAtStart
    (s.setF F.CELLAR_CFG_START 0 1).setCel fun x => { x with starting := some (min (2 ^ 40 - 1) s.userSlots) }

/-- R256, R560: the start ends: START clears and USER_SLOTS takes its value; the spare blocks are those that R256 sets aside, as
far as there are good blocks. -/
def State.endStart (s : State) (n : Nat) : State :=
  let spare := min s.goodBlocks (s.allLuns * (2 + s.f F.CELLAR_CFG_RO_SPARE 0))
  let s := (s.setF F.CELLAR_CFG_START 0 0).setF F.CELLAR_CAP_USER_SLOTS 0 n
  (s.setF F.CELLAR_HEALTH_SPARE_LEFT 0 spare).setCel fun x => { x with starting := none, started := true, counted := s.readyChans }

/-- CELLAR_START_END: R256, R560. -/
def execCellarStartEnd (s : State) : Host.Outcome State Fault Refusal :=
  gated s fun s =>
    match s.cellar.starting with
    | none => s
    | some n => (s.endStart n).noteWear.checkSpare

/-! Namespaces (R247, R248) -/

/-- R261: the ring of a LOG namespace as its frames stand. -/
def State.findRing (s : State) (n : Nat) : State :=
  let l := newestBy (((s.startFrames 2 ++ s.startFrames 5).filter fun (_, f) => f.ns == n).map fun (p, f) => (f.lslot, p, f))
  let last := l.foldl (fun (a : Nat × Nat) (k, _, f) => if a.1 ≤ f.seq then (f.seq + 1, k + 1) else a) (0, 0)
  s.setCel fun x => { x with logRing := l.map (fun (k, _, f) => (k, f.seq + 1)),
                             logNext := if (s.nsDesc n).size = 0 then 0 else last.2 % (s.nsDesc n).size }

/-- R248: a namespace whose enable bit may be set. -/
def State.nsMayEnable (s : State) (n : Nat) : Bool :=
  let d := s.nsDesc n
  let total := s.nsEnabled.foldl (fun a k => a + (s.nsDesc k).size) d.size
  inHbm (s.nsAddr n) 64 && !(s.readCode (s.nsAddr n) 64).bad && d.wellFormed && d.size != 0 &&
    (d.kind != nsLog || s.logNs.isNone) && decide (total ≤ s.f F.CELLAR_CAP_USER_SLOTS 0) &&
    (!d.resident || (d.map != 0 && d.map % 64 == 0 && s.plainHbm d.map (8 * d.size)))

/-- R248: a resident map written whole at MAP. -/
def State.writeResident (s : State) (n : Nat) : State :=
  let d := s.nsDesc n
  if !d.resident then s
  else
    let s := s.zeroRange d.map (8 * d.size)
    (s.cellar.map.filter fun (k, _) => k / 2 ^ 40 == n && decide (k % 2 ^ 40 < d.size)).foldl (fun s (k, e) =>
      s.storeN (d.map + 8 * (k % 2 ^ 40)) 8 e) s

/-- R248: a write of CELLAR_NS_EN[j]: bits cleared take effect; each bit set takes effect or is refused and recorded. -/
def State.nsWrite (s : State) (src : Src) (j old new : Nat) : State :=
  let s := s.setReg .cellarNsEn j (old &&& new)
  (onesBelow 64 (new - (old &&& new))).foldl (fun s b =>
    let n := 64 * j + b
    if s.nsMayEnable n then
      let s := (s.setBitF F.CELLAR_NS_EN_ENABLE j b).writeResident n
      if (s.nsDesc n).kind = nsLog then s.findRing n else s
    else s.writeErr .enable src .cellarNsEn j) s

/-! What a LUN does (R258 to R260) -/

/-- R259: the read that a LUN takes next among those that may go before programs. -/
def nextRead (l : List ReadReq) : Option ReadReq :=
  let timed := l.filter fun r => r.deadline.isSome
  match timed.foldl (fun (best : Option ReadReq) r => match best with
      | none => some r
      | some b => if r.deadline.getD 0 < b.deadline.getD 0 then some r else some b) none with
  | some r => some r
  | none => l.head?

/-- R259: the program that a LUN takes next. -/
def nextProg (l : List ProgOp) : Option ProgOp :=
  (List.range 4).findSome? fun st => l.find? fun o => o.stream == st

/-- R241: a page is programmed whole; frames that are not there are fillers (R242, R261). -/
def State.fillPage (s : State) (o : ProgOp) : State × ProgOp :=
  let empty := (List.range 4).filter fun k => !o.frames.any fun f => f.1 == k
  let place := (o.page * s.geomOr.planes + o.plane + 1) * 4
  let s := if empty = [] then s else
    s.modSuper o.sb fun b =>
      let ms := b.members.map fun m => if memberKey m.ch m.tg m.lun m.block = memberKey o.ch o.tg o.lun o.block ∧ m.pos < place
        then { m with pos := place } else m
      { b with members := ms, closed := b.closed || ms.all fun m => !s.takesFrame m }
  empty.foldl (fun (s, o) k =>
    let (s, f) := s.fillerFrame o.stream
    (s, { o with frames := o.frames ++ [(k, f, .filler)] })) (s, o)

/-- R259: an idle LUN starts its next operation. -/
def State.dispatchLun (s : State) (key : Nat) : State :=
  let l := s.lunSt key
  let here := s.cellar.reads.filter fun r => entryPlace r.entry % 2 ^ 11 == key
  let urgent := here.filter fun r => match r.owner with | .reloc => false | _ => true
  let reloc := here.filter fun r => match r.owner with | .reloc => true | _ => false
  match nextRead urgent with
  | some r => s.setLun key fun l => { l with op := .read r.id }
  | none => match nextProg l.progs with
    | some o =>
      let s := s.setLun key fun l => { l with progs := dropFirst (fun x => x == o) l.progs }
      let (s, o) := s.fillPage o
      s.setLun key fun l => { l with op := .program o }
    | none => match reloc.head? with
      | some r => s.setLun key fun l => { l with op := .read r.id }
      | none => match l.erases.find? s.blockUnread with
        | some k => s.setLun key fun l => { l with op := .erase k, erases := dropFirst (fun x => x == k) l.erases }
        | none => s

/-- A LUN has something to do. -/
def State.lunWaits (s : State) (key : Nat) : Bool :=
  (s.lunSt key).progs != [] || (s.lunSt key).erases != [] || s.cellar.reads.any fun r => entryPlace r.entry % 2 ^ 11 == key

/-- LUN_DISPATCH: R259; a channel group whose clock is stopped is woken first (R260, R505). -/
def execLunDispatch (c : BitVec 6) (tg : BitVec 3) (lun : BitVec 2) (s : State) : Host.Outcome State Fault Refusal :=
  gated s fun s =>
    let key := lunKey c.toNat tg.toNat lun.toNat
    if s.chIsReady c.toNat && (s.lunsOf c.toNat).contains (tg.toNat, lun.toNat) && (s.lunSt key).op == .idle then
      if s.depth (40 + groupOfCh c.toNat) == 0 then s.dispatchLun key
      else if s.lunWaits key then s.wakeFor (40 + groupOfCh c.toNat) else s
    else s

/-- R260: a read abandoned at its deadline. -/
def State.abandonRead (s : State) (r : ReadReq) : State :=
  (s.addF F.CELLAR_ERR_B_DEADLINE (groupOfCh (placeCh (entryPlace r.entry))) 1).endRead r (s.readData r) .timeout

/-- R260: the deadline of a read has passed before its data are in. -/
def State.readLate (s : State) (r : ReadReq) : Bool := match r.deadline with | some t => decide (t < s.now) | none => false

/-- R258, R259: a LUN's read ends: its frame is delivered, moved where R258 says so, or lost. -/
def State.frameRead (s : State) (key : Nat) (r : ReadReq) (o : DecodeOut) : State :=
  let place := entryPlace r.entry
  let s := (s.setLun key fun l => { l with op := .idle }).noteRead place
  let d := s.readData r
  if s.readLate r then (s.abandonRead r).eraseEmptied
  else if o == .failed || !s.frameMatches place r.ns r.slot then
    ((s.loseFrame (mapKey r.ns r.slot) r.entry).endRead r d .uncorrectable).eraseEmptied
  else
    let s := s.noteStage (groupOfCh (placeCh place)) o
    let moves := o == .soft || o == .parity || (match r.owner with | .reloc => true | _ => false)
    let s := s.endRead r d .ok
    (if moves && s.isLive place then s.relocate place else s).eraseEmptied

/-- FRAME_READ_DONE: R258, R260. The destination's lines of cask space are asked for first when the node lacks them, and the
read then ends when this comes again. -/
def execFrameReadDone (c : BitVec 6) (tg : BitVec 3) (lun : BitVec 2) (o : DecodeOut) (s : State) : Host.Outcome State Fault Refusal :=
  gated s fun s =>
    let key := lunKey c.toNat tg.toNat lun.toNat
    match (s.lunSt key).op with
    | .read id =>
      match s.cellar.reads.find? fun r => r.id == id with
      | none => (s.setLun key fun l => { l with op := .idle }).addF F.CELLAR_CH_STAT_READS c.toNat 1
      | some r =>
        let place := entryPlace r.entry
        if !s.stageMay place o then s
        else
          let tenant := match r.owner with | .cmd c _ _ => s.tenant c | _ => 0
          State.withLines 64 s tenant fun s => s.frameRead key r o
    | _ => s

/-- READ_DEADLINE: R260: a read not yet delivered is abandoned. -/
def execReadDeadline (id : Nat) (s : State) : Host.Outcome State Fault Refusal :=
  gated s fun s =>
    match s.cellar.reads.find? fun r => r.id == id with
    | none => s
    | some r => match r.deadline with
      | none => s
      | some t =>
        if s.now < t then s
        else
          let tenant := match r.owner with | .cmd c _ _ => s.tenant c | _ => 0
          State.withLines 64 s tenant fun s => s.abandonRead r

/-! How programs and erases end -/

/-- R250, R251: a programmed frame takes effect. -/
def State.frameDone (s : State) (place : Nat) (f : FrameRec) (p : Purpose) : State :=
  let s := s.setCel fun x => { x with flash := SMap.ins x.flash place f }
  let key := mapKey f.ns f.lslot
  match p with
  | .host _ _ | .own =>
    let s := match SMap.find s.cellar.buffer key with
      | some (q, _) => if q = f.seq then (s.setMap key (entryOf place)).setCel fun x => { x with buffer := SMap.del x.buffer key } else s
      | none => s
    s.writePart p
  | .reloc old =>
    if f.kind = 1 then (if s.mapEntry key = old then s.setMap key (entryOf place) else s)
    else if f.kind = 2 then
      if s.isLive (entryPlace old) then s.setCel fun x => { x with logRing := SMap.ins x.logRing f.lslot (f.seq + 1) } else s
    else if SMap.find s.cellar.segments key = some (entryPlace old) then
      s.setCel fun x => { x with segments := SMap.ins x.segments key place }
    else s
  | .log lo hi => s.setCel fun x => { x with logPend := dropFirst (fun y => y == (lo, hi)) x.logPend }
  | .segment k =>
    let newer := match SMap.find s.cellar.segments k with
      | some q => match s.frameAt q with | some g => decide (g.seq < f.seq) | none => true
      | none => true
    let s := if newer then s.setCel fun x => { x with segments := SMap.ins x.segments k place } else s
    s.ctxs.foldl (fun s (c, x) => x.reqs.foldl (fun s r => match r.work with
      | .discarding segs after =>
        if segs.contains k ∧ after ≤ f.seq then
          let rest := segs.filter (· != k)
          if rest = [] then s.finish c r.slot (Compl.code .ok) else s.setWork c r.slot (.discarding rest after)
        else s
      | _ => s) s) s
  | .filler => s

/-- R251: every frame of a programmed page takes effect. -/
def State.pageDone (s : State) (o : ProgOp) : State :=
  o.frames.foldl (fun s (k, f, p) => s.frameDone (placeOf o.ch o.tg o.lun o.plane o.block o.page k) f p) s

/-- PROGRAM_DONE: R251: the frames of a page are programmed. -/
def execProgramDone (c : BitVec 6) (tg : BitVec 3) (lun : BitVec 2) (s : State) : Host.Outcome State Fault Refusal :=
  gated s fun s =>
    let key := lunKey c.toNat tg.toNat lun.toNat
    match (s.lunSt key).op with
    | .program o =>
      (((s.setLun key fun l => { l with op := .idle }).addF F.CELLAR_CH_STAT_PROGRAMS c.toNat 1).pageDone o).eraseEmptied
    | _ => s

/-- PROGRAM_FAILURE: R256. -/
def execProgramFailure (c : BitVec 6) (tg : BitVec 3) (lun : BitVec 2) (s : State) : Host.Outcome State Fault Refusal :=
  gated s fun s =>
    let key := lunKey c.toNat tg.toNat lun.toNat
    match (s.lunSt key).op with
    | .program o =>
      let s := (s.setLun key fun l => { l with op := .idle }).addF F.CELLAR_ERR_B_PROG_FAIL (groupOfCh c.toNat) 1
      s.loseBlock (memberKey o.ch o.tg o.lun o.block) [o]
    | _ => s

/-- R255: the blocks of a member erased: no frame is left in them, and they are free. -/
def State.erased (s : State) (key k : Nat) : State :=
  let s := s.setLun key fun l => { l with op := .idle }
  let s := s.setCel fun x => { x with flash := x.flash.filter fun (p, _) => placeMember p != k }
  s.setBlock k fun b => { b with pe := b.pe + 1, taken := false, moves := 0 }

/-- ERASE_DONE: R255, R256: the block is free, or is retired. -/
def execEraseDone (c : BitVec 6) (tg : BitVec 3) (lun : BitVec 2) (ok : Bool) (s : State) : Host.Outcome State Fault Refusal :=
  gated s fun s =>
    let key := lunKey c.toNat tg.toNat lun.toNat
    match (s.lunSt key).op with
    | .erase k =>
      let s := s.erased key k
      let s := if ok then s else (s.addF F.CELLAR_ERR_B_ERASE_FAIL (groupOfCh c.toNat) 1).retire k
      s.noteWear.retryWaiting
    | _ => s

/-! The node's own work -/

/-- R255: closed and verified superblocks whose channels take operations. -/
def State.idleSupers (s : State) : List Super := s.cellar.supers.filter fun b => b.verified && !b.leaving && s.settled b

/-- The element of a list with the least measure, the first of equals. -/
def leastBy (f : Super → Nat) (l : List Super) : Option Super :=
  l.foldl (fun (best : Option Super) b => match best with
    | none => some b
    | some a => if f b < f a then some b else some a) none

/-- R255: the live frames of a superblock. -/
def State.liveIn (s : State) (b : Super) : Nat := ((s.placesOf b).filter s.isLive).length

/-- R255: the P/E count of the least-worn block of a superblock. -/
def State.leastPe (s : State) (b : Super) : Nat :=
  (b.members.map fun m => (s.blockSt (memberKey m.ch m.tg m.lun m.block)).pe).foldl min (2 ^ 64)

/-- GARBAGE_COLLECTION: R255. -/
def execGarbageCollection (s : State) : Host.Outcome State Fault Refusal :=
  gated s fun s =>
    match leastBy s.liveIn s.idleSupers with
    | some b => s.leaveSuper b false
    | none => s

/-- The blocks that may wear: every good block of the READY channels, with its P/E count. -/
def State.wears (s : State) : List Nat :=
  s.readyChans.flatMap fun c => (s.lunsOf c).flatMap fun (t, l) =>
    ((List.range s.geomOr.blocks).filter fun b => !(s.blockSt (memberKey c t l b)).bad).map fun b => (s.blockSt (memberKey c t l b)).pe

/-- R255: the most-worn block exceeds the least-worn one by 2^WEAR_SPREAD_LOG2 P/E cycles. -/
def State.unevenWear (s : State) : Bool :=
  decide (s.wears.foldl min (2 ^ 64) + 2 ^ s.f F.CELLAR_CFG_WEAR_SPREAD_LOG2 0 ≤ s.wears.foldl max 0)

/-- R255: the RELOC stream's open superblock closed, so that the next is made of worn blocks. -/
def State.closeReloc (s : State) : State :=
  match s.openSuper stReloc with
  | some b => s.modSuper b.id fun b => { b with closed := true }
  | none => s

/-- WEAR_LEVELLING: R255: the least-worn superblock is the one with the least-worn block. -/
def execWearLevelling (s : State) : Host.Outcome State Fault Refusal :=
  gated s fun s =>
    if s.unevenWear then
      match leastBy s.leastPe s.idleSupers with
      | some b => s.closeReloc.leaveSuper b true
      | none => s
    else s

/-- R245, R256: a frame rebuilt at verification, and its block retired the second time. -/
def State.verifyMove (s : State) (place : Nat) : State :=
  let key := placeMember place
  let s := (s.addF F.CELLAR_ERR_B_VERIFY_MOVE (groupOfCh (placeCh place)) 1).relocate place
  let s := s.setBlock key fun b => { b with moves := b.moves + 1 }
  if (s.blockSt key).moves = 2 then s.loseBlock key [] else s

/-- R245: a frame read back at verification is rebuilt when it needs more than hard decoding or shows more than VERIFY_LIMIT bit errors. -/
def State.isWeak (s : State) (reads : List (Nat × Bool × Nat)) (place : Nat) : Bool :=
  reads.any fun (p, hard, errors) => p == place && (!hard || decide (s.f F.CELLAR_CFG_VERIFY_LIMIT 0 < errors))

/-- SUPERBLOCK_VERIFY: R245, R246: every frame is read back; `reads` tells of frames by place whether hard decoding sufficed and how many
bit errors they showed. -/
def execSuperblockVerify (sb : Nat) (reads : List (Nat × Bool × Nat)) (s : State) : Host.Outcome State Fault Refusal :=
  gated s fun s =>
    match s.cellar.supers.find? fun b => b.id == sb with
    | none => s
    | some b =>
      if b.verified || !s.settled b then s
      else
        ((((s.placesOf b).filter (s.isWeak reads)).foldl State.verifyMove ((s.placesOf b).foldl State.noteRead s)).modSuper sb
          fun b => { b with verified := true }).retryWaiting

/-- MAP_SEGMENT_FLUSH: R250. -/
def execMapSegmentFlush (s : State) : Host.Outcome State Fault Refusal :=
  gated s fun s => s.flushSegments

/-- R266: the bin of a temperature. -/
def tempBin (t : Int) : Nat := if t < -10 then 0 else min 63 ((t + 10) / 2).toNat

/-- R266: the hottest target of a channel group counted in its bin. -/
def State.countTemps (temps : List (Nat × Int)) (s : State) (g : Nat) : State :=
  match (temps.filter fun (c, _) => s.chIsReady c && groupOfCh c == g).map (·.2) with
  | [] => s
  | t :: r =>
    let b := tempBin (r.foldl max t)
    s.addF (if b % 2 = 0 then F.CELLAR_TEMP_HIST_BIN_LO else F.CELLAR_TEMP_HIST_BIN_HI) (32 * g + b / 2) 1

/-- TEMPERATURE_SAMPLE: R266: readings by channel, one of each target of the READY channels, once a second. -/
def execTemperatureSample (temps : List (Nat × Int)) (s : State) : Host.Outcome State Fault Refusal :=
  gated s fun s =>
    if s.f F.CELLAR_CFG_TEMP_FEAT 0 = 0 ∨ !s.due s.cellar.sampled 1000000 then s
    else
      (List.range 4).foldl (State.countTemps temps) (s.setCel fun x => { x with sampled := s.now })

/-! The debug window (R265) -/

/-- R265: an access to window 3 that is not refused. -/
def State.debugOpen (s : State) (addr len : Nat) : Bool :=
  decide (Config.cellarWinBase ≤ addr) && decide (addr - Config.cellarWinBase + len ≤ 2 ^ 50) &&
    s.on F.CELLAR_CFG_DEBUG_WIN 0 && s.chIsReady (s.f F.CELLAR_DEBUG_CH 0)

/-- R265: one byte of window 3: the stored byte of a frame, still whitened; a place that holds no frame is erased flash. -/
def State.debugByte (s : State) (off : Nat) : Byte :=
  if 4640 ≤ off % 8192 then 0#8
  else
    let place := placeOf (s.f F.CELLAR_DEBUG_CH 0) (bits off 49 47) (bits off 46 45) (bits off 44 43) (bits off 42 27)
      (bits off 26 15) (bits off 14 13)
    match s.frameAt place with
    | some f => (f.raw place).getD (off % 8192) 0#8
    | none => 0xFF#8

def State.debugRead (s : State) (addr len : Nat) : Bytes :=
  (List.range len).map fun k => s.debugByte (addr - Config.cellarWinBase + k)

/-- DEBUG_WINDOW_ACCESS: R9, R265: a refused access is recorded; a read changes nothing and a write is ignored. -/
def execDebugWindowAccess (src : Src) (addr : BitVec 52) (len : BitVec 13) (wr : Bool) (s : State) : Host.Outcome State Fault Refusal :=
  gated s fun s => if s.debugOpen addr.toNat len.toNat then s else s.recordErr .access src addr.toNat wr

/-! Commands (R263, R264) -/

/-- R263: the operands of a cellar command. -/
structure CelOp where
  ns   : Nat
  dead : Nat
  off  : Nat
  len  : Nat
  addr : Nat
deriving DecidableEq, Repr, Inhabited

def celOf (d : Bytes) : CelOp := ⟨opN d 2 2, opN d 4 4, opN d 8 8, opN d 16 8, opN d 24 8⟩

/-- R248: the descriptor of a command's namespace, as it stood when the command was accepted. -/
def Req.nsDesc (r : Req) : NsDesc := nsDescOf (leBytes 64 (r.snap.headD 0))

/-- R15, R247, R248, R264: the code of a cellar command before it takes effect. -/
def State.celCheck (s : State) (c : Nat) (r : Req) (x : CelOp) (op : Nat) : Option Code :=
  let d := r.desc
  let n := r.nsDesc
  let unit := if op = 0x30 then 64 else 4096
  if 4096 ≤ x.ns || !r.on then some .invalidArg
  else if n.tenant ≠ s.tenant c then some .denied
  else if !opZero d 1 1 || 2 ^ 52 ≤ x.off || 2 ^ 32 ≤ x.len || (if op = 0x32 then x.addr != 0 else decide (2 ^ 52 ≤ x.addr)) ||
      (if op = 0x30 then decide (2 ^ 24 ≤ x.dead) else x.dead != 0) || n.size * 4096 < x.off + x.len ||
      x.off % unit ≠ 0 || x.len % unit ≠ 0 || (op != 0x30 && (n.readOnly || n.kind == nsLog)) then some .invalidArg
  else none

/-- R253, R260, R264: one slot's part of a CELLAR_READ. -/
def State.readSlotFor (s : State) (c q ns slot off len : Nat) (deadline : Option Nat) (dest : List (Nat × Nat)) :
    State × Bool × Code :=
  let s := s.lookup ns slot
  if (match deadline with | some t => decide (t < s.now) | none => false) then
    (match s.slotRead ns slot with | .flash p => s.addF F.CELLAR_ERR_B_DEADLINE (groupOfCh (placeCh p)) 1 | _ => s, false, .timeout)
  else match s.slotRead ns slot with
  | .here d => let (s, k) := s.storeRuns (s.tenant c) dest (slice d off len); (s, false, k)
  | .lost => (s, false, .uncorrectable)
  | .unready p =>
    let (s, d) := s.rebuildRead p
    match d with
    | some d => let (s, k) := s.storeRuns (s.tenant c) dest (slice d off len); (s, false, k)
    | none => (s, false, .uncorrectable)
  | .flash p => (s.setCel fun x => { x with
      reads := x.reads ++ [⟨x.nextRead, ns, slot, off, len, entryOf p, deadline, .cmd c q dest⟩], nextRead := x.nextRead + 1 }, true, .ok)

/-- R253, R258: the slots of a CELLAR_READ asked for, piece by piece: how many wait for flash, and the worst code of the others. -/
def State.readPieces (s : State) (c q : Nat) (x : CelOp) (deadline : Option Nat) : State × Nat × Code :=
  (pieceRange 4096 x.off x.len).foldl (fun (s, n, w) (p, len) =>
    let (s, m) := s.ctxMap c (x.addr + (p - x.off)) len true
    let dest := match m with | .ok l => l | .error _ => []
    let (s, waits, k) := s.readSlotFor c q x.ns (p / 4096) (p % 4096) len deadline dest
    (s, n + b2n waits, Code.worst w k)) (s, 0, Code.ok)

/-- CELLAR_READ: R253, R254, R258 to R264. -/
def execCellarRead (c : BitVec 12) (q : BitVec 16) (s : State) : Host.Outcome State Fault Refusal :=
  gated s fun s => s.runCmd c.toNat q.toNat 0x30 fun s r =>
    let c := c.toNat
    let q := q.toNat
    let x := celOf r.desc
    match s.celCheck c r x 0x30 with
    | some k => s.finishCode c q k
    | none => match s.ctxMap c x.addr x.len true with
      | (s, .error e) => s.finishCode c q e
      | (s, .ok _) =>
        match s.readPieces c q x (if x.dead = 0 then none else some (r.takenAt + x.dead)) with
        | (s, left, worst) => if left = 0 then s.finishCode c q worst else s.setWork c q (.reading left worst)

/-- R251, R257: the slots of a CELLAR_WRITE written, one after another; the request waits for all of them. -/
def State.writeSlots (s : State) (c q : Nat) (x : CelOp) (d : Bytes) : State :=
  (pieces 4096 d).zip (List.range (x.len / 4096)) |>.foldl (fun s (b, k) => s.writeSlot x.ns (x.off / 4096 + k) b (.host c q))
    (s.setWork c q (.writing (x.len / 4096)))

/-- CELLAR_WRITE: R251, R253, R257, R264. -/
def execCellarWrite (c : BitVec 12) (q : BitVec 16) (s : State) : Host.Outcome State Fault Refusal :=
  gated s fun s => s.runCmd c.toNat q.toNat 0x31 fun s r =>
    let c := c.toNat
    let q := q.toNat
    let x := celOf r.desc
    match s.celCheck c r x 0x31 with
    | some k => s.finishCode c q k
    | none =>
      let (s, d, code) := s.ctxLoad c x.addr x.len
      if code.bad then s.finishCode c q code
      else if x.len = 0 then s.finishCode c q .ok
      else if s.writeRefused r.nsDesc.kind then s.finishCode c q .quota
      else s.writeSlots c q x d

/-- R251, R254: the slots of a CELLAR_DISCARD discarded; the request waits for the map segments that name them. -/
def State.discardSlots (s : State) (c q : Nat) (x : CelOp) : State :=
  let slots := (List.range (x.len / 4096)).map (x.off / 4096 + ·)
  let s := slots.foldl (fun s k => s.discardSlot x.ns k) s
  s.setWork c q (.discarding (dedupNat (slots.map fun k => mapKey x.ns k / 512)) s.cellar.frameSeq)

/-- CELLAR_DISCARD: R251, R253, R254. -/
def execCellarDiscard (c : BitVec 12) (q : BitVec 16) (s : State) : Host.Outcome State Fault Refusal :=
  gated s fun s => s.runCmd c.toNat q.toNat 0x32 fun s r =>
    let c := c.toNat
    let q := q.toNat
    let x := celOf r.desc
    match s.celCheck c r x 0x32 with
    | some k => s.finishCode c q k
    | none =>
      if x.len / 4096 = 0 then s.finishCode c q .ok else s.discardSlots c q x

end Sys2Proof.Machine
end

