-- ==== Sys2Proof/Machine/PoolCmd.lean ====
section
/-! DEFINITION. The shared pool's commands and events (R280 to R307, R468): the coherence requests and answers at the
lender and at this node's pool cache, lost agents, pages of flash-backed casks, and the CASK commands. -/
namespace Sys2Proof.Machine

/-! Requests at the lender -/

/-- A message of an agent that is lost is dropped (R296); other requests reach the lender of their cask when that is this
node. -/
def State.fromAgent (s : State) (agent cask line gen queue : Nat) (op : LineOp) (mask : BitVec 64) (d : Bytes) : State :=
  if caskLender cask ≠ s.self ∨ 2 ^ 26 ≤ cask ∨ agentKind agent = 3 then s
  else if s.pool.lost.contains agent then s.addF F.DIR_STAT_LATE_DROP 0 1
  else s.lenderTake ⟨if agent = s.ownAgent then .cache else .agent, agent, caskLocal cask, line, op, mask, slice d 0 64, queue⟩ gen

/-- RD_S: R289, R290, R293 to R295. -/
def execRdS (agent : BitVec 18) (cask : BitVec 32) (line : BitVec 24) (gen : BitVec 16) (s : State) : Host.Outcome State Fault Refusal :=
  gated s fun s => (s.fromAgent agent.toNat cask.toNat line.toNat gen.toNat 0 .rdS 0#64 []).wakeJobs

/-- RD_M: R289, R290, R293 to R295. -/
def execRdM (agent : BitVec 18) (cask : BitVec 32) (line : BitVec 24) (gen : BitVec 16) (s : State) : Host.Outcome State Fault Refusal :=
  gated s fun s => (s.fromAgent agent.toNat cask.toNat line.toNat gen.toNat 0 .rdM 0#64 []).wakeJobs

/-- RD_NC: R293 to R295. -/
def execRdNc (agent : BitVec 18) (cask : BitVec 32) (line : BitVec 24) (gen : BitVec 16) (s : State) : Host.Outcome State Fault Refusal :=
  gated s fun s => (s.fromAgent agent.toNat cask.toNat line.toNat gen.toNat 0 .rdNc 0#64 []).wakeJobs

/-- WR_NC: R293 to R295. -/
def execWrNc (agent : BitVec 18) (cask : BitVec 32) (line : BitVec 24) (gen : BitVec 16) (mask : Word) (d : Bytes) (s : State) :
    Host.Outcome State Fault Refusal :=
  gated s fun s => (s.fromAgent agent.toNat cask.toNat line.toNat gen.toNat 0 .wrNc mask d).wakeJobs

/-- WB: R293, R294. -/
def execWb (agent : BitVec 18) (cask : BitVec 32) (line : BitVec 24) (gen : BitVec 16) (d : Bytes) (s : State) :
    Host.Outcome State Fault Refusal :=
  gated s fun s => (s.fromAgent agent.toNat cask.toNat line.toNat gen.toNat 0 .wb 0#64 d).wakeJobs

/-- DROP: R293, R294. -/
def execDrop (agent : BitVec 18) (cask : BitVec 32) (line : BitVec 24) (gen : BitVec 16) (s : State) : Host.Outcome State Fault Refusal :=
  gated s fun s => (s.fromAgent agent.toNat cask.toNat line.toNat gen.toNat 0 .drop 0#64 []).wakeJobs

/-! Snoops -/

/-- R292: this node's pool cache gives up a line and answers the lender, with the line when it owned it. -/
def State.cacheSnoop (s : State) (lender cask line : Nat) : State :=
  let held := s.cacheLine cask line
  let d := match held with | some x => if x.owned then some x.bytes else none | none => none
  let s := s.cacheDrop cask line
  if lender = s.self then
    s.snoopAnswer s.ownAgent (caskLocal cask) line (match held, d with
      | _, some d => .withLine d
      | some _, none => .without
      | none, none => .notHeld)
  else s.toPeer lender cask line s.ownAgent 0x12 0 0 0 1 d

/-- SNP_INV: R292. -/
def execSnpInv (lender : BitVec 16) (cask : BitVec 32) (line : BitVec 24) (s : State) : Host.Outcome State Fault Refusal :=
  gated s fun s => s.cacheSnoop lender.toNat cask.toNat line.toNat

/-- SNP_DATA: R292. -/
def execSnpData (lender : BitVec 16) (cask : BitVec 32) (line : BitVec 24) (s : State) : Host.Outcome State Fault Refusal :=
  gated s fun s => s.cacheSnoop lender.toNat cask.toNat line.toNat

/-- R293, R306, R307: a snoop's answer at the lender. -/
def State.snoopFrom (s : State) (agent cask line gen : Nat) (ans : SnoopAns) : State :=
  let c := caskLocal cask
  if caskLender cask ≠ s.self then s
  else if s.pool.lost.contains agent ∨ (s.compat ∧ genOlder gen (s.agentGen c agent)) then s.addF F.DIR_STAT_LATE_DROP 0 1
  else s.snoopAnswer agent c line ans

/-- SNP_ACK: R292, R293, R306, R307. -/
def execSnpAck (agent : BitVec 18) (cask : BitVec 32) (line : BitVec 24) (gen : BitVec 16) (ans : SnoopAns) (s : State) :
    Host.Outcome State Fault Refusal :=
  gated s fun s => (s.snoopFrom agent.toNat cask.toNat line.toNat gen.toNat ans).wakeJobs

/-! Answers from lenders -/

/-- A request that a DATA or CMP answers. -/
def answerFits (agent : Option Nat) (cask line : Nat) (isData : Bool) (r : LineReq) : Bool :=
  r.cask == cask && r.line == line && (agent.isNone || agent == some r.agent) &&
    (match r.op with | .rdS | .rdM | .rdNc => isData | _ => !isData)

/-- R291: DATA or CMP of another lender for a request that this node sent. -/
def State.lenderAnswer (s : State) (agent : Option Nat) (cask line : Nat) (isData : Bool) (code : Code) (d : Option Bytes) : State :=
  let fits := answerFits agent cask line isData
  match s.pool.sent.find? fits with
  | none => s
  | some r => ((s.setPool fun p => { p with sent := dropFirst fits p.sent }).answerAt cask r code d).wakeJobs

/-- DATA: R291, R295. -/
def execData (cask : BitVec 32) (line : BitVec 24) (status : Byte) (bytes : Bytes) (s : State) : Host.Outcome State Fault Refusal :=
  gated s fun s =>
    let k := Code.ofNum status.toNat
    s.lenderAnswer none cask.toNat line.toNat true k (if k == .ok then some (slice bytes 0 64) else none)

/-- CMP: R291, R295. -/
def execCmp (cask : BitVec 32) (line : BitVec 24) (status : Byte) (s : State) : Host.Outcome State Fault Refusal :=
  gated s fun s => s.lenderAnswer none cask.toNat line.toNat false (Code.ofNum status.toNat) none

/-! Lost agents (R296) -/

/-- R296: an agent is declared lost; its messages are dropped until its port or node returns. -/
def State.declareLost (s : State) (a : Nat) : State :=
  if agentKind a = 3 then s
  else (s.loseAgent a).setPool fun p => { p with lost := if p.lost.contains a then p.lost else p.lost ++ [a] }

/-- R296: the agents of a port or node that has returned. -/
def State.agentsBack (s : State) (l : List Nat) : State := s.setPool fun p => { p with lost := p.lost.filter fun a => !l.contains a }

/-- The three agents of a node (R287). -/
def agentsOfNode (n : Nat) : List Nat := [n, n + 2 ^ 16, n + 2 * 2 ^ 16]

/-- RECALL_TIMEOUT: R296, R304 step 4. -/
def execRecallTimeout (agent : BitVec 18) (cask : BitVec 10) (line : BitVec 24) (s : State) : Host.Outcome State Fault Refusal :=
  gated s fun s =>
    if s.pool.recalls.any fun r => r.cask == cask.toNat && r.line == line.toNat && r.waits.contains agent.toNat && decide (r.due ≤ s.now) then
      ((s.addF F.DIR_STAT_RECALL_TIMEOUTS 0 1).declareLost agent.toNat).wakeJobs
    else s

/-- R283, R310: a write of POOL_CAT_INVAL. -/
def State.catInval (s : State) (v : Nat) : State :=
  if bit v 13 then s.setPool fun p => { p with catCache := [] }
  else if Config.caskSlots ≤ bits v 12 0 then s
  else s.setPool fun p => { p with catCache := SMap.del p.catCache (bits v 12 0) }

/-! Pages of flash-backed casks (R299, R300) -/

def State.fetching (s : State) (c page : Nat) : Bool := s.pool.fetches.any fun f => f.cask == c && f.page == page

/-- A free frame; which of them is the node's choice (log entry 20). -/
def State.pickFrame (s : State) : State × Option Nat :=
  let free := (s.frameGroups.flatMap fun g => (List.range 16384).map (g * 16384 + ·)).filter fun f => !s.pool.frames.contains f
  if free = [] then (s, none)
  else
    let (s, n) := s.draw
    (s, free[Config.arbiterPick n free.length % free.length]?)

/-- R299: a fetch that waits for a frame takes one when it can. -/
def State.giveFrame (s : State) (c page : Nat) : State :=
  if s.pool.fetches.any fun f => f.cask == c && f.page == page && f.frame.isNone then
    match s.pickFrame with
    | (s, none) => s
    | (s, some k) => s.setPool fun p => { p with
        fetches := p.fetches.map fun f => if f.cask = c ∧ f.page = page then { f with frame := some k } else f
        frames := p.frames ++ [k] }
  else s

/-- R299: a page's fetch starts. -/
def State.startFetch (s : State) (c page : Nat) (owner : Option (Nat × Nat)) : State :=
  let s := s.setPage c page fun e => { e with moving := true }
  (s.setPool fun p => { p with fetches := p.fetches ++ [⟨c, page, s.now, none, owner⟩] }).giveFrame c page

/-- PAGE_FETCH: R299: a queued request for a page that is not resident starts its fetch, or one that waits for a frame takes
it. -/
def execPageFetch (cask : BitVec 10) (page : BitVec 14) (s : State) : Host.Outcome State Fault Refusal :=
  gated s fun s =>
    let c := cask.toNat
    let p := page.toNat
    if !s.isFlash c then s
    else if s.fetching c p then s.giveFrame c p
    else
      let e := s.pageEnt c p
      if !e.resident && !e.moving && s.pool.queue.any (fun r => r.cask == c && pageOfLine r.line == p) then s.startFetch c p none else s

/-- R299: the 16 slots of a page of a flash cask in the frame k, those that cannot be read as poison; the page is resident and the fetch
is counted. -/
def State.pageIn (s : State) (c p k : Nat) (l : Lent) : State :=
  let (s, parts) := (List.range 16).foldl (fun (s, l') i =>
    let (s, d) := s.readSlot l.ns (l.pageSlot p i)
    (s, l' ++ [d])) (s, ([] : List (Option Bytes)))
  let s := s.store (frameAddr k) ((parts.map fun d => d.getD (zeros 4096)).flatten)
  let s := (parts.zip (List.range 16)).foldl (fun s (d, i) => if d.isNone then s.poisonAt (frameAddr k + 4096 * i) 4096 else s) s
  let s := s.setPage c p fun e => { e with frame := k, resident := true, moving := false, dirty := false, poisoned := parts.any (·.isNone) }
  (s.setPool fun x => { x with fetches := x.fetches.filter fun y => !(y.cask == c && y.page == p) }).addF F.POOL_STAT_FETCHES 0 1

/-- PAGE_FETCH_DONE: R299. Lines of a slot that the cellar cannot give are poisoned (log entry 57). -/
def execPageFetchDone (cask : BitVec 10) (page : BitVec 14) (s : State) : Host.Outcome State Fault Refusal :=
  gated s fun s =>
    let c := cask.toNat
    let p := page.toNat
    match s.pool.fetches.find? fun f => f.cask == c && f.page == p, s.lentCask c with
    | some f, some l => match f.frame with
      | none => s
      | some k =>
        ((s.pageIn c p k l).caskPart f.owner .ok).poolTick.wakeJobs
    | _, _ => s

/-- R300: a fetch that found no frame is given up: the requests that wait for the page complete with QUOTA. -/
def State.dropFetch (s : State) (c p : Nat) (f : Fetch) : State :=
  let mine (r : LineReq) : Bool := r.cask == c && pageOfLine r.line == p
  let ended := s.pool.queue.filter mine
  let s := s.setPage c p fun e => { e with moving := false }
  let s := s.setPool fun x => { x with fetches := x.fetches.filter (· != f), queue := x.queue.filter fun r => !mine r }
  ended.foldl (fun s r => s.answer r .quota none) s

/-- FETCH_TIMEOUT: R300: 100 ms without a frame. -/
def execFetchTimeout (cask : BitVec 10) (page : BitVec 14) (s : State) : Host.Outcome State Fault Refusal :=
  gated s fun s =>
    let c := cask.toNat
    let p := page.toNat
    match s.pool.fetches.find? fun f => f.cask == c && f.page == p && f.frame.isNone with
    | none => s
    | some f =>
      if !s.due f.since 100000 then s
      else
        ((s.dropFetch c p f).caskPart f.owner .quota).poolTick.wakeJobs

/-- The pages that may be evicted to make room (R299, R300): cask, page, entry, counter. -/
def State.evictable (s : State) : List (Nat × Nat × PageEnt × Nat) :=
  (s.pool.lent.filter fun (_, l) => l.flash).flatMap fun (c, _) =>
    ((s.residentPages c).map fun p => (c, p, s.pageEnt c p, s.pageCount c p)).filter fun (_, p, e, _) =>
      !e.moving && !e.poisoned && (e.hint == 0 || e.hint == 2) && !(s.pool.pageJobs.any fun j => j.cask == c && j.page == p)

/-- R300: COLD pages first, lower counters first, then lower local index and page. -/
def evictBefore (a b : Nat × Nat × PageEnt × Nat) : Bool :=
  let key (x : Nat × Nat × PageEnt × Nat) : Nat := (b2n (x.2.2.1.hint != 2) * 2 ^ 16 + x.2.2.2) * 2 ^ 24 + x.1 * 2 ^ 14 + x.2.1
  decide (key a < key b)

/-- PAGE_EVICTION: R300: one page more, until enough frames are free or on their way. -/
def execPageEviction (s : State) : Host.Outcome State Fault Refusal :=
  gated s fun s =>
    let low := s.f F.DIR_CFG_LOW_FRAMES_K 0 * 1024
    let high := max low (s.f F.DIR_CFG_HIGH_FRAMES_K 0 * 1024)
    if s.frameGroups = [] then s
    else
      let s := if s.freeFrames < low then s.setPool fun p => { p with evicting := true } else s
      if !s.pool.evicting then s
      else if high ≤ s.freeFrames then s.setPool fun p => { p with evicting := false }
      else if high ≤ s.freeFrames + (s.pool.pageJobs.filter (·.evict)).length then s
      else match sortBy evictBefore s.evictable with
        | [] => s
        | (c, p, _, _) :: _ => ((s.startPageJob c p true none).poolTick).wakeJobs

/-- R300: the access counters of every lent cask halved. -/
def State.halveCounts (s : State) : State :=
  s.pool.lent.foldl (fun s (c, _) => (List.range 16384).foldl (fun s p =>
    if s.pageCount c p = 0 then s else s.setPageCount c p (s.pageCount c p / 2)) s) s

/-- COUNTER_HALVING: R300, R314. -/
def execCounterHalving (s : State) : Host.Outcome State Fault Refusal :=
  gated s fun s =>
    if s.pool.halvePer ≠ 0 ∧ !s.due s.pool.halvedAt (1000 * s.pool.halvePer) then s
    else
      (if s.pool.halvePer = 0 then s else s.halveCounts).setPool fun p => { p with halvedAt := s.now, halvePer := s.f F.DIR_CFG_COUNT_PERIOD_MS 0 }

/-- R304 step 3: the drain of withdrawals is over: requests not yet served complete with FENCED. -/
def State.cutDrain (s : State) (c : Nat) (late : List Withdraw) : State :=
  let named (r : LineReq) : Bool := r.cask == c && r.origin != .lender && late.any fun w => w.agents.contains r.agent
  let ended := s.pool.queue.filter named ++ (s.pool.recalls.filter fun r => named r.cause).map (·.cause)
  let s := s.setPool fun p => { p with
    queue := p.queue.filter fun r => !named r
    recalls := p.recalls.map fun r => if named r.cause then { r with cause := ownReq r.cask r.line } else r
    withdraws := p.withdraws.map fun w => if w.cask = c ∧ w.due ≤ s.now then { w with drained := true } else w }
  ended.foldl (fun s r => s.answer r .fenced none) s

/-- DRAIN_TIMEOUT: R304 step 3; in compatibility mode the drain timer does not run (R307). -/
def execDrainTimeout (cask : BitVec 10) (s : State) : Host.Outcome State Fault Refusal :=
  gated s fun s =>
    let c := cask.toNat
    let over_ := s.pool.withdraws.filter fun w => w.cask == c && !w.drained && decide (w.due ≤ s.now)
    if s.compat ∨ over_ = [] then s
    else
      (s.cutDrain c over_).poolTick.wakeJobs

/-! Hints and flushes (R301 to R303) -/

/-- Pages that PIN holds on this lender. -/
def State.pinnedPages (s : State) : Nat :=
  (s.pool.lent.filter fun (_, l) => l.flash).foldl (fun a (c, _) =>
    a + ((List.range 16384).filter fun p => (s.pageEnt c p).hint == 3).length) 0

/-- R302: one page of a hint: whether something was started, and QUOTA for a pin beyond the limit. -/
def State.hintPage (s : State) (owner : Nat × Nat) (c p hint : Nat) : State × Nat × Code :=
  let e := s.pageEnt c p
  if hint = 3 ∧ e.hint ≠ 3 ∧ s.frameCount - s.f F.DIR_CFG_LOW_FRAMES_K 0 * 1024 ≤ s.pinnedPages then (s, 0, .quota)
  else
    let s := s.setPage c p fun e => { e with hint := hint }
    let s := if hint = 1 then s.setPageCount c p 0xFFFF else s
    if hint = 1 ∨ hint = 3 then
      if e.resident || s.fetching c p then (s, 0, .ok) else (s.startFetch c p (some owner), 1, .ok)
    else if hint = 2 then
      if !e.resident || e.moving || e.poisoned then (s, 0, .ok) else (s.startPageJob c p true (some owner), 1, .ok)
    else (s, 0, .ok)

/-- R302, R303: a range of pages of a cask of this lender: parts started, and the code met. -/
def State.caskPages (s : State) (op hint : Nat) (owner : Nat × Nat) (c first n : Nat) : State × Nat × Code :=
  match s.lentCask c with
  | none => (s.addF F.POOL_STAT_FENCED 0 1, 0, .fenced)
  | some l =>
    if !l.flash then (s, 0, .ok)
    else (List.range n).foldl (fun (s, k, code) i =>
      let p := first + i
      let e := s.pageEnt c p
      if code == .quota then (s, k, code)
      else if op = 0x40 then
        let (s, m, e) := s.hintPage owner c p hint
        (s, k + m, Code.worst code e)
      else if !e.resident || !e.dirty then (s, k, code)
      else if e.poisoned then (s, k, code.worst .poison)
      else (s.startPageJob c p false (some owner), k + 1, code)) (s, 0, Code.ok)

/-- The pieces of a range of cask space by slot: slot, first page, pages. -/
def caskPieces (addr len : Nat) : List (Nat × Nat × Nat) :=
  (pieceRange (2 ^ 30) addr len).map fun (a, k) => (caskSlot a, a % 2 ^ 30 / 65536, k / 65536)

/-- R15, R301: the fields of a CASK_HINT or CASK_FLUSH. -/
def caskFieldsOk (d : Bytes) (op : Nat) : Bool :=
  let addr := opN d 8 8
  let len := opN d 16 8
  opZero d 2 6 && (if op = 0x40 then decide (opN d 1 1 < 4) else opN d 1 1 == 0) && decide (addr < 2 ^ 52) && decide (len < 2 ^ 40) &&
    addr % 65536 == 0 && len % 65536 == 0 && inCaskSpace addr len

/-- R282: the pieces of a range with the casks that their slots name, where the tenant may reach them. -/
def State.caskNames (s : State) (c addr len : Nat) : State × List (Option Nat × Nat × Nat) :=
  (caskPieces addr len).foldl (fun (s, l) (slot, p, n) =>
    let (s, id) := s.caskCheck slot (s.tenant c) false true
    (s, l ++ [(id, p, n)])) (s, ([] : List (Option Nat × Nat × Nat)))

/-- R301: each lender works on its part: how many parts wait, and the worst code. A peer's part goes to it as a sub-request outside
any composition (log entry 58). -/
def State.caskParts (s : State) (c q : Nat) (r : Req) (op : Nat) (ids : List (Option Nat × Nat × Nat)) : State × Nat × Code :=
  let d := r.desc
  ids.foldl (fun (s, left, code) (id, p, n) =>
    let id := id.getD 0
    if code == .quota then (s, left, code)
    else if caskLender id = s.self then
      let (s, k, e) := s.caskPages op (opN d 1 1) (c, q) (caskLocal id) p n
      (s, left + k, Code.worst code e)
    else if s.peerOk (caskLender id) then
      let tag := s.fab.nextTag
      let t := s.tenant c
      let qu := s.reqQueue t
      let pl := zeros 8 ++ leBytes 4 (match r.limit with | some x => x - s.now | none => 0) ++ leBytes 1 t ++ zeros 19 ++ slice d 0 128 ++
        leBytes 8 id ++ leBytes 8 p ++ leBytes 8 n
      let s := s.setFab fun x => { x with nextTag := (tag + 1) % globalTag
                                          subs := x.subs ++ [⟨tag, caskLender id, 0, 0, 0xFFFF, qu, false, s.subDue, .cask c q, pl, none⟩] }
      (s.sendMsg (caskLender id) 0 0 qu 1 tag 0xFFFF 0 pl, left + 1, code)
    else (s, left, Code.worst code .fenced)) (s, 0, Code.ok)

/-- CASK_HINT and CASK_FLUSH: R282, R301: the range is checked slot by slot, then each lender works on its part. -/
def State.caskRange (s : State) (c q : Nat) (r : Req) (op : Nat) : State :=
  let d := r.desc
  let ranged := inCaskSpace (opN d 8 8) (opN d 16 8) && opN d 8 8 % 65536 == 0 && opN d 16 8 % 65536 == 0
  let (s, ids) := if ranged then s.caskNames c (opN d 8 8) (opN d 16 8) else (s, [])
  let code := (if caskFieldsOk d op then Code.ok else .invalidArg).worst (if ids.any fun x => x.1.isNone then .denied else .ok)
  if code.bad then s.finishCode c q code
  else
    let (s, left, code) := s.caskParts c q r op ids
    (if left = 0 then s.finishCode c q code else s.setWork c q (.cask left code)).poolTick

/-- CASK_HINT: R301, R302. -/
def execCaskHint (c : BitVec 12) (q : BitVec 16) (s : State) : Host.Outcome State Fault Refusal :=
  gated s fun s => s.runCmd c.toNat q.toNat 0x40 fun s r => s.caskRange c.toNat q.toNat r 0x40

/-- CASK_FLUSH: R301, R303. -/
def execCaskFlush (c : BitVec 12) (q : BitVec 16) (s : State) : Host.Outcome State Fault Refusal :=
  gated s fun s => s.runCmd c.toNat q.toNat 0x41 fun s r => s.caskRange c.toNat q.toNat r 0x41

/-- A peer's CASK_HINT or CASK_FLUSH on a cask of this lender; its REPLY goes out when the last page has ended. -/
def State.peerCask (s : State) (node queue tag : Nat) (desc data : Bytes) : State :=
  let id := leAt data 0 8
  let w := s.free
  let s : State := { s with free := s.free + 1 }
  let (s, k, code) := if caskLender id ≠ s.self then (s, 0, .fenced)
    else s.caskPages (descOp desc) (opN desc 1 1) (peerCtx, w) (caskLocal id) (leAt data 8 8) (min 16384 (leAt data 16 8))
  if k = 0 then s.sendMsg node 0 0 queue 2 tag 0xFFFF 0 (leBytes 1 code.num ++ zeros 63)
  else (s.setPool fun p => { p with peerWork := p.peerWork ++ [⟨w, node, queue, tag, k, code⟩] }).poolTick

/-! Lending (R284 to R286, R304, R305, R468) -/

/-- R468: the region that a register names in interleaved HBM. -/
def State.regionOf (s : State) (r : Reg) (i : Nat) : Nat × Nat :=
  match r with
  | .trlStore => (s.fAddr F.TRL_STORE_ADDR 0, 2 ^ 27)
  | .trlSrc => (s.fAddr F.TRL_SRC_ADDR i, s.f F.TRL_SRC_SIZE_64K i * 65536)
  | .mergeScratch => (s.fAddr F.MERGE_SCRATCH_ADDR i, s.f F.MERGE_SCRATCH_SIZE_MIB i * 2 ^ 20)
  | .dirStore => (s.fAddr F.DIR_STORE_ADDR 0, s.f F.DIR_STORE_SIZE 0 * 2 ^ 24)
  | .dirRec => (s.fAddr F.DIR_REC_ADDR 0, 2 ^ 27)
  | .poolCat => (s.fAddr F.POOL_CAT_ADDR 0, 128 * Config.caskSlots)
  | .cellarNsDesc => (s.fAddr F.CELLAR_NS_DESC_ADDR 0, 64 * 4096)
  | .cellarMapCache => (s.fAddr F.CELLAR_MAP_CACHE_ADDR 0, s.f F.CELLAR_MAP_CACHE_SIZE 0 * 2 ^ 28)
  | .cellarParity => (s.fAddr F.CELLAR_PARITY_ADDR 0, s.f F.CELLAR_PARITY_SIZE 0 * 2 ^ 28)
  | .vintFreeMap => (s.fAddr F.VINT_FREE_MAP_ADDR 0, 512 * Config.blocksPerUnit / 8)
  | .vintIdxLists => (s.fAddr F.VINT_IDX_LISTS_ADDR i, 64 * s.f F.VINT_IDX_CFG_LIST_COUNT i)
  | .vintIdxLoc => (s.fAddr F.VINT_IDX_LOC_ADDR i, 16 * 2 ^ s.f F.VINT_IDX_LOC_LOG2_SLOTS i)
  | .vintIdxRoute => (s.fAddr F.VINT_IDX_ROUTE_ADDR i, s.f F.VINT_IDX_CFG_LIST_COUNT i * up64 (2 * s.f F.VINT_IDX_QCFG_DIM i))
  | .vintIdxBook => (s.fAddr F.VINT_IDX_BOOK_ADDR i, s.f F.VINT_IDX_QCFG_DIM i *
      (if s.f F.VINT_IDX_CFG_CODE_FMT i = 8 then 32 else if s.f F.VINT_IDX_CFG_CODE_FMT i = 9 then 512 else 0))
  | .vintIdxGraph => (s.fAddr F.VINT_IDX_GRAPH_ADDR i, 64)
  | .fabPeerTab => (s.fAddr F.FAB_PEER_TAB_ADDR 0, 64 * 65536)
  | .fabCompMap =>
    let a := s.fAddr F.FAB_COMP_MAP_ADDR i
    (a, 64 + 8 * s.peekN (a + 2) 2 + 8 * s.peekN (a + 10) 2)
  | .fabCompBcast => (s.fAddr F.FAB_COMP_BCAST_ADDR i, s.f F.FAB_COMP_BCAST_SIZE_MIB i * 2 ^ 20)
  | .ctxSq => (s.fAddr F.CTX_SQ_ADDR i, 128 * 2 ^ s.f F.CTX_CFG_SQ_LOG2 i)
  | .ctxCq => (s.fAddr F.CTX_CQ_ADDR i, 32 * 2 ^ s.f F.CTX_CFG_CQ_LOG2 i)
  | .ctxPt => (s.fAddr F.CTX_PT_ROOT i, 65536)
  | .ctxSave => (s.fAddr F.CTX_SAVE_ADDR i, s.f F.CTX_SAVE_SIZE_MIB i * 2 ^ 20)
  | .tileEmbDesc => (s.fAddr F.TILE_EMB_DESC_ADDR 0, 64 * 1024)
  | _ => (0, 0)

/-- The groups that a range of window 1 touches. -/
def groupsOf (addr len : Nat) : List Nat :=
  if !inHbm addr 1 || len = 0 then [] else (List.range (groupOf (addr + len - 1) + 1 - groupOf addr)).map (groupOf addr + ·)

/-- R468: the groups in which a register names a region or an enabled table holds row slots. -/
def State.usedGroups (s : State) : List Nat :=
  (s.regs.flatMap fun (a, _) => match Reg.find a with
    | some (r, i) => let (b, n) := s.regionOf r i; groupsOf b n
    | none => []) ++
  ((List.range 16).flatMap fun j => (onesBelow 64 (s.reg .tileEmbEn j)).flatMap fun b =>
    let t := s.tab (64 * j + b); groupsOf t.base t.span)

/-- R346, R347: whether some page entry at or below a table maps a page of window 1 in a group. -/
def State.tableMaps (s : State) (g : Nat) : List PtLevel → Nat → Bool
  | [], _ => false
  | lv :: rest, table =>
    table % lv.size == 0 && inHbm table lv.size && (List.range (lv.size / 8)).any fun k =>
      let e := s.peekN (table + 8 * k) 8
      let addr := bits e 51 8 * 256
      bit e 0 && (if bit e 1 then lv.lo != 39 && (groupsOf addr (2 ^ lv.lo)).contains g else s.tableMaps g rest addr)

/-- R285: whether the page tables of some context map a group in window 1. -/
def State.pagesMap (s : State) (g : Nat) : Bool :=
  s.regs.any fun (a, _) => match Reg.find a with
    | some (.ctxPt, i) => s.fAddr F.CTX_PT_ROOT i != 0 && s.tableMaps g ptLevels (s.fAddr F.CTX_PT_ROOT i)
    | _ => false

/-- R285: conditions under which a lend takes nothing, with R3 for a group that a page entry maps in window 1. -/
def State.lendBad (s : State) (flash : Bool) (ns size first group slot : Nat) : Bool :=
  size = 0 || decide (1024 < first + size) || (s.pool.lent.any fun (c, _) => decide (first ≤ c) && decide (c < first + size)) ||
    if flash then
      decide (4096 ≤ ns) || !s.nsOn ns || (s.nsDesc ns).kind != nsPool || decide ((s.nsDesc ns).size < slot + 262144 * size)
    else
      decide (768 < group + size) || (List.range size).any fun k =>
        let g := group + k
        s.pressMode g || bit (s.reg .poolFrames (g / 64)) (g % 64) || bit (s.reg .poolLent (g / 64)) (g % 64) || s.usedGroups.contains g ||
          s.pagesMap g

/-- R285, R288, R468: casks lent from the first on: the directory's store cleared before the first loan, each cask's record cleared, and
an HBM group marked as lent. -/
def State.lend (s : State) (flash : Bool) (ns size first group slot : Nat) : State :=
  let s := if s.pool.lent = [] then s.zeroRange (s.fAddr F.DIR_STORE_ADDR 0) (s.f F.DIR_STORE_SIZE 0 * 2 ^ 24) else s
  (List.range size).foldl (fun s k =>
    let s := s.zeroRange (s.recAddr (first + k)) 131072
    let s := s.setPool fun p => { p with lent := SMap.ins p.lent (first + k) ⟨flash, group + k, ns, slot + 262144 * k, []⟩ }
    if flash then s else s.setReg .poolLent ((group + k) / 64) (setBit (s.reg .poolLent ((group + k) / 64)) ((group + k) % 64) true)) s

/-- R15, R284: the fields of a CASK_LEND. -/
def lendFieldsOk (d : Bytes) : Bool :=
  decide (opN d 1 1 < 2) && decide (opN d 4 2 < 2048) && decide (opN d 6 2 < 1024) && opZero d 10 6 && opZero d 24 40 &&
    (if opN d 1 1 == 1 then opN d 8 2 == 0 && decide (opN d 16 8 < 2 ^ 40) else opN d 2 2 == 0 && opN d 16 8 == 0 && decide (opN d 8 2 < 1024))

/-- R30: the worst of the code of arguments and DENIED for a context that is no context of the administrator. -/
def State.adminCode (s : State) (c : Nat) (argsOk : Bool) : Code :=
  (if argsOk then Code.ok else .invalidArg).worst (if s.f F.POOL_CFG_ADMIN_TENANT 0 = s.tenant c then .ok else .denied)

/-- CASK_LEND: R284, R285, R288, R468. -/
def execCaskLend (c : BitVec 12) (q : BitVec 16) (s : State) : Host.Outcome State Fault Refusal :=
  gated s fun s => s.runCmd c.toNat q.toNat 0x42 fun s r =>
    let c := c.toNat
    let q := q.toNat
    let d := r.desc
    let flash := opN d 1 1 == 1
    let ns := opN d 2 2
    let size := opN d 4 2
    let first := opN d 6 2
    let group := opN d 8 2
    let slot := opN d 16 8
    let room : Code := if s.f F.DIR_STORE_SIZE 0 = 0 ∨ s.fAddr F.DIR_REC_ADDR 0 = 0 then .quota else .ok
    let code := (s.adminCode c (lendFieldsOk d && !s.lendBad flash ns size first group slot)).worst room
    if code.bad then s.finishCode c q code
    else
      (s.lend flash ns size first group slot).finishCode c q .ok

/-- R286: a reclaim starts: every agent of its casks is withdrawn. -/
def State.startReclaim (s : State) (c q : Nat) (casks : List Nat) : State :=
  let s := (s.setWork c q (.cask 1 .ok)).setPool fun p => { p with reclaims := p.reclaims ++ [⟨c, q, casks⟩] }
  casks.foldl (fun s k => s.startWithdraw k ((s.agentsOf k).map (·.2.1)) none) s

/-- CASK_RECLAIM: R284 to R286. -/
def execCaskReclaim (c : BitVec 12) (q : BitVec 16) (s : State) : Host.Outcome State Fault Refusal :=
  gated s fun s => s.runCmd c.toNat q.toNat 0x43 fun s r =>
    let c := c.toNat
    let q := q.toNat
    let d := r.desc
    let size := opN d 4 2
    let first := opN d 6 2
    let casks := (List.range size).map (first + ·)
    let code := s.adminCode c (opZero d 1 3 && decide (first < 1024) && opZero d 8 56 && decide (0 < size) &&
      decide (first + size ≤ 1024) && casks.all fun k => (s.lentCask k).isSome)
    if code.bad then s.finishCode c q code
    else
      (s.startReclaim c q casks).poolTick.poolTick

/-- CASK_WITHDRAW: R304, R305, R307. -/
def execCaskWithdraw (c : BitVec 12) (q : BitVec 16) (s : State) : Host.Outcome State Fault Refusal :=
  gated s fun s => s.runCmd c.toNat q.toNat 0x44 fun s r =>
    let c := c.toNat
    let q := q.toNat
    let d := r.desc
    let k := opN d 2 2
    let a := opN d 4 4
    let all := a == 0x3FFFF
    let named := ((s.agentsOf k).map (·.2.1)).filter fun x => all || x == a
    let code := s.adminCode c (opZero d 1 1 && decide (k < 1024) && decide (a < 2 ^ 18) && opZero d 8 88 && (s.lentCask k).isSome &&
      (agentKind a != 3 || all))
    if code.bad then s.finishCode c q code
    else if named = [] then s.finishCode c q .ok
    else ((s.setWork c q (.cask 1 .ok)).startWithdraw k named (some (c, q))).poolTick

end Sys2Proof.Machine
end

