-- ==== Sys2Proof/Machine/Trellis.lean ====
section
/-! DEFINITION. Trellis images and partitions (R315 to R340): reading an image, the checks of R329, loads, unloads and
reloads, and the records of the attestation log that they append (R328, R488, R489). -/
namespace Sys2Proof.Machine

/-! The attestation log -/

/-- R488, R489: a record appended; the engine holds the last 1,024. -/
def State.appendLog (s : State) (index event part keySlot : Nat) (digest : Bytes) : State :=
  let rec_ := leBytes 1 index ++ leBytes 1 event ++ leBytes 1 part ++ leBytes 1 keySlot ++ leBytes 4 s.sec.logSeq ++
    leBytes 8 s.now ++ zeros 16 ++ slice digest 0 32
  let chain := sha256 (slice s.sec.chain 0 32 ++ rec_)
  let n := s.sec.logSeq + 1
  let s := s.setSec fun x => { x with log := (x.log ++ [rec_]).drop ((x.log.length + 1) - 1024), logSeq := n, chain := chain }
  let s := s.setFs 0 [(F.SEC_LOG_STAT_NEXT, n), (F.SEC_LOG_STAT_OLDEST, n - 1024)]
  (List.range 4).foldl (fun s j => s.setReg .secLogChain j (leAt chain (8 * j) 8)) s

/-! Reading an image -/

/-- R319: an entry of the section table. -/
structure Sect where
  kind  : Nat
  count : Nat
  off   : Nat
  len   : Nat
  crc   : Nat
  clear : Bool
deriving DecidableEq, Repr, Inhabited

def sectsOf (b : Bytes) : List Sect :=
  (List.range (leAt b 6 2)).map fun k =>
    let o := 64 + 16 * k
    ⟨byteAt b o, leAt b (o + 2) 2, leAt b (o + 4) 4, leAt b (o + 8) 4, leAt b (o + 12) 4, byteAt b (o + 1) == 0⟩

/-- R320 to R325: bytes of a record of a section type; 0 for PREEMPT, whose records vary. -/
def recSize (kind : Nat) : Nat := match kind with | 1 => 16 | 2 => 8 | 3 => 4 | 4 => 16 | 5 => 16 | _ => 0

def sectBytes (b : Bytes) (l : List Sect) (kind : Nat) : Bytes :=
  match l.find? fun x => x.kind == kind with
  | some x => slice b x.off x.len
  | none => []

/-- The records of a section of fixed record size. -/
def sectRecs (b : Bytes) (l : List Sect) (kind : Nat) : List Bytes := pieces (recSize kind) (sectBytes b l kind)

/-- R326: the tile headers of a PREEMPT section: tile, NPOINT, reserved fields clear, point records. The walk takes `n`
headers; the second part tells that they fill the section exactly. -/
def preemptWalk : Nat → Bytes → List (Nat × Nat × Bool × List Bytes) × Bool
  | 0, b => ([], b.isEmpty)
  | n + 1, b =>
    if b.length < 8 then ([], false)
    else
      let k := leAt b 2 2
      let pts := pieces 8 (slice b 8 (min (8 * k) (b.length - 8)))
      let (rest, ok) := preemptWalk n (b.drop (8 + 8 * k))
      ((byteAt b 0 % 64, k, decide (byteAt b 0 < 64) && byteAt b 1 == 0 && leAt b 4 4 == 0, pts) :: rest,
        ok && decide (8 + 8 * k ≤ b.length))

def tileOfRec (r : Bytes) : TileRec := ⟨byteAt r 0 % 64, byteAt r 1 % 16, leAt r 2 2, byteAt r 4 % 16, byteAt r 5⟩
def routeOfRec (r : Bytes) : Route := ⟨byteAt r 0 % 64, byteAt r 1 % 4, byteAt r 2 % 64, byteAt r 3 % 4, byteAt r 4⟩
def pressOfRec (r : Bytes) : PressRec :=
  let w := leAt r 0 4
  ⟨bits w 8 0, bit w 9, bits w 15 10, bits w 21 16⟩
def scaleOfRec (r : Bytes) : ScaleRec := ⟨byteAt r 0 % 64, leAt r 2 2 % 4096, BitVec.ofNat 64 (leAt r 8 8)⟩
def barrierOfRec (r : Bytes) : Barrier := ⟨leAt r 0 2 % 1024, leAt r 2 2, byteAt r 4 % 4, byteAt r 5 % 64⟩
def cheapOfRec (r : Bytes) : Cheap := ⟨leAt r 0 2, leAt r 2 2, leAt r 4 4⟩

/-- R318 to R327: an image whose sections are in order. -/
def imgOf (b : Bytes) : Img :=
  let l := sectsOf b
  let n := leAt b 8 4
  ⟨n, leAt b 24 8, (sectRecs b l 1).map tileOfRec, (sectRecs b l 2).map routeOfRec, (sectRecs b l 3).map pressOfRec,
    (sectRecs b l 4).map scaleOfRec, (sectRecs b l 5).map barrierOfRec,
    (preemptWalk (((l.find? fun x => x.kind == 6).map (·.count)).getD 0) (sectBytes b l 6)).1.map fun x => (x.1, x.2.2.2.map cheapOfRec),
    byteAt b (n - 832) % 8, sha256 (slice b 0 n)⟩

def imgMask (b : Bytes) : Nat := leAt b 16 8

/-! The checks of R329, each true when it passes -/

def imgFormatOk (b : Bytes) : Bool :=
  let n := leAt b 8 4
  let k := leAt b 6 2
  leAt b 0 4 == 0x494C5254 && leAt b 4 2 == 1 && decide (2 ≤ k) && decide (k ≤ 6) && n % 64 == 0 && decide (64 + 16 * k + 832 ≤ n) &&
    allZero b 12 4 && allZero b 32 32 && (sectsOf b).all (·.clear) &&
    decide (byteAt b (n - 832) < 8) && allZero b (n - 831) 3 && allZero b (n - 824) 56

/-- A list that rises strictly. -/
def rising (l : List Nat) : Bool := (l.zip (l.drop 1)).all fun (a, b) => decide (a < b)

def imgSectionsOk (b : Bytes) : Bool :=
  let l := sectsOf b
  let n := leAt b 8 4
  let tiles := onesBelow 64 (imgMask b)
  let pre := match l.find? fun x => x.kind == 6 with
    | some x => preemptWalk x.count (slice b x.off x.len)
    | none => ([], false)
  l.all (fun x => decide (1 ≤ x.kind) && decide (x.kind ≤ 6) && x.off % 64 == 0 && decide (64 + 16 * l.length ≤ x.off) &&
      decide (x.off + x.len ≤ n - 832) && (x.kind == 6 || x.len == x.count * recSize x.kind) && crc32c (slice b x.off x.len) == x.crc) &&
    rising (l.map (·.off)) && (l.zip (l.drop 1)).all (fun (x, y) => decide (x.off + x.len ≤ y.off)) &&
    (dedupNat (l.map (·.kind))).length == l.length && l.any (·.kind == 1) && l.any (·.kind == 6) &&
    (sectRecs b l 1).map (fun r => byteAt r 0 % 64) == tiles && pre.2 && pre.1.map (·.1) == tiles

/-- R327: the key slot, key hash and PART_MASK. -/
def State.imgKeyOk (s : State) (b : Bytes) (n : Nat) : Bool :=
  let o := leAt b 8 4 - 832
  let k := byteAt b o % 8
  let hash := (List.range 4).flatMap fun j => leBytes 8 (s.reg .trlKeyHash (4 * k + j))
  s.on F.TRL_KEY_CFG_VALID k && bit (s.f F.TRL_KEY_CFG_PART_MASK k) n && sha256 (slice b (o + 64) 384 ++ slice b (o + 4) 4) == hash

/-- R319, R327: the two RSA fields are big-endian; the exponent is little-endian. -/
def imgSignedOk (b : Bytes) : Bool :=
  let n := leAt b 8 4
  let o := n - 832
  rsaVerify (beNat (slice b (o + 64) 384)) (leAt b (o + 4) 4) 384 (sha256 (slice b 0 (n - 384))) (slice b (o + 448) 384)

def State.imgTilesOk (s : State) (b : Bytes) : Bool :=
  let l := sectRecs b (sectsOf b) 1
  let ts := l.map tileOfRec
  l.all (fun r => decide (byteAt r 0 < 64) && decide (byteAt r 1 < 16) && decide (byteAt r 4 < 16) && allZero r 6 10) &&
    ts.all (fun t => decide (1 ≤ t.pers) && decide (t.pers ≤ 8) && Config.microcodeHas (s.f F.SEC_FW_VER_VERSION 0) t.pers t.variant &&
      decide (4 ≤ t.qdepth) && decide (t.qdepth ≤ 8) && (t.group == 0 || t.pers == persMerge || t.pers == persVector) &&
      ts.all fun u => t.group == 0 || u.group != t.group || u.pers == t.pers) &&
    ts.any (fun t => t.pers == persIngress) && ts.any (fun t => t.pers == persEgress)

/-- Circuits of other partitions' running and reserved images. -/
def State.otherRoutes (s : State) (n : Nat) : List Route :=
  (List.range 8).flatMap fun m => if m = n then [] else
    let p := s.part m
    let pending := match p.run with | some r => (r.img.map (·.routes)).getD [] | none => []
    ((p.img.map (·.routes)).getD []) ++ pending

/-- R322: circuits from one quarter to another. -/
def circuits (l : List Route) (a b : Nat) : Nat := (l.filter fun r => r.srcTile / 16 == a && r.dstTile / 16 == b).length

def State.imgRoutesOk (s : State) (b : Bytes) (n : Nat) : Bool :=
  let l := sectRecs b (sectsOf b) 2
  let rs := l.map routeOfRec
  let mask := imgMask b
  let all := rs ++ s.otherRoutes n
  l.all (fun r => decide (byteAt r 0 < 64) && decide (byteAt r 1 < 4) && decide (byteAt r 2 < 64) && decide (byteAt r 3 < 4) && allZero r 5 3) &&
    rs.all (fun r => bit mask r.srcTile && bit mask r.dstTile && decide (1 ≤ r.credits) && decide (r.credits ≤ 64)) &&
    (dedupNat (rs.map fun r => 4 * r.srcTile + r.srcPort)).length == rs.length &&
    (dedupNat (rs.map fun r => 4 * r.dstTile + r.dstPort)).length == rs.length &&
    (List.range 4).all fun x => (List.range 4).all fun y => x == y || decide (circuits all x y ≤ 8)

def imgPressOk (b : Bytes) : Bool :=
  let l := sectRecs b (sectsOf b) 3
  let ps := l.map pressOfRec
  let ts := (sectRecs b (sectsOf b) 1).map tileOfRec
  l.all (fun r => decide (leAt r 0 4 < 2 ^ 22)) && rising (ps.map (·.unit)) &&
    ps.all fun p => ts.any (fun t => t.tile == p.dispatch && t.pers == persDispatch) &&
      ts.any fun t => t.tile == p.merge && (t.pers == persMerge || t.pers == persVector)

def imgScalesOk (b : Bytes) : Bool :=
  let l := sectRecs b (sectsOf b) 4
  let ss := l.map scaleOfRec
  l.all (fun r => decide (byteAt r 0 < 64) && byteAt r 1 == 0 && decide (leAt r 2 2 < 4096) && allZero r 4 4 &&
      decide (leAt r 8 8 < 2 ^ 40) && bits (leAt r 8 8) 39 38 != 3) &&
    ss.all (fun x => bit (imgMask b) x.tile) && (dedupNat (ss.map fun x => 4096 * x.tile + x.channel)).length == ss.length

def imgBarriersOk (b : Bytes) : Bool :=
  let l := sectRecs b (sectsOf b) 5
  let bs := l.map barrierOfRec
  l.all (fun r => decide (leAt r 0 2 < 1024) && decide (byteAt r 4 < 4) && decide (byteAt r 5 < 64) && allZero r 6 10) &&
    bs.all (fun x => x.count != 0 && x.scope != 3 && bit (imgMask b) x.home) && (dedupNat (bs.map (·.object))).length == bs.length

def imgPreemptOk (b : Bytes) (gapMax : Nat) : Bool :=
  let l := sectsOf b
  (preemptWalk (((l.find? fun x => x.kind == 6).map (·.count)).getD 0) (sectBytes b l 6)).1.all fun (_, k, clear, pts) =>
    clear && decide (1 ≤ k) && decide (k ≤ 4096) && pts.all fun p =>
      let c := cheapOfRec p
      decide (c.live ≤ 24576) && decide (1 ≤ c.gap) && decide (c.gap ≤ gapMax)

/-- R339: the partition that holds or has reserved a tile or press unit. -/
def State.tileHolder (s : State) (t : Nat) : Option Nat :=
  let v := bits (s.reg .trlTileOwn (t / 16)) (4 * (t % 16) + 3) (4 * (t % 16))
  if 8 ≤ v then some (v % 8) else none

def State.pressHolder (s : State) (u : Nat) : Option Nat :=
  let v := bits (s.reg .trlPressOwn (u / 16)) (4 * (u % 16) + 3) (4 * (u % 16))
  if 8 ≤ v then some (v % 8) else none

def State.setTileHolder (s : State) (t : Nat) (p : Option Nat) : State :=
  s.setReg .trlTileOwn (t / 16) (setBits (s.reg .trlTileOwn (t / 16)) (4 * (t % 16) + 3) (4 * (t % 16))
    (match p with | some n => 8 + n | none => 0))

def State.setPressHolder (s : State) (u : Nat) (p : Option Nat) : State :=
  s.setReg .trlPressOwn (u / 16) (setBits (s.reg .trlPressOwn (u / 16)) (4 * (u % 16) + 3) (4 * (u % 16))
    (match p with | some n => 8 + n | none => 0))

/-- R445: a tile or press unit that is taken out. -/
def State.tileOut (s : State) (t : Nat) : Bool := bit (s.reg .fltOutTile 0) t
def State.pressOutBit (s : State) (u : Nat) : Bool := bit (s.reg .fltOutPress (u / 64)) (u % 64)

def State.imgFree (s : State) (g : Img) (n : Nat) : Bool :=
  g.tiles.all (fun t => !s.tileOut t.tile && match s.tileHolder t.tile with | some m => m == n | none => true) &&
    g.press.all fun p => !s.pressOutBit p.unit && match s.pressHolder p.unit with | some m => m == n | none => true

/-- R329: the checks on an image at a place in HBM: RESULT, and its bytes. -/
def State.checkImage (s : State) (n src size gapMax : Nat) : Nat × Bytes :=
  if s.fAddr F.TRL_STORE_ADDR 0 = 0 then (1, [])
  else if !s.plainHbm src size || size < 64 || (s.readCode src 64).bad then (2, [])
  else
    let len := s.peekN (src + 8) 4
    if 2 ^ 24 < len || size < len || (s.readCode src len).bad then (2, [])
    else
      let b := s.peek src (max len 64)
      let r :=
        if !imgFormatOk b then 3
        else if !imgSectionsOk b then 4
        else if !s.imgKeyOk b n then 5
        else if !imgSignedOk b then 6
        else if !s.imgTilesOk b then 7
        else if !s.imgRoutesOk b n then 8
        else if !imgPressOk b then 9
        else if !imgScalesOk b then 10
        else if !imgBarriersOk b then 11
        else if !imgPreemptOk b gapMax then 12
        else if !s.imgFree (imgOf b) n then 13
        else 0
      (r, b)

/-! Loads and unloads -/

/-- R525: the trellis interrupt of a partition. -/
def State.trlEvent (s : State) (n : Nat) : State := s.setBitF F.TOP_INT_STAT_TRELLIS 0 n

/-- R330, R333, R335: LOAD or UNLOAD written as 1. -/
def State.trlStart (s : State) (src : Src) (n : Nat) (unload : Bool) : State :=
  let st := s.trlState n
  if st = trlVerify ∨ st = trlDrain ∨ st = trlProgram then s.writeErr .action src .trlCtl n
  else if unload then
    if st = trlEmpty then s
    else
      ((s.setF F.TRL_CTL_UNLOAD n 1).setF F.TRL_STAT_STATE n trlDrain).setPart n fun p =>
        { p with run := some ⟨true, 0, 0, st, 0, none, s.now⟩ }
  else
    ((s.setF F.TRL_CTL_LOAD n 1).setF F.TRL_STAT_STATE n trlVerify).setPart n fun p =>
      { p with run := some ⟨false, s.fAddr F.TRL_SRC_ADDR n, s.f F.TRL_SRC_SIZE_64K n * 65536, st, s.f F.TRL_LIMITS_GAP_MAX 0, none, s.now⟩ }

/-- R330: a load that fails: the partition is as before it. -/
def State.failLoad (s : State) (n result : Nat) : State :=
  match (s.part n).run with
  | some r =>
    (((s.setFs n [(F.TRL_STAT_STATE, r.before), (F.TRL_STAT_RESULT, result)]).setF F.TRL_CTL_LOAD n 0).setPart n fun p =>
      { p with run := none }).trlEvent n
  | none => s

/-- R330: the store slot of a partition. -/
def State.storeSlot (s : State) (n : Nat) : Nat := s.fAddr F.TRL_STORE_ADDR 0 + 2 ^ 24 * n

/-- R329, R330: an image that has passed its checks: the partition holds its tiles and press units, and programs or drains first. -/
def State.holdImage (s : State) (n : Nat) (r : LoadRun) (g : Img) : State :=
  let s := g.tiles.foldl (fun s t => s.setTileHolder t.tile (some n)) s
  let s := g.press.foldl (fun s p => s.setPressHolder p.unit (some n)) s
  let s := s.setPart n fun p => { p with run := some { r with img := some g, started := s.now } }
  s.setF F.TRL_STAT_STATE n (if r.before = trlEmpty then trlProgram else trlDrain)

/-- VERIFY_DONE: R329, R330: the checks end, the image is copied and its units are reserved. -/
def execVerifyDone (n : BitVec 3) (s : State) : Host.Outcome State Fault Refusal :=
  gated s fun s =>
    let n := n.toNat
    match (s.part n).run with
    | none => s
    | some r =>
      if s.trlState n ≠ trlVerify then s
      else
        let (res, b) := s.checkImage n r.src r.size r.gapMax
        let s := s.noteBytes r.src b.length
        if res ≠ 0 then s.failLoad n res
        else
          let g := imgOf b
          let d := slice b 0 g.bytes
          if !s.plainHbm (s.storeSlot n) g.bytes then s.failLoad n 14
          else
            let s := s.store (s.storeSlot n) d
            if s.peek (s.storeSlot n) g.bytes ≠ d then s.failLoad n 14
            else s.holdImage n r g

/-- R316, R330: what a partition that becomes EMPTY leaves: nothing held, its digest and build read 0 (R337). -/
def State.emptyPart (s : State) (n : Nat) : State :=
  let s := (List.range 64).foldl (fun s t => if s.tileHolder t = some n then s.setTileHolder t none else s) s
  let s := (List.range 512).foldl (fun s u => if s.pressHolder u = some n then s.setPressHolder u none else s) s
  let s := (List.range 4).foldl (fun s j => s.setReg .trlDigest (4 * n + j) 0) (s.setReg .trlBuild n 0)
  (s.setFs n [(F.TRL_STAT_STATE, trlEmpty), (F.TRL_STAT_TILES, 0), (F.TRL_STAT_PRESS, 0), (F.TRL_STAT_MAX_LIVE, 0)]).setPart n
    fun p => { p with img := none, run := none }

/-- The largest LIVE of an image (R326). -/
def Img.maxLive (g : Img) : Nat := g.cheap.foldl (fun a (_, l) => l.foldl (fun a c => max a c.live) a) 0

/-- R324: the scale registers of a partition's tiles. -/
def State.loadScales (s : State) (g : Img) : State :=
  let lo (t : Nat) : Nat := Reg.tileScale.addr (4096 * t)
  let s : State := { s with regs := s.regs.filter fun (a, _) => !g.tiles.any fun t => decide (lo t.tile ≤ a) && decide (a < lo (t.tile + 1)) }
  g.scales.foldl (fun s x => s.setReg .tileScale (4096 * x.tile + x.channel) x.value.toNat) s

/-- R47: the bits of a channel's output format. -/
def outBits : Nat → Nat
  | 0 => 32
  | 1 => 8
  | _ => 4

/-- R46, R47: the rescale of a tile's channel on an int32 accumulator; its saturation counts in the tile's TILE_NUM_STAT
(R45). The stage operations of an image that call it are in no command's row (log entry 310). -/
def State.rescaleOn (s : State) (tile channel : Nat) (a : Int) : State × Int :=
  let i := 4096 * tile + channel
  let (y, sat) := rescale (outBits (s.f F.TILE_SCALE_OUT_FMT i)) a (s.f F.TILE_SCALE_MULT i) (s.f F.TILE_SCALE_SHIFT i)
  (s.addF F.TILE_NUM_STAT_SAT_COUNT tile (b2n sat), y)

/-- R324, R325, R330: an image written into its partition. -/
def State.programImage (s : State) (n : Nat) (g : Img) : State :=
  let s := (List.range 64).foldl (fun s t =>
    if s.tileHolder t = some n ∧ !g.tiles.any (·.tile == t) then s.setTileHolder t none else s) s
  let s := (List.range 512).foldl (fun s u =>
    if s.pressHolder u = some n then
      let s := s.setPu u fun p => { p with slots := [] }
      if g.press.any (·.unit == u) then s else s.setPressHolder u none
    else s) s
  let s := s.loadScales g
  let s := (List.range 1024).foldl (fun s k =>
    if s.f F.SYNC_OBJ_STATE (1024 * n + k) = syncUnarmed then s else s.setF F.SYNC_OBJ_STATE (1024 * n + k) syncUnarmed) s
  let s := (List.range 4).foldl (fun s j => s.setReg .trlDigest (4 * n + j) (leAt g.digest (8 * j) 8)) (s.setReg .trlBuild n g.build)
  (s.setFs n [(F.TRL_STAT_STATE, trlRunning), (F.TRL_STAT_RESULT, 0), (F.TRL_STAT_TILES, g.tiles.length),
    (F.TRL_STAT_PRESS, g.press.length), (F.TRL_STAT_MAX_LIVE, g.maxLive)]).setPart n fun p => { p with img := some g, run := none }

/-- R333: a reload after a partition reset: the stored copy is checked against TRL_DIGEST, its signature is not. -/
def State.reloadPart (s : State) (n : Nat) : State :=
  match (s.part n).img with
  | none => s
  | some g =>
    let a := s.storeSlot n
    let ok := s.plainHbm a g.bytes && !(s.readCode a g.bytes).bad && sha256 (s.peek a g.bytes) == g.digest
    let s := if s.plainHbm a g.bytes then s.noteBytes a g.bytes else s
    if ok then
      ((s.programImage n g).appendLog (0x10 + n) 2 n g.keySlot g.digest).trlEvent n
    else ((s.emptyPart n).setF F.TRL_STAT_RESULT n 14).trlEvent n

end Sys2Proof.Machine
end

