-- ==== Sys2Proof/Machine/Compositions.lean ====
section
/-! DEFINITION. Messages between the members of a composition (R375, R388 to R399): where a message goes under the epochs of
R390, what a member does with a sub-request, an answer, a coherence message and a global operation, the composition reset,
broadcasts, held hand-offs (R456), and the installation of maps (R387, R389). -/
namespace Sys2Proof.Machine

/-! Routing (R390) -/

/-- What R390 decides about a message. -/
inductive Routed where
  | serve (slot : Nat) (m : CompMap)
  | moved (node epoch : Nat)
  | hold | stale | fenced
deriving DecidableEq, Repr, Inhabited

/-- R390: a message for a composition under an epoch, to a rank (0xFFFF for none). -/
def State.routeMsg (s : State) (comp e r : Nat) : Routed :=
  match s.slotOfComp comp with
  | none => .hold
  | some n =>
    let x := s.comp n
    match x.map with
    | none => .hold
    | some m =>
      if e = m.epoch ∨ (e + 1 = m.epoch ∧ x.prev.isSome) then
        if r = 0xFFFF ∨ m.rank = r then .serve n (if e = m.epoch then m else x.prev.getD m)
        else if m.members.length ≤ r then .stale
        else if x.down.contains r then .fenced
        else .moved (m.node r) m.epoch
      else if e = m.epoch + 1 then .hold
      else .stale

/-- The queue of the answer to a message (R382). -/
def ansOf (f : Frame) : Nat := f.queue.toNat ||| 1

/-- A REPLY to a message. -/
def State.replyTo (s : State) (f : Frame) (k : Code) (data : Bytes) : State :=
  s.sendReply f.src.toNat (ansOf f) f.tag.toNat f.comp.toNat f.epoch.toNat k data

/-- R291: DATA or CMP for a coherence request that is not served. -/
def State.cohAnswer (s : State) (f : Frame) (k : Code) : State :=
  let code := if byteAt f.payload 0 ≤ 3 then 0x20 else 0x21
  s.sendMsg f.src.toNat f.comp.toNat f.epoch.toNat (ansOf f) 4 f.tag.toNat 0xFFFF f.gen.toNat
    (leBytes 1 code ++ leBytes 1 k.num ++ slice f.payload 2 14 ++ zeros 48)

/-- A message answered with a code in place of service. The answer to a GLOBAL message is a REPLY that repeats its first 16
bytes (log entry 60). -/
def State.refuse (s : State) (type : Nat) (f : Frame) (k : Code) : State :=
  if type = 4 then s.cohAnswer f k
  else s.replyTo f k (if type = 5 then slice f.payload 0 16 else [])

/-- R390: ROUTE_STALE. -/
def State.refuseStale (s : State) (type : Nat) (f : Frame) : State :=
  (s.refuse type f .routeStale).addF F.FAB_GLB_STAT_STALE 0 1

/-- R390, R391: MOVED. -/
def State.answerMoved (s : State) (f : Frame) (node epoch : Nat) : State :=
  (s.sendMsg f.src.toNat f.comp.toNat f.epoch.toNat (ansOf f) 3 f.tag.toNat 0xFFFF 0
    (leBytes 2 node ++ zeros 2 ++ leBytes 4 epoch)).addF F.FAB_GLB_STAT_MOVED 0 1

/-- R141, R230: the arrival of a message now. -/
def State.arrival (s : State) (f : Frame) : Arrival := ⟨s.now, s.tabVer (leAt f.payload 66 2 % 1024)⟩

/-- R390, R407: a message held for the next epoch. -/
def State.holdMsg (s : State) (type p : Nat) (f : Frame) (since : Arrival) : State :=
  let (s, id) := s.draw
  s.setFab fun x => { x with held := x.held ++ [⟨id, type, p, f, s.now + 1000 * s.f F.FAB_TIMERS_MAP_DRAIN_MS 0, since⟩] }

/-! The ends of sub-requests (R377, R391) -/

/-- A sub-request ends for the one that sent it. -/
def State.endSub (s : State) (o : OutSub) (k : Code) (data : Bytes) : State :=
  let gone := s.setFab fun x => { x with subs := x.subs.filter fun y => y.tag != o.tag }
  match o.owner with
  | .job id n => gone.jobReply id n o.rank k data
  | .gather c q _ | .scatter c q => s.embReply c q o.tag k data
  | .prefetch c t rows => gone.prefetchReply c t rows k data
  | .handoff id => gone.handoffReply id k data
  | .cask c q => gone.caskPart (some (c, q)) k
  | .pin c q => gone.pinAnswer c q k
  | .quiet => gone

/-- The sub-request of a tag that was sent to a node and has no answer. -/
def State.openSub (s : State) (tag node : Nat) : Option OutSub :=
  s.fab.subs.find? fun o => o.tag == tag && o.node == node && o.answer.isNone

/-- R391: MOVED: the sub-request goes once more, to the node that the answer names. -/
def State.takeMoved (s : State) (f : Frame) : State :=
  match s.openSub f.tag.toNat f.src.toNat with
  | none => s.addF F.FAB_GLB_STAT_LATE 0 1
  | some o =>
    let node := leAt f.payload 0 2
    let e := leAt f.payload 4 4
    if o.retried then s.endSub o .routeStale []
    else if !s.peerOk node then s.endSub o .fenced []
    else
      let o' := { o with node := node, epoch := e, retried := true, due := s.subDue }
      let s := s.setFab fun x => { x with subs := x.subs.map fun y => if y.tag = o.tag then o' else y }
      let s := match o.owner with
        | .job id n => s.setQuery id n fun q => { q with retries := q.retries + 1 }
        | _ => s
      s.sendMsg node o.comp e o.queue 1 o.tag o.rank 0 o.payload

/-! Sub-requests served here (R141, R388) -/

/-- R78, R388, R456: what ends a sub-request on an index before it runs. -/
def State.peerIdxCheck (s : State) (slot i tenant pin : Nat) (desc : Bytes) : Option Code :=
  let x := s.idx i
  let part := s.f F.VINT_IDX_CFG_PARTITION i
  let top := max (x.prepared.getD 0) (s.published i)
  if !(match s.slotOfObject 0 i with | some (n, _, _) => n == slot | none => false) || !s.idxOn i || x.restoring then some .invalidArg
  else if s.f F.VINT_IDX_CFG_TENANT i ≠ tenant then some .denied
  else if (s.rerankNs i tenant desc).bad then some (s.rerankNs i tenant desc)
  else if x.awaiting ∨ (s.part part).img.isNone then some .fenced
  else if s.fencedFor part [persRoute, persDispatch, persMerge] then some .fenced
  else if pin ≠ 0 ∧ pin < x.firstCommit then some .fenced
  else if top < pin ∨ !s.searchPers part desc then some .invalidArg
  else none

/-- R78: a request pinned at the prepared vintage proves its commit. -/
def State.proveCommit (s : State) (i pin : Nat) : State :=
  match (s.idx i).close with
  | some k => if k.handed ∧ k.vintage = pin ∧ s.published i < pin then s.endClose i k else s
  | none => s

/-- R80, R388: the PIN of another node's context on a global index placed here, under that node's handle. -/
def State.peerPin (s : State) (slot tenant node i v h : Nat) : State × Code :=
  let x := s.idx i
  let top := max (x.prepared.getD 0) (s.published i)
  if !(match s.slotOfObject 0 i with | some (n, _, _) => n == slot | none => false) || !s.idxOn i || x.restoring then (s, .invalidArg)
  else if s.f F.VINT_IDX_CFG_TENANT i ≠ tenant then (s, .denied)
  else if x.awaiting then (s, .fenced)
  else if top < v ∨ v < s.horizon i then (s, .invalidArg)
  else if 16 ≤ x.pins.length then (s, .quota)
  else ((s.proveCommit i v).setIdx i fun x => { x with pins := x.pins ++ [⟨h, v, 0, false, some node⟩] }, .ok)

/-- R80: the pin that another node placed here under a handle released. -/
def State.peerUnpin (s : State) (node i h : Nat) : State :=
  s.setIdx i fun x => { x with pins := dropFirst (fun p => p.home == some node && p.handle == h) x.pins }

/-- R155, R456: the hand-off of a SEARCH_DELETE staged here and answered; none while the log has no room for it (R261). -/
def State.stageHandoff (s : State) (f : Frame) : Option State :=
  let pl := f.payload
  let i := opN (slice pl 32 128) 2 2 % 4096
  let tenant := byteAt pl 12
  if !s.idxOn i || !s.hasPers (s.f F.VINT_IDX_CFG_PARTITION i) persUpdate then some (s.replyTo f .invalidArg [])
  else if s.f F.VINT_IDX_CFG_TENANT i ≠ tenant then some (s.replyTo f .denied [])
  else match s.takeHandoff i (pl.drop 160) with
    | .ok (s, d) => some (s.replyTo f .ok d)
    | .error (.code k) => some (s.replyTo f k [])
    | .error _ => none

/-- R456: a hand-off that waits. -/
def State.holdHandoff (s : State) (slot p : Nat) (f : Frame) : State :=
  let (s, id) := s.draw
  s.setFab fun x => { x with holds := x.holds ++ [⟨id, slot, p, f, s.now⟩] }

/-- R141, R153, R155, R183, R217, R226: a sub-request under a composition map. -/
def State.serveSub (s : State) (p : Nat) (f : Frame) (slot : Nat) (m : CompMap) (since : Arrival) : State :=
  let pl := f.payload
  let pin := leAt pl 0 8
  let left := leAt pl 8 4
  let tenant := byteAt pl 12
  let phase := byteAt pl 13
  let desc := slice pl 32 128
  let data := pl.drop 160
  let op := descOp desc
  let owner : JobOwner := .peer f.src.toNat (ansOf f) f.tag.toNat f.comp.toNat f.epoch.toNat phase
  if (s.comp slot).resetting then s.replyTo f .reset []
  else if op = 0x12 ∧ phase = 0 then
    if s.on F.FLT_ADMIT_HOLD slot then s.holdHandoff slot p f
    else (s.stageHandoff f).getD (s.holdHandoff slot p f)
  else if op = 0x10 ∨ op = 0x11 ∨ op = 0x12 then
    let i := opN desc 2 2 % 4096
    match s.peerIdxCheck slot i tenant pin desc with
    | some k => s.replyTo f k []
    | none => (s.proveCommit i pin).peerSearch owner slot f.epoch.toNat m.rank tenant phase pin left since.time desc data
  else if op = 4 then
    let (s, k) := s.peerPin slot tenant f.src.toNat (opN desc 2 2 % 4096) pin (leAt data 0 2)
    s.replyTo f k []
  else if op = 5 then (s.peerUnpin f.src.toNat (opN desc 2 2 % 4096) (leAt data 0 2)).replyTo f .ok []
  else if op = 0x14 then s.peerSelect owner slot m tenant desc
  else if op = 0x20 then
    let (s, k, d) := s.peerGather tenant pin since desc data
    s.replyTo f k d
  else if op = 0x21 then
    let (s, k, d) := s.peerScatter tenant since desc data
    s.replyTo f k d
  else s.replyTo f .invalidArg []

/-- R469: the partition in which a sub-request on an index or a table runs, while a load drains or programs it. -/
def State.loadingPart (s : State) (desc : Bytes) : Option Nat :=
  let op := descOp desc
  let i := opN desc 2 2 % 4096
  let t := opN desc 2 2 % 1024
  let n := if op = 0x20 ∨ op = 0x21 then (if s.tabOn t then some (s.tab t).part else none)
    else if 0x10 ≤ op ∧ op ≤ 0x12 then (if s.idxOn i then some (s.f F.VINT_IDX_CFG_PARTITION i) else none)
    else none
  n.filter fun n => s.trlState n == trlDrain || s.trlState n == trlProgram

/-- SUBREQ: R390; one outside any composition asks for a cask range (log entry 58). -/
def State.takeSubreq (s : State) (p : Nat) (f : Frame) (since : Arrival) : State :=
  if s.chipFenced then s.replyTo f .fenced []
  else if f.comp.toNat = 0 then
    let desc := slice f.payload 32 128
    if descOp desc = 0x40 ∨ descOp desc = 0x41 then
      s.peerCask f.src.toNat (ansOf f) f.tag.toNat desc (f.payload.drop 160)
    else s.replyTo f .invalidArg []
  else match s.routeMsg f.comp.toNat f.epoch.toNat f.rank.toNat with
    | .serve n m => match s.loadingPart (slice f.payload 32 128) with
      | some k => s.setFab fun x => { x with partWaits := x.partWaits ++ [(k, p, f, since)] }
      | none => s.serveSub p f n m since
    | .moved node e => s.answerMoved f node e
    | .hold => s.holdMsg 1 p f since
    | .stale => s.refuseStale 1 f
    | .fenced => s.refuse 1 f .fenced

/-! Coherence messages (R291, R375) -/

/-- A coherence message as its own rule serves it. -/
def State.serveCoherence (s : State) (f : Frame) : State :=
  let pl := f.payload
  let code := byteAt pl 0
  let agent := leAt pl 2 3 % 2 ^ 18
  let cask := leAt pl 8 4
  let line := leAt pl 12 4 % 2 ^ 24
  let d := slice pl 64 64
  let has := decide (128 ≤ pl.length)
  let gen := f.gen.toNat
  match LineOp.ofCode code with
  | some op => (s.fromAgent agent cask line gen f.queue.toNat op (BitVec.ofNat 64 (leAt pl 16 8)) d).wakeJobs
  | none =>
    if code = 0x10 ∨ code = 0x11 then
      if agentNode agent ≠ s.self ∨ agentKind agent = 3 then s
      else if agentKind agent = 0 then s.cacheSnoop (caskLender cask) cask line
      else s.toHost (agentKind agent - 1) cask line code 0 0 gen none
    else if code = 0x12 then (s.snoopFrom agent cask line gen (if has then .withLine d else .without)).wakeJobs
    else if code = 0x20 ∨ code = 0x21 then
      if s.pool.sent.any (answerFits (some agent) cask line (code == 0x20)) then
        s.lenderAnswer (some agent) cask line (code == 0x20) (Code.ofNum (byteAt pl 1)) (if has then some d else none)
      else s.addF F.FAB_GLB_STAT_LATE 0 1
    else s

/-- COHERENCE: R390 holds for requests under a composition. -/
def State.takeCoherence (s : State) (p : Nat) (f : Frame) : State :=
  if s.chipFenced ∧ (LineOp.ofCode (byteAt f.payload 0)).isSome then s.cohAnswer f .fenced
  else if f.comp.toNat = 0 ∨ (LineOp.ofCode (byteAt f.payload 0)).isNone then s.serveCoherence f
  else match s.routeMsg f.comp.toNat f.epoch.toNat f.rank.toNat with
    | .serve _ _ => s.serveCoherence f
    | .moved node e => s.answerMoved f node e
    | .hold => s.holdMsg 4 p f (s.arrival f)
    | .stale => s.refuseStale 4 f
    | .fenced => s.refuse 4 f .fenced

/-! Broadcasts (R398) -/

/-- R395: the live ranks that a rank leads directly. -/
def State.liveKids (s : State) (n : Nat) (m : CompMap) : List Nat :=
  (treeChildren m.members.length m.rank).filter fun r => !(s.comp n).down.contains r

/-- The request that waits for a broadcast of a slot. -/
def State.bcastReq (s : State) (n num : Nat) : Option (Nat × Nat) :=
  s.ctxs.findSome? fun (c, x) =>
    (x.reqs.find? fun r => r.work == .global num && r.comp == some n).map fun r => (c, r.slot)

/-- The broadcast of a number ends with a code at the node that issued it. -/
def State.endBcastReq (s : State) (n num : Nat) (k : Code) : State :=
  match s.bcastReq n num with
  | some (c, q) => s.finishCode c q k
  | none => s

/-- The collection of a broadcast of a slot. -/
def isBcast (n num : Nat) (k : Collect) : Bool := k.op == opBcastDone && k.slot == n && k.num == num

/-- A rank below has answered a broadcast. -/
def State.hearBcast (s : State) (n num rank : Nat) (k : Code) : State :=
  let note (c : Collect) : Collect :=
    if isBcast n num c then { c with heard := rank :: c.heard, worst := c.worst.worst k } else c
  s.setFab fun x => { x with collects := x.collects.map note }

/-- R398: once every live rank below has answered, the answer goes up, or from the root to the node that issued the
command. A rank that is down and has not answered makes it FENCED. -/
def State.settleBcast (s : State) (n num : Nat) : State :=
  match s.fab.collects.find? (isBcast n num) with
  | none => s
  | some k => match s.mapOf n k.epoch with
    | none => s
    | some m =>
      if !((s.liveKids n m).all k.heard.contains) then s
      else
        let lost := (treeChildren m.members.length m.rank).any fun r => (s.comp n).down.contains r && !k.heard.contains r
        let code := if lost then k.worst.worst .fenced else k.worst
        let s := s.setFab fun x => { x with collects := x.collects.filter fun y => !isBcast n num y }
        if m.rank ≠ 0 then s.sendGlobal m (treeParent m.rank) opBcastDone num code.num []
        else if num / 65536 = 0 then s.endBcastReq n num code
        else s.sendGlobal m (num / 65536) opBcastDone num code.num []

/-- R398: this node's part of a broadcast: the data written when its region holds it, and sent down. -/
def State.bcastHere (s : State) (n : Nat) (m : CompMap) (num off : Nat) (d : Bytes) : State :=
  let dst := s.fAddr F.FAB_COMP_BCAST_ADDR n + off
  let ok := decide (off + d.length ≤ s.f F.FAB_COMP_BCAST_SIZE_MIB n * 2 ^ 20) && inHbm dst d.length
  let s := if ok then s.store dst d else s
  let s := s.sendChildren n m opBcastData num off d
  let k : Collect := ⟨opBcastDone, n, 0, num, m.epoch, [], if ok then .ok else .invalidArg⟩
  (s.setFab fun x => { x with collects := x.collects ++ [k] }).settleBcast n num

/-- BROADCAST: R398, R386, R395, R32. -/
def execBroadcast (c : BitVec 12) (q : BitVec 16) (s : State) : Host.Outcome State Fault Refusal :=
  gated s fun s => s.runCmd c.toNat q.toNat 0x60 fun s r =>
    let c := c.toNat
    let q := q.toNat
    let d := r.desc
    let len := opN d 16 8
    let off := opN d 24 8
    let ok := opZero d 1 7 && decide (opN d 8 8 < 2 ^ 52) && decide (len < 2 ^ 32) && decide (off < 2 ^ 40) && opZero d 32 64
    let args : Code := if ok then .ok else .invalidArg
    match s.ctxComp c with
      | none => s.finishCode c q (args.worst .denied)
      | some (n, m) =>
        let (s, bytes, k) := if ok then s.ctxLoad c (opN d 8 8) len else (s, [], .ok)
        let tree : Code := if (s.comp n).removing then .routeStale else if (s.comp n).down.contains 0 then .fenced else .ok
        let code := (args.worst tree).worst k
        if code.bad then s.finishCode c q code
        else if len = 0 then s.finishCode c q .ok
        else
          let (s, k) := s.draw
          let num := m.rank * 65536 + k % 65536
          let s := s.setReq c q fun r => { r with work := .global num, comp := some n, epoch := m.epoch }
          if m.rank = 0 then s.bcastHere n m num off bytes
          else s.sendGlobal m 0 opBcastData num off bytes

/-! The composition reset (R397) -/

/-- R446: a partition is under a reset. -/
def State.anyPartFenced (s : State) : Bool := (List.range 8).any s.partFenced

/-- R397: what the reset does at one member. A member whose partition is under a reset has not answered yet (R446). -/
def State.resetMember (s : State) (n : Nat) (m : CompMap) : State :=
  let bound := s.ctxIds.filter fun c => s.on F.FAB_CTX_COMP_VALID c && s.f F.FAB_CTX_COMP_SLOT c == n
  let s := bound.foldl (fun s c => s.endReqs c .reset) s
  let jobs := s.jobs.filter fun (_, j) => j.comp == some n && (match j.owner with | .peer _ _ _ _ _ _ => true | .ctx _ _ => false)
  let s := jobs.foldl (fun s (id, _) => s.failJob id .reset) s
  let held := s.fab.held.filter fun h => h.type == 1 && h.frame.comp.toNat == m.id
  let waits := s.fab.holds.filter fun h => h.slot == n
  let parked := s.fab.partWaits.filter fun w => w.2.2.1.comp.toNat == m.id
  let s := s.setFab fun x => { x with held := x.held.filter fun h => !(h.type == 1 && h.frame.comp.toNat == m.id)
                                      partWaits := x.partWaits.filter fun w => w.2.2.1.comp.toNat != m.id
                                      holds := x.holds.filter fun h => h.slot != n
                                      collects := x.collects.filter fun k => !(k.op == opBcastDone && k.slot == n) }
  let s := (held.map (·.frame) ++ waits.map (·.frame) ++ parked.map (·.2.2.1)).foldl (fun s f => s.replyTo f .reset []) s
  let clear := !s.anyPartFenced
  ((s.abandonComp n).setComp n fun x => { x with resetting := true, answered := if clear then [m.rank] else [] }).setF F.FAB_COMP_CTL_RESET n 1

/-- R397: the reset is over at this node; with `m` it tells the ranks below. -/
def State.endCompReset (s : State) (n : Nat) (m : CompMap) : State :=
  let s := s.sendChildren n m opResetDone m.id 0 []
  (s.setComp n fun x => { x with resetting := false, answered := [] }).setF F.FAB_COMP_CTL_RESET n 0

/-- R397: at the root: over once every rank that is not down has answered. -/
def State.settleReset (s : State) (n : Nat) (m : CompMap) : State :=
  let x := s.comp n
  if x.resetting ∧ m.rank = 0 ∧ (List.range m.members.length).all fun r => x.down.contains r || x.answered.contains r then
    s.endCompReset n m
  else s

/-- R395, R397: a composition reset reaches a member: from another member at the root, from above elsewhere. -/
def State.takeReset (s : State) (n : Nat) (m : CompMap) : State :=
  if (s.comp n).resetting then s
  else
    let s := (s.sendChildren n m opReset m.id 0 []).resetMember n m
    if m.rank = 0 then s.settleReset n m
    else if (s.comp n).answered = [] then s
    else s.sendGlobal m (treeParent m.rank) opResetDone m.id m.rank []

/-- R446: once no partition is under a reset, a member answers the composition resets that waited for it. -/
def State.answerResets (s : State) : State :=
  if s.anyPartFenced then s
  else (s.fab.comps.filter fun (_, x) => x.resetting).foldl (fun s (n, x) => match x.map with
    | some m =>
      if (s.comp n).answered.contains m.rank then s
      else
        let s := s.setComp n fun x => { x with answered := m.rank :: x.answered }
        if m.rank = 0 then s.settleReset n m else s.sendGlobal m (treeParent m.rank) opResetDone m.id m.rank []
    | none => s) s

/-- R397, R395: RESET written to FAB_COMP_CTL: the root starts it, another member forwards it; a slot without a map, and one
whose root is down, has nothing to reset. -/
def State.compReset (s : State) (n : Nat) : State :=
  match (s.comp n).map with
  | none => s.setF F.FAB_COMP_CTL_RESET n 0
  | some m =>
    if m.rank = 0 then s.takeReset n m
    else if (s.comp n).down.contains 0 then s.setF F.FAB_COMP_CTL_RESET n 0
    else s.sendGlobal m 0 opReset m.id 0 []

/-! Global operations (R396) -/

/-- R78: a report of a part of the tree kept until all have reported. -/
def State.notePrepared (s : State) (n i v epoch rank : Nat) : State :=
  let same (k : Collect) : Bool := k.op == opPrepared && k.obj == i && k.num == v
  if s.fab.collects.any same then
    s.setFab fun x => { x with collects := x.collects.map fun k => if same k then { k with heard := rank :: k.heard } else k }
  else s.setFab fun x => { x with collects := x.collects ++ [⟨opPrepared, n, i, v, epoch, [rank], .ok⟩] }

/-- R78, R456: a commit reaches a member. -/
def State.takeCommit (s : State) (n i v : Nat) : State :=
  let x := s.idx i
  if !s.idxOn i ∨ v ≤ s.published i ∨ (x.awaiting ∧ s.on F.FLT_ADMIT_HOLD n) then s
  else match x.close with
    | some k => if k.vintage = v then s.endClose i k else s.publishIdx i v
    | none => s.publishIdx i v

/-- The rank from which a message of a composition came. -/
def CompMap.rankOf (m : CompMap) (node : Nat) : Nat := m.members.findIdx (· == node)

/-- A GLOBAL message served on the tree of its epoch. -/
def State.serveGlobal (s : State) (f : Frame) (n : Nat) (m : CompMap) : State :=
  let pl := f.payload
  let op := byteAt pl 0
  let num := leAt pl 4 4
  let v := leAt pl 8 8
  let sender := m.rankOf f.src.toNat
  let armed := decide (num < 8192) && s.f F.SYNC_OBJ_STATE num == syncArmed
  let i := num % 4096
  match op with
  | 1 =>
    if m.rank ≠ 0 then s.sendGlobal m (treeParent m.rank) opArrive num v []
    else if armed then s.countArrival num else s
  | 2 =>
    let s := s.sendChildren n m opRelease num v []
    if armed && s.episode num == v then s.completeEpisode num else s
  | 3 => s.triggerClose i
  | 4 =>
    if !s.idxOn i then s.sendChildren n m opPrepare num v []
    else if v < (s.idx i).openV then (s.sendChildren n m opPrepare num v []).reportPrepared i
    else s.takeClose i v
  | 5 => (s.notePrepared n i v m.epoch sender).reportPrepared i
  | 6 => (s.sendChildren n m opCommit num v []).takeCommit n i v
  | 7 => s.takeReset n m
  | 8 =>
    if m.rank ≠ 0 ∧ sender = treeParent m.rank then s.endCompReset n m
    else if m.rank ≠ 0 then s.sendGlobal m (treeParent m.rank) opResetDone num v []
    else (s.setComp n fun x => { x with answered := v :: x.answered }).settleReset n m
  | 9 => s.bcastHere n m num v (pl.drop 16)
  | 10 =>
    if sender = 0 ∧ m.rank ≠ 0 then s.endBcastReq n num (Code.ofNum v)
    else (s.hearBcast n num sender (Code.ofNum v)).settleBcast n num
  | _ => s

/-- GLOBAL: R390. -/
def State.takeGlobal (s : State) (p : Nat) (f : Frame) : State :=
  match s.routeMsg f.comp.toNat f.epoch.toNat f.rank.toNat with
  | .serve n m => s.serveGlobal f n m
  | .moved node e => s.answerMoved f node e
  | .hold => s.holdMsg 5 p f (s.arrival f)
  | .stale => s.refuseStale 5 f
  | .fenced => s.refuse 5 f .fenced

/-- R396: a global operation whose message failed ends with the code of the answer: a broadcast where the tree broke, the
waiters of a barrier whose arrival was lost, a reset as though the rank had answered. -/
def State.globalFailed (s : State) (f : Frame) (k : Code) : State :=
  match s.slotOfComp f.comp.toNat with
  | none => s
  | some n => match s.mapOf n f.epoch.toNat with
    | none => s
    | some m =>
      let pl := f.payload.drop 64
      let op := byteAt pl 0
      let num := leAt pl 4 4
      let sender := m.rankOf f.src.toNat
      if op = opArrive ∧ num < 8192 then s.dropWaiters num k
      else if op = opBcastData then
        if (s.fab.collects.any (isBcast n num)) then
          (s.hearBcast n num sender k).settleBcast n num
        else s.endBcastReq n num k
      else if op = opReset then
        if m.rank = 0 then (s.setComp n fun x => { x with answered := sender :: x.answered }).settleReset n m
        else s.setF F.FAB_COMP_CTL_RESET n 0
      else s

/-- REPLY: R152, R377. -/
def State.takeReply (s : State) (f : Frame) : State :=
  let k := Code.ofNum (byteAt f.payload 0)
  if f.tag.toNat = globalTag then s.globalFailed f k
  else match s.openSub f.tag.toNat f.src.toNat with
    | none => s.addF F.FAB_GLB_STAT_LATE 0 1
    | some o => s.endSub o k (f.payload.drop 64)

/-- A message handled by its type (R375). -/
def State.takeMsg (s : State) (type p : Nat) (f : Frame) (since : Arrival) : State :=
  match type with
  | 1 => s.takeSubreq p f since
  | 2 => s.takeReply f
  | 3 => s.takeMoved f
  | 4 => s.takeCoherence p f
  | 5 => s.takeGlobal p f
  | _ => s

/-! Held hand-offs (R456) -/

/-- R456: HOLD is cleared: the held hand-offs of a slot are staged in arrival order. -/
def State.stageHolds (s : State) (n : Nat) : State :=
  (s.fab.holds.filter fun h => h.slot == n).foldl (fun s h => match s.stageHandoff h.frame with
    | some t => t.setFab fun x => { x with holds := x.holds.filter fun y => y.id != h.id }
    | none => s) s

/-- HOLD_TIMEOUT: R456: a hand-off that has waited 100 ms; one that only waits for the log is tried again (R261). -/
def execHoldTimeout (id : Nat) (s : State) : Host.Outcome State Fault Refusal :=
  gated s fun s =>
    match s.fab.holds.find? fun h => h.id == id with
    | none => s
    | some h =>
      let gone (s : State) : State := s.setFab fun x => { x with holds := x.holds.filter fun y => y.id != id }
      match (if s.on F.FLT_ADMIT_HOLD h.slot then none else s.stageHandoff h.frame) with
      | some t => gone t
      | none => if s.due h.since 100000 then gone (s.replyTo h.frame .quota []) else s

/-! Maps (R387 to R389) -/

/-- The composition map that bytes hold. -/
def mapOfBytes (b : Bytes) : CompMap :=
  let n := leAt b 2 2
  ⟨leAt b 0 2, leAt b 4 4, leAt b 8 2, byteAt b 12, (List.range n).map fun r => leAt b (64 + 8 * r) 2,
    (List.range (leAt b 10 2)).map fun k => BitVec.ofNat 64 (leAt b (64 + 8 * n + 8 * k) 8)⟩

/-- The bytes of the map that FAB_COMP_MAP names, and the code that reading them meets. -/
def State.mapBytes (s : State) (n : Nat) : Bytes × Code :=
  let a := s.fAddr F.FAB_COMP_MAP_ADDR n
  let len := 64 + 8 * s.peekN (a + 2) 2 + 8 * s.peekN (a + 10) 2
  (s.peek a len, s.readCode a len)

/-- R389: FORMAT. -/
def mapFormatOk (b : Bytes) : Bool :=
  let n := leAt b 2 2
  let o := leAt b 10 2
  allZero b 13 47 && decide (1 ≤ n ∧ n ≤ 512) && decide (o ≤ 8192) &&
    ((List.range n).all fun r => allZero b (64 + 8 * r + 2) 6) &&
    ((List.range o).all fun k =>
      let w := leAt b (64 + 8 * n + 8 * k) 8
      decide (bits w 3 0 ≤ 3) && bits w 31 24 == 0 && (bits w 3 0 != 3 || bits w 23 4 == 0))

/-- True when no element of a list occurs twice. -/
def allDistinct : List Nat → Bool
  | [] => true
  | x :: r => !r.contains x && allDistinct r

/-- An object as one number: kind and number. -/
def objKey (o : Word) : Nat := objNum o * 16 + objKind o

/-- R389: the checks of an install in their order; 0 when all hold. -/
def State.mapCheck (s : State) (n : Nat) : Nat :=
  let (b, code) := s.mapBytes n
  let m := mapOfBytes b
  let x := s.comp n
  let others := s.fab.comps.flatMap fun (k, y) => if k = n then [] else match y.map with
    | some m => m.objects.map objKey
    | none => []
  if code.bad || crc32c (putAt b 60 (zeros 4)) != leAt b 60 4 then 1
  else if !mapFormatOk b then 2
  else if m.epoch = 0 ∨ x.prev.isSome ∨ ((match x.map with | some old => decide (m.epoch ≤ old.epoch) | none => false) = true) then 3
  else if m.members.length ≤ m.rank ∨ m.node m.rank ≠ s.self ∨ !allDistinct m.members then 4
  else if !(m.objects.all fun o => objKind o == 3 || (decide (1 ≤ objShards o) && decide (objFirst o + objShards o ≤ m.members.length)))
      || !allDistinct (m.objects.map objKey) || m.objects.any (fun o => others.contains (objKey o)) then 5
  else if m.id = 0 ∨ ((match x.map with | some old => old.id != m.id | none => false) = true) then 6
  else 0

/-- R410: FAB_COMP_STAT follows the slot. -/
def State.showComp (s : State) (n : Nat) : State :=
  let x := s.comp n
  s.setFs n [(F.FAB_COMP_STAT_EPOCH, match x.map with | some m => m.epoch | none => 0),
    (F.FAB_COMP_STAT_DRAINING, b2n x.prev.isSome), (F.FAB_COMP_STAT_SELF_RANK, match x.map with | some m => m.rank | none => 0),
    (F.FAB_COMP_STAT_DOWN, x.down.length)]

/-- R392: requests of contexts that run under an epoch of a slot end with ROUTE_STALE. -/
def State.endEpoch (s : State) (n e : Nat) : State :=
  s.ctxIds.foldl (fun s c =>
    ((s.openReqs c).filter fun r => r.comp == some n && r.epoch == e && !s.keeps r).foldl (fun s r => s.endReq c r.slot .routeStale) s) s

/-- R390, R392: the drain of the previous epoch ends. -/
def State.endPrev (s : State) (n : Nat) : State :=
  match (s.comp n).prev with
  | none => s
  | some p => ((s.endEpoch n p.epoch).setComp n fun x => { x with prev := none, drainAt := 0 }).showComp n

/-- R389: the drain of a removed map ends: the slot is empty. -/
def State.endRemove (s : State) (n : Nat) : State :=
  let s := s.endPrev n
  let s := match (s.comp n).map with
    | some m => s.endEpoch n m.epoch
    | none => s
  ((s.setComp n fun _ => default).showComp n).setF F.FAB_COMP_CTL_REMOVE n 0

/-- R407: the drain of an epoch in µs; 0 ends at once. -/
def State.drainUs (s : State) : Nat := 1000 * s.f F.FAB_TIMERS_MAP_DRAIN_MS 0

/-- R399: an install that moves rank 0 to another node ends the episodes of composition scope. -/
def State.endEpisodes (s : State) (n : Nat) : State :=
  (s.armedObjects.filter fun i => match s.syncComp i with | some (k, _) => k == n | none => false).foldl (fun s i =>
    ((s.dropWaiters i .routeStale).setF F.SYNC_OBJ_ARRIVED i 0).setEpisode i (s.episode i + 1)) s

/-- R389, R390, R393, R394: a map that passed its checks becomes current; messages held for its epoch are handled. -/
def State.adopt (s : State) (n : Nat) (m : CompMap) : State :=
  let x := s.comp n
  let t := s
  let kept := x.down.filter fun r => decide (r < m.members.length) && (match x.map with
    | some old => old.node r == m.node r
    | none => false) && !t.peerOk (m.node r)
  let rootMoved := match x.map with | some old => old.node 0 != m.node 0 | none => false
  let s := if rootMoved then s.endEpisodes n else s
  let s := s.setComp n fun x => { x with map := some m, prev := x.map, drainAt := s.now + s.drainUs, down := kept }
  let s := if s.drainUs = 0 then s.endPrev n else s
  let s := s.showComp n
  let due (h : Held) : Bool := h.frame.comp.toNat == m.id && h.frame.epoch.toNat == m.epoch
  let ready := s.fab.held.filter due
  let s := s.setFab fun x => { x with held := x.held.filter fun h => !due h }
  ready.foldl (fun s h => s.takeMsg h.type h.port h.frame h.since) s

/-- R389: INSTALL. -/
def State.install (s : State) (n : Nat) : State :=
  let k := s.mapCheck n
  let b := (s.mapBytes n).1
  let s := s.noteBytes (s.fAddr F.FAB_COMP_MAP_ADDR n) b.length
  let s := if k = 0 then s.adopt n (mapOfBytes b) else s
  (s.setF F.FAB_COMP_STAT_RESULT n k).setF F.FAB_COMP_CTL_INSTALL n 0

/-- R389: REMOVE. -/
def State.removeComp (s : State) (n : Nat) : State :=
  if (s.comp n).map.isNone ∨ s.drainUs = 0 then s.endRemove n
  else s.setComp n fun x => { x with removing := true, removeAt := s.now + s.drainUs }

/-- R409: a write of FAB_COMP_CTL: the lowest bit written as 1 acts, unless another bit of the slot reads 1. -/
def State.compCtl (s : State) (src : Src) (n old v : Nat) : State :=
  let b := if bit v 0 then 0 else if bit v 1 then 1 else 2
  if bits v 2 0 = 0 then s
  else if bits old 2 0 ≠ 0 ∧ !(bit old b) then s.writeErr .action src .fabCompCtl n
  else if bit old b then s
  else
    let s := s.setReg .fabCompCtl n (bits old 2 0 ||| 2 ^ b)
    if b = 0 then s.install n else if b = 1 then s.removeComp n else s.compReset n

/-- EPOCH_DRAIN_END: R389, R390. -/
def execEpochDrainEnd (n : BitVec 6) (s : State) : Host.Outcome State Fault Refusal :=
  gated s fun s =>
    let n := n.toNat
    let x := s.comp n
    let s := if x.prev.isSome ∧ x.drainAt ≤ s.now then s.endPrev n else s
    if x.removing ∧ x.removeAt ≤ s.now then s.endRemove n else s

/-- HELD_MESSAGE_TIMEOUT: R390. -/
def execHeldMessageTimeout (id : Nat) (s : State) : Host.Outcome State Fault Refusal :=
  gated s fun s =>
    match s.fab.held.find? fun h => h.id == id && decide (h.due ≤ s.now) with
    | none => s
    | some h => (s.setFab fun x => { x with held := x.held.filter fun y => y.id != id }).refuseStale h.type h.frame

/-! Lost members (R393) -/

/-- R393, R395: a slot after one of its ranks is marked down: what waits for it ends with FENCED or goes on without it. -/
def State.settleDown (s : State) (n : Nat) (m : CompMap) : State :=
  let down := (s.comp n).down
  let rootDown := down.contains 0
  let s := if rootDown || down.contains (treeParent m.rank) then
      (s.armedObjects.filter fun i => match s.syncComp i with | some (k, _) => k == n | none => false).foldl
        (fun s i => s.dropWaiters i .fenced) s
    else s
  let s := if rootDown then
      let waits := s.ctxs.flatMap fun (c, x) => x.reqs.filterMap fun r => match r.work with
        | .global _ => if r.comp = some n then some (c, r.slot) else none
        | _ => none
      let s := waits.foldl (fun s (c, q) => s.finishCode c q .fenced) s
      (s.setComp n fun x => { x with resetting := false, answered := [] }).setF F.FAB_COMP_CTL_RESET n 0
    else s
  let s := (s.fab.collects.filter fun k => k.op == opBcastDone && k.slot == n).foldl (fun s k => s.settleBcast n k.num) s
  let s := (s.fab.collects.filter fun k => k.op == opPrepared && k.slot == n).foldl (fun s k => s.reportPrepared k.obj) s
  s.settleReset n m

/-- R393 step 4: the ranks that a slot's current or draining map gives a lost peer. -/
def State.markDown (s : State) (n node : Nat) : State :=
  let x := s.comp n
  let hit (o : Option CompMap) : List Nat := match o with
    | some m => (List.range m.members.length).filter fun r => m.node r == node
    | none => []
  let new := ((hit x.map ++ hit x.prev).filter fun r => !x.down.contains r)
  match x.map with
  | some m => if new = [] then s
    else ((s.setComp n fun x => { x with down := x.down ++ dedupNat new }).showComp n).settleDown n m
  | none => s

/-- R393: a peer is lost. -/
def State.losePeer (s : State) (node : Nat) : State :=
  let s := s.setPeerState node peerLost
  let s := s.setFab fun x =>
    { x with flows := x.flows.filter fun (k, _) => k / 32 != node
             queues := x.queues.map fun (k, e) => (k, { e with frames := e.frames.filter fun f => f.dst != node })
             control := x.control.map fun (k, l) => (k, l.filter fun f => f.dst != node)
             heard := SMap.del x.heard node
             spoke := x.spoke.filter fun (k, _) => k / 16 != node
             admitting := x.admitting.filter fun a => a.node != node }
  let s := s.event F.TOP_INT_STAT_FAB_LOST
  let s := (s.fab.subs.filter fun o => o.node == node && o.answer.isNone).foldl (fun s o => s.endSub o .fenced []) s
  let s := (agentsOfNode node).foldl State.declareLost s
  let asked := s.pool.sent.filter fun r => caskLender r.cask == node
  let s := s.setPool fun p => { p with sent := p.sent.filter fun r => caskLender r.cask != node
                                       cache := p.cache.filter fun l => caskLender l.cask != node }
  let s := asked.foldl (fun s r => s.answerAt r.cask r .fenced none) s
  let s := (s.fab.comps.map (·.1)).foldl (fun s n => s.markDown n node) s
  s.wakeJobs

end Sys2Proof.Machine
end

