-- ==== Sys2Proof/Machine/Fabric.lean ====
section
/-! DEFINITION. The fabric's transport (R371 to R385): the door, delivery in order with acknowledgement and resending, admission
and loss of peers, the egress scheduler, MACsec numbers, and the ports. -/
namespace Sys2Proof.Machine

/-! The door (R380) -/

/-- R373, R380: the headers below the Drivo header are the node's. -/
def State.headersOk (s : State) (p : Nat) (f : Frame) : Bool :=
  (s.on F.FAB_PORT_CFG_MACSEC p || f.sec.isNone) &&
    if s.on F.FAB_PORT_CFG_IPV6 p then
      f.ipv6 && f.etherType == 0x86DD#16 && f.nextHdr == 17#8 && f.udpPort.toNat == s.f F.FAB_NODE_UDP_PORT 0
    else !f.ipv6 && f.etherType.toNat == s.f F.FAB_NODE_ETHERTYPE 0

/-- R406: the key of an association. -/
def State.macsecKey (s : State) (i : Nat) : Bytes := (List.range 4).flatMap fun j => leBytes 8 (s.f F.FAB_MACSEC_KEY_KEY (4 * i + j))

/-- The receive association of a port. -/
def rxSa (p an : Nat) : Nat := 8 * p + 4 + an

/-- R381: a frame passes MACsec, which moves the replay window; past the last PN an association accepts nothing more. -/
def State.macsecTake (s : State) (p : Nat) (f : Frame) : Option State :=
  if !s.on F.FAB_PORT_CFG_MACSEC p then some s
  else match f.sec with
    | none => none
    | some t =>
      let i := rxSa p t.an.toNat
      let pn := t.pn.toNat
      let low := s.f F.FAB_MACSEC_SA_PN i
      if s.on F.FAB_MACSEC_SA_VALID i && !s.fab.pnOut.contains i && t.sciOk && decide (low ≤ pn) &&
          Config.macsecVerifies (s.macsecKey i) pn t.sealed then
        let next := max low (pn + 1 - s.f F.FAB_PORT_CFG_REPLAY_WIN p)
        some (if next = 2 ^ 32 then s.setFab fun x => { x with pnOut := i :: x.pnOut } else s.setF F.FAB_MACSEC_SA_PN i next)
      else none

/-- R374, R380: the Drivo header is in order. -/
def State.drivoOk (s : State) (p : Nat) (f : Frame) : Bool :=
  f.ver == 1#4 && f.dst.toNat == s.self && !f.rsvd && f.lenOk && decide (f.payload.length ≤ 4096) &&
    (f.udpOk || !s.on F.FAB_PORT_CFG_IPV6 p)

/-- R378, R380: the sender is a peer that may send a frame of this type on this port. -/
def State.senderOk (s : State) (p type : Nat) (f : Frame) : Bool :=
  let n := f.src.toNat
  let a := s.peerAddr n
  let st := s.peerState n
  s.peerValid n && beNat (s.peek (a + 6) 6) == f.srcMac.toNat &&
    (!s.on F.FAB_PORT_CFG_IPV6 p || beNat (s.peek (a + 16) 16) == f.srcIp.toNat) &&
    bit (s.peerPorts n) p && (st == peerAdmitted || (st == peerAdmitting && decide (0x10 ≤ type)))

/-- R385: the policer of a data frame. -/
def State.policeTake (s : State) (p type : Nat) (f : Frame) : Option State :=
  let i := 16 * edgeOf p + f.queue.toNat / 2
  if 6 ≤ type ∨ s.f F.FAB_POLICE_RATE i = 0 then some s
  else
    let len := s.wireLen p f.payload.length
    let t := s.policeTokens i
    if t < len then none else some (s.setPolice i (t - len))

/-- R380: the checks in their order; a frame that fails one is dropped and counted. -/
def State.throughDoor (s : State) (p type : Nat) (f : Frame) (go : State → State) : State :=
  if !s.portIsUp p then s
  else if s.flt.forceBad.contains (0x100 + p) then s.setFlt fun x => { x with forceBad := x.forceBad.filter (· != 0x100 + p) }
  else if !s.headersOk p f then s.addF F.FAB_DROP_UNKNOWN p 1
  else match s.macsecTake p f with
    | none => s.addF F.FAB_DROP_MACSEC p 1
    | some s =>
      if !s.drivoOk p f then s.addF F.FAB_DROP_MALFORMED p 1
      else if !s.senderOk p type f then s.addF F.FAB_DROP_UNKNOWN p 1
      else match s.policeTake p type f with
        | none => s.addF F.FAB_DROP_POLICED p 1
        | some s => go s

/-! Resending (R376) -/

/-- A frame of a flow. -/
def ofFlow (n q : Nat) (f : TxFrame) : Bool := f.dst == n && f.queue == q && decide (f.type < 6)

/-- The unacknowledged frames of a flow go to its port once more; one that has left before is a resent frame. -/
def State.resendFlow (s : State) (n q : Nat) : State :=
  let waiting := s.fab.queues.flatMap fun (_, e) => (e.frames.filter (ofFlow n q)).map (·.seq)
  let s := s.setFab fun x =>
    { x with queues := x.queues.map fun (k, e) => (k, { e with frames := e.frames.filter fun f => !ofFlow n q f }) }
  (s.flow n q).unacked.foldl (fun s f =>
    if waiting.contains f.seq then s.dispatchFrame f
    else
      let s := match (if (s.flow n q).held then none else s.flowPort n q) with
        | some p => s.addF F.FAB_PORT_STAT_RETX p 1
        | none => s
      s.dispatchFrame { f with retx := true }) s

/-- R376: frames below a sequence number are acknowledged. -/
def State.ackFlow (s : State) (n q a : Nat) : State :=
  let fl := s.flow n q
  match fl.unacked with
  | [] => s
  | f :: _ =>
    let k := (a + 2 ^ 32 - f.seq) % 2 ^ 32
    if k = 0 ∨ fl.unacked.length < k then s
    else
      let t := s
      let s := s.setFlow n q fun fl =>
        { fl with unacked := fl.unacked.drop k, resends := 0, tried := 0, rtoDue := t.rto, held := false }
      if fl.held then s.resendFlow n q else s

/-- Flows that hold their frames start again when a port comes UP. -/
def State.releaseFlows (s : State) : State :=
  (s.fab.flows.filter fun (_, fl) => fl.held).foldl (fun s (k, _) =>
    (s.setFlow (k / 32) (k % 32) fun fl => { fl with held := false, tried := 0, resends := 0, rtoDue := s.rto }).resendFlow (k / 32) (k % 32)) s

/-- RETRANSMIT_TIMEOUT: R376, R407. -/
def execRetransmitTimeout (peer : BitVec 16) (queue : BitVec 5) (s : State) : Host.Outcome State Fault Refusal :=
  gated s fun s =>
    let n := peer.toNat
    let q := queue.toNat
    let fl := s.flow n q
    if fl.unacked = [] ∨ fl.held ∨ s.now < fl.rtoDue then s
    else if fl.resends < s.f F.FAB_TIMERS_RETRIES 0 then
      (s.setFlow n q fun fl => { fl with resends := fl.resends + 1, rtoDue := s.rto }).resendFlow n q
    else if (s.upPorts n).length ≤ fl.tried + 1 then
      (s.setFlow n q fun fl => { fl with held := true, moves := fl.moves + 1 }).event F.TOP_INT_STAT_FAB_FLOW
    else
      (s.setFlow n q fun fl => { fl with moves := fl.moves + 1, tried := fl.tried + 1, resends := 1, rtoDue := s.rto }).resendFlow n q

/-! Receiving (R375, R376) -/

/-- R393: a frame of an admitted peer has come. -/
def State.hear (s : State) (n : Nat) : State :=
  let ms := s.f F.FAB_TIMERS_LOST_MS 0
  s.setFab fun x => { x with heard := SMap.put 0 x.heard n (if ms = 0 then 0 else s.now + 1000 * ms) }

/-- R375: one frame in its turn; the message is handled with its last frame. -/
def State.deliver (s : State) (p type : Nat) (f : Frame) : State :=
  let n := f.src.toNat
  let q := f.queue.toNat
  let all := (s.flow n q).partial_ ++ f.payload
  let now := s.now
  let s := s.setFlow n q fun fl =>
    { fl with rxNext := (fl.rxNext + 1) % 2 ^ 32, nakSent := false, partial_ := if f.more then all else [],
              owed := fl.owed + 1, owedAt := if fl.owed = 0 then now else fl.owedAt }
  if f.more then s else s.takeMsg type p { f with payload := all } (s.arrival { f with payload := all })

/-- Frames that were held ahead of a gap follow in order. -/
def State.deliverAhead : Nat → State → Nat → Nat → Nat → State
  | 0, s, _, _, _ => s
  | fuel + 1, s, p, n, q =>
    let fl := s.flow n q
    match fl.ahead.find? fun x => x.2.seq.toNat == fl.rxNext with
    | none => s
    | some (type, f) =>
      let s := s.setFlow n q fun fl => { fl with ahead := fl.ahead.filter fun x => x.2.seq != f.seq }
      State.deliverAhead fuel (s.deliver p type f) p n q

/-- R376: a data frame after the door. -/
def State.takeFrame (s : State) (p type : Nat) (f : Frame) : State :=
  let n := f.src.toNat
  let q := f.queue.toNat
  let s := (s.hear n).ackFlow n q f.ack.toNat
  let fl := s.flow n q
  let ahead := (f.seq.toNat + 2 ^ 32 - fl.rxNext) % 2 ^ 32
  let nak (s : State) : State :=
    if (s.flow n q).nakSent then s
    else (s.setFlow n q fun fl => { fl with nakSent := true }).sendFlowControl n q 7 (leBytes 4 fl.rxNext)
  if ahead = 0 then State.deliverAhead 65 (s.deliver p type f) p n q
  else if 2 ^ 31 ≤ ahead then
    s.setFlow n q fun fl => { fl with owed := fl.owed + 1, owedAt := if fl.owed = 0 then s.now else fl.owedAt }
  else if fl.ahead.any fun x => x.2.seq == f.seq then s
  else if fl.ahead.length < 64 ∧ ahead ≤ 64 then
    nak (s.setFlow n q fun fl => { fl with ahead := fl.ahead ++ [(type, f)] })
  else nak s

/-- A data frame on a port. A frame that begins a GLOBAL message belongs to the row of its operation alone. -/
def State.dataFrame (s : State) (p type : Nat) (op : Option Nat) (f : Frame) : State :=
  let fl := s.flow f.src.toNat f.queue.toNat
  if (match op with | some o => byteAt f.payload 0 != o | none => false) && fl.partial_ == [] && fl.rxNext == f.seq.toNat then s
  else s.throughDoor p type f fun s => s.takeFrame p type f

/-- SUBREQ: R390. -/
def execSubreq (p : BitVec 4) (f : Frame) (s : State) : Host.Outcome State Fault Refusal := gated s fun s => s.dataFrame p.toNat 1 none f

/-- REPLY: R152, R377. -/
def execReply (p : BitVec 4) (f : Frame) (s : State) : Host.Outcome State Fault Refusal := gated s fun s => s.dataFrame p.toNat 2 none f

/-- MOVED: R391. -/
def execMoved (p : BitVec 4) (f : Frame) (s : State) : Host.Outcome State Fault Refusal := gated s fun s => s.dataFrame p.toNat 3 none f

/-- COHERENCE_FRAME: R390, R291. -/
def execCoherenceFrame (p : BitVec 4) (f : Frame) (s : State) : Host.Outcome State Fault Refusal :=
  gated s fun s => s.dataFrame p.toNat 4 none f

/-- GLOBAL_ARRIVE: R359, R396. -/
def execGlobalArrive (p : BitVec 4) (f : Frame) (s : State) : Host.Outcome State Fault Refusal :=
  gated s fun s => s.dataFrame p.toNat 5 (some opArrive) f

/-- GLOBAL_RELEASE: R359, R396. -/
def execGlobalRelease (p : BitVec 4) (f : Frame) (s : State) : Host.Outcome State Fault Refusal :=
  gated s fun s => s.dataFrame p.toNat 5 (some opRelease) f

/-- CLOSE_TRIGGER: R78. -/
def execCloseTrigger (p : BitVec 4) (f : Frame) (s : State) : Host.Outcome State Fault Refusal :=
  gated s fun s => s.dataFrame p.toNat 5 (some opCloseTrigger) f

/-- PREPARE: R78. -/
def execPrepare (p : BitVec 4) (f : Frame) (s : State) : Host.Outcome State Fault Refusal :=
  gated s fun s => s.dataFrame p.toNat 5 (some opPrepare) f

/-- PREPARED: R78. -/
def execPrepared (p : BitVec 4) (f : Frame) (s : State) : Host.Outcome State Fault Refusal :=
  gated s fun s => s.dataFrame p.toNat 5 (some opPrepared) f

/-- COMMIT: R78, R456. -/
def execCommit (p : BitVec 4) (f : Frame) (s : State) : Host.Outcome State Fault Refusal :=
  gated s fun s => s.dataFrame p.toNat 5 (some opCommit) f

/-- GLOBAL_RESET: R397. -/
def execGlobalReset (p : BitVec 4) (f : Frame) (s : State) : Host.Outcome State Fault Refusal :=
  gated s fun s => s.dataFrame p.toNat 5 (some opReset) f

/-- RESET_DONE: R397. -/
def execResetDone (p : BitVec 4) (f : Frame) (s : State) : Host.Outcome State Fault Refusal :=
  gated s fun s => s.dataFrame p.toNat 5 (some opResetDone) f

/-- BCAST_DATA: R398. -/
def execBcastData (p : BitVec 4) (f : Frame) (s : State) : Host.Outcome State Fault Refusal :=
  gated s fun s => s.dataFrame p.toNat 5 (some opBcastData) f

/-- BCAST_DONE: R398. -/
def execBcastDone (p : BitVec 4) (f : Frame) (s : State) : Host.Outcome State Fault Refusal :=
  gated s fun s => s.dataFrame p.toNat 5 (some opBcastDone) f

/-! Control frames -/

/-- A control frame on a port: it bypasses the flows (R382); its ACK names the flow of its queue, and an ACK or NAK frame
names the flow's queue in TAG (log entry 33). -/
def State.controlFrame (s : State) (p type : Nat) (f : Frame) (go : State → State) : State :=
  s.throughDoor p type f fun s =>
    let s := if 0x10 ≤ type then s else s.hear f.src.toNat
    go (if type = 6 ∨ type = 7 then s.ackFlow f.src.toNat (f.tag.toNat % 32) f.ack.toNat
      else if 0x10 ≤ type then s
      else s.ackFlow f.src.toNat f.queue.toNat f.ack.toNat)

/-- ACK: R376. -/
def execAck (p : BitVec 4) (f : Frame) (s : State) : Host.Outcome State Fault Refusal :=
  gated s fun s => s.controlFrame p.toNat 6 f fun s => s

/-- NAK: R376: frames before the first missing one are acknowledged, the rest go again. -/
def execNak (p : BitVec 4) (f : Frame) (s : State) : Host.Outcome State Fault Refusal :=
  gated s fun s => s.controlFrame p.toNat 7 f fun s =>
    let n := f.src.toNat
    let q := f.tag.toNat % 32
    let s := s.ackFlow n q (leAt f.payload 0 4)
    if (s.flow n q).held then s else (s.setFlow n q fun fl => { fl with rtoDue := s.rto }).resendFlow n q

/-- KEEPALIVE: R377. -/
def execKeepalive (p : BitVec 4) (f : Frame) (s : State) : Host.Outcome State Fault Refusal :=
  gated s fun s => s.controlFrame p.toNat 8 f fun s => s

/-- ACK_TIMER: R376. -/
def execAckTimer (peer : BitVec 16) (queue : BitVec 5) (s : State) : Host.Outcome State Fault Refusal :=
  gated s fun s =>
    let n := peer.toNat
    let q := queue.toNat
    let fl := s.flow n q
    if 8 ≤ fl.owed ∨ (fl.owed ≠ 0 ∧ s.due fl.owedAt 10) then
      (s.setFlow n q fun fl => { fl with owed := 0 }).sendFlowControl n q 6 []
    else s

/-- R377, R407: when a KEEPALIVE falls due. -/
def State.aliveDue (s : State) : Nat := s.now + max 1 (s.f F.FAB_TIMERS_KEEPALIVE_US 0)

def State.spoken (s : State) (n p : Nat) : State :=
  let t := s.aliveDue
  s.setFab fun x => { x with spoke := SMap.put 0 x.spoke (n * 16 + p) t }

/-- KEEPALIVE_TIMER: R377. -/
def execKeepaliveTimer (peer : BitVec 16) (p : BitVec 4) (s : State) : Host.Outcome State Fault Refusal :=
  gated s fun s =>
    let n := peer.toNat
    let p := p.toNat
    if n ≠ s.self ∧ s.peerOk n ∧ (s.upPorts n).contains p ∧ SMap.get 0 s.fab.spoke (n * 16 + p) ≤ s.now then
      (s.sendControl p n 8 0 []).spoken n p
    else s

/-- SUBREQ_TIMEOUT: R377. -/
def execSubreqTimeout (tag : BitVec 32) (s : State) : Host.Outcome State Fault Refusal :=
  gated s fun s =>
    match s.fab.subs.find? fun o => o.tag == tag.toNat && o.answer.isNone && o.due != 0 && decide (o.due ≤ s.now) with
    | some o => s.endSub o .timeout []
    | none => s

/-! Admission (R379) -/

/-- A nonce of 32 bytes. -/
def nonce (k : Nat) : Bytes := (List.range 32).map (Config.nonceByte k)

def State.admission (s : State) (n : Nat) : Option Admission := s.fab.admitting.find? fun a => a.node == n

def State.setAdmission (s : State) (n : Nat) (f : Admission → Admission) : State :=
  s.setFab fun x => { x with admitting := x.admitting.map fun a => if a.node = n then f a else a }

/-- R379: an admission fails. -/
def State.refusePeer (s : State) (n : Nat) : State :=
  ((s.setPeerState n peerRefused).addF F.FAB_GLB_STAT_ADMIT_FAIL 0 1).setFab fun x =>
    { x with admitting := x.admitting.filter fun a => a.node != n }

/-- R379, R479: an admission starts, for a node whose entry is VALID; a node without its own identity (IDENT_OK 0) fails
every admission, at once (DEDUCED: it has no chain to send and no key to sign with; log entry 314). -/
def State.startAdmit (s : State) (n : Nat) : State :=
  if !s.peerValid n then s
  else if !s.on F.SEC_BOOT_STAT_IDENT_OK 0 then s.refusePeer n
  else
    let k := s.fab.nonces
    let mine := nonce k
    let now := s.now
    let s := (s.setPeerState n peerAdmitting).setFab fun x =>
      { x with nonces := k + 1, admitting := (x.admitting.filter fun a => a.node != n) ++ [⟨n, now, mine, [], [], false, false⟩] }
    s.sendFlowControl n 0 0x10 mine

/-- R375: this node's certificate chain, in frames with MORE on every one but the last. -/
def State.sendCert (s : State) (n : Nat) : State :=
  match s.flowPort n 0 with
  | none => s
  | some p =>
    let ps := match pieces 4096 s.sec.chainDer with
      | [] => [[]]
      | l => l
    (ps.zip (List.range ps.length)).foldl (fun s (pl, k) =>
      s.enqueueFrame p ⟨0x11, n, 0, 0, 0, false, decide (k + 1 < ps.length), k, 0, 0xFFFF, 0, pl⟩) s

/-- R379: the message that a proof signs. -/
def proofMsg (sender receiver : Bytes) (a b : Nat) : Bytes := sender ++ receiver ++ leBytes 2 a ++ leBytes 2 b

/-- ADMIT_HELLO: R379. -/
def execAdmitHello (p : BitVec 4) (f : Frame) (s : State) : Host.Outcome State Fault Refusal :=
  gated s fun s => s.controlFrame p.toNat 0x10 f fun s =>
    let n := f.src.toNat
    match s.admission n with
    | some a => if a.hello then s else (s.setAdmission n fun a => { a with theirs := slice f.payload 0 32, hello := true }).sendCert n
    | none => s

/-- ADMIT_CERT: R379. -/
def execAdmitCert (p : BitVec 4) (f : Frame) (s : State) : Host.Outcome State Fault Refusal :=
  gated s fun s => s.controlFrame p.toNat 0x11 f fun s =>
    let n := f.src.toNat
    match s.admission n with
    | none => s
    | some a =>
      if a.cert then s
      else
        let chain := a.chain ++ f.payload
        if 8192 < chain.length then s.refusePeer n
        else if f.more then s.setAdmission n fun a => { a with chain := chain }
        else if Config.chainVerifies chain s.sec.fuses.root && sha256 (Config.leafKey chain) == s.peek (s.peerAddr n + 32) 32 then
          (s.setAdmission n fun a => { a with chain := chain, cert := true }).sendFlowControl n 0 0x12
            (slice (Config.deviceSign (proofMsg a.mine a.theirs s.self n)) 0 384)
        else s.refusePeer n

/-- R376, R379: the peer is admitted: its flows start at 0. -/
def State.admitPeer (s : State) (n : Nat) : State :=
  let s := (s.setPeerState n peerAdmitted).setFab fun x =>
    { x with flows := x.flows.filter fun (k, _) => k / 32 != n
             queues := x.queues.map fun (k, e) => (k, { e with frames := e.frames.filter fun f => f.dst != n })
             admitting := x.admitting.filter fun a => a.node != n }
  let s := (s.hear n).agentsBack (agentsOfNode n)
  (onesBelow 16 (s.peerPorts n)).foldl (fun s p => s.spoken n p) s

/-- ADMIT_PROOF: R379. -/
def execAdmitProof (p : BitVec 4) (f : Frame) (s : State) : Host.Outcome State Fault Refusal :=
  gated s fun s => s.controlFrame p.toNat 0x12 f fun s =>
    let n := f.src.toNat
    match s.admission n with
    | none => s
    | some a =>
      let digest := sha256 (proofMsg a.theirs a.mine n s.self)
      if a.hello && a.cert && rsaVerify (Config.leafModulus a.chain) (Config.leafExponent a.chain) 384 digest (slice f.payload 0 384) then
        s.admitPeer n
      else s.refusePeer n

/-- ADMIT_TIMEOUT: R379. -/
def execAdmitTimeout (node : BitVec 16) (s : State) : Host.Outcome State Fault Refusal :=
  gated s fun s =>
    match s.admission node.toNat with
    | some a => if s.due a.started 100000 then s.refusePeer node.toNat else s
    | none => s

/-- R393: the silence of an admitted peer. -/
def State.silentPeer (s : State) (n : Nat) : State :=
  let t := SMap.get 0 s.fab.heard n
  if t ≠ 0 ∧ t ≤ s.now ∧ n ≠ s.self ∧ s.peerOk n then s.losePeer n else s

/-! Sending (R381 to R384) -/

/-- R381: the association that a port transmits under: none while it has none in use, or has run out of numbers. -/
def State.txSa (s : State) (p : Nat) : Option Nat :=
  ((List.range 4).map (8 * p + ·)).find? fun i => s.on F.FAB_MACSEC_SA_VALID i && s.on F.FAB_MACSEC_SA_ACTIVE i && !s.fab.pnOut.contains i

/-- R381: the port may send now. -/
def State.mayTransmit (s : State) (p : Nat) : Bool := s.portIsUp p && (!s.on F.FAB_PORT_CFG_MACSEC p || (s.txSa p).isSome)

/-- R381: one packet number used. -/
def State.usePn (s : State) (p : Nat) : State :=
  if !s.on F.FAB_PORT_CFG_MACSEC p then s
  else match s.txSa p with
    | none => s
    | some i =>
      let pn := s.f F.FAB_MACSEC_SA_PN i
      if pn = 2 ^ 32 - 1 then (s.setFab fun x => { x with pnOut := i :: x.pnOut }).event F.TOP_INT_STAT_FAB_PN
      else s.setF F.FAB_MACSEC_SA_PN i (pn + 1)

/-- A frame leaves a port with the ACK of its flow. -/
def State.putOnWire (s : State) (p : Nat) (f : TxFrame) : State :=
  let q := if f.type = 6 ∨ f.type = 7 then f.tag else f.queue
  let fl := s.flow f.dst q
  let s := (s.usePn p).setFab fun x => { x with wire := x.wire ++ [(p, fl.rxNext, f)] }
  let s := if fl.owed = 0 ∨ 8 ≤ f.type then s else s.setFlow f.dst q fun fl => { fl with owed := 0 }
  s.spoken f.dst p

/-- R383, R384: a queue that may start a frame. -/
def State.eligible (s : State) (p q : Nat) : Bool :=
  let i := 16 * edgeOf p + q / 2
  (s.egress p q).frames != [] && decide (0 ≤ s.credit p q) && (s.f F.FAB_SHAPE_RATE i == 0 || decide (0 < s.shapeTokens i))

/-- R383: the eligible queue with the highest credit, ties to the lower number. -/
def State.nextQueue (s : State) (p : Nat) : Option Nat :=
  ((List.range 32).filter (s.eligible p)).foldl (fun best q => match best with
    | none => some q
    | some b => if s.credit p b < s.credit p q then some q else some b) none

/-- R383, R384: the head frame of a queue is sent: credit and tokens fall. -/
def State.sendHead (s : State) (p q : Nat) : State :=
  match (s.egress p q).frames with
  | [] => s
  | f :: rest =>
    let len := s.wireLen p f.payload.length
    let i := 16 * edgeOf p + q / 2
    let rate := s.portRate p
    let c := s.boundCredit p q (s.credit p q - (len * creditUnit * (rate - s.idleSlope p q) / rate : Nat))
    let now := s.now
    let s := if s.f F.FAB_SHAPE_RATE i = 0 then s else s.setShape i (s.shapeTokens i - len)
    let s := s.setEgress p q fun e => { e with frames := rest, credit := if rest = [] ∧ 0 < c then 0 else c, at_ := now }
    s.putOnWire p f

/-- FRAME_TRANSMIT: R382 to R384, R381. -/
def execFrameTransmit (p : BitVec 4) (s : State) : Host.Outcome State Fault Refusal :=
  gated s fun s =>
    let p := p.toNat
    if !s.mayTransmit p then s
    else match SMap.get [] s.fab.control p with
      | f :: rest => (s.setFab fun x => { x with control := SMap.put [] x.control p rest }).putOnWire p f
      | [] => match s.nextQueue p with
        | some q => s.sendHead p q
        | none => s

/-! Ports (R371, R372) -/

/-- R376: the flows that used a port which has left UP move on. -/
def State.leavePort (s : State) (p : Nat) : State :=
  let data := s.fab.queues.flatMap fun (k, e) => if k / 32 = p then e.frames else []
  let ctl := SMap.get [] s.fab.control p
  let s := s.setFab fun x => { x with queues := x.queues.filter fun (k, _) => k / 32 != p, control := SMap.del x.control p }
  let s := data.foldl State.dispatchFrame s
  ctl.foldl (fun s f => match s.flowPort f.dst 0 with
    | some p => s.enqueueFrame p f
    | none => s) s

/-- R401, R372: ENABLE goes from 0 to 1. The table has no row that ends training: the port is UP at once (log entry 61). -/
def State.startPort (s : State) (src : Src) (p : Nat) : State :=
  if s.self = 0 ∨ s.self = 0xFFFF then (s.setF F.FAB_PORT_CFG_ENABLE p 0).writeErr .enable src .fabPortCfg p
  else
    let eth := s.on F.FAB_PORT_CFG_MODE p
    let s := s.setFab fun x => { x with ethernet := (if eth then [p] else []) ++ x.ethernet.filter (· != p) }
    (s.setF F.FAB_PORT_STAT_STATE p portUp).releaseFlows

/-- R402: a port stops. -/
def State.stopPort (s : State) (p st : Nat) : State :=
  (s.setF F.FAB_PORT_STAT_STATE p st).leavePort p

/-- FABRIC_PORT_FAILED: R372. -/
def execFabricPortFailed (p : BitVec 4) (s : State) : Host.Outcome State Fault Refusal :=
  gated s fun s =>
    if s.on F.FAB_PORT_CFG_ENABLE p.toNat then (s.stopPort p.toNat portFailed).linkLost (0x100 + p.toNat) else s

/-! Writes of the shaping registers (R383 to R385) -/

/-- R383: a write of FAB_QUEUE sets the credit to 0. -/
def State.queueWritten (s : State) (i : Nat) : State :=
  let now := s.now
  s.setEgress (i / 32) (i % 32) fun e => { e with credit := 0, at_ := now }

/-- R384: a write of FAB_SHAPE fills or empties its bucket. -/
def State.shapeWritten (s : State) (i : Nat) : State :=
  s.setShape i (if s.on F.FAB_SHAPE_FILL i then s.f F.FAB_SHAPE_BURST_KIB i * 1024 else 0)

/-- R385: a write of FAB_POLICE fills or empties its bucket. -/
def State.policeWritten (s : State) (i : Nat) : State :=
  s.setPolice i (if s.on F.FAB_POLICE_FILL i then s.f F.FAB_POLICE_BURST_KIB i * 1024 else 0)

/-- R406, R381: a write of FAB_MACSEC_SA: one transmit association of a port is in use. -/
def State.saWritten (s : State) (i : Nat) : State :=
  let s := s.setFab fun x => { x with pnOut := x.pnOut.filter (· != i) }
  if i % 8 < 4 ∧ s.on F.FAB_MACSEC_SA_ACTIVE i then
    (((List.range 4).map (i / 8 * 8 + ·)).filter (· != i)).foldl (fun s k => s.setF F.FAB_MACSEC_SA_ACTIVE k 0) s
  else s

/-- R403: a write of FAB_PEER_CTL: LOST wins over ADMIT. -/
def State.peerCtl (s : State) (v : Nat) : State :=
  let n := bits v 15 0
  if bit v 17 then (if s.peerValid n then s.losePeer n else s)
  else if bit v 16 then s.startAdmit n else s

end Sys2Proof.Machine
end

