-- ==== Sys2Proof/Machine/Ckpt.lean ====
section
/-! DEFINITION. Index checkpoints and restores (R450 to R454, R464, R471). -/
namespace Sys2Proof.Machine

/-! The run -/

def ckptRunning : Nat := 1
def ckptDone : Nat := 2
def ckptFailed : Nat := 3

/-- R452, R464: the end of a run with a code: its pin is released, GO clears, the interrupt is raised. -/
def State.endCkpt (s : State) (k : Code) : State :=
  let s := match s.flt.ckpt with
    | some r => s.setIdx r.index fun x => { x with pins := x.pins.filter fun p => !p.ckpt, restoring := false }
    | none => s
  let s := s.setFlt fun x => { x with ckpt := none }
  ((s.setFs 0 [(F.FLT_CKPT_STAT_STATE, if k.bad then ckptFailed else ckptDone), (F.FLT_CKPT_STAT_RESULT, k.num)]).setF
    F.FLT_CKPT_GO 0 0).event F.TOP_INT_STAT_CKPT

/-- R471: the run of an index of a partition ends with a code. -/
def State.failCkpt (s : State) (n : Nat) (k : Code) : State :=
  match s.flt.ckpt with
  | some r => if s.f F.VINT_IDX_CFG_PARTITION r.index = n then s.endCkpt k else s
  | none => s

/-- R471: a run holds a partition. -/
def State.ckptHolds (s : State) (n : Nat) : Bool :=
  match s.flt.ckpt with
  | some r => s.f F.VINT_IDX_CFG_PARTITION r.index == n
  | none => false

/-- R452: what fails a run before it does anything: the index, the namespace, the update tile (R555), the pins. -/
def State.ckptCheck (s : State) (op i ns : Nat) : Code :=
  let d := s.nsDesc ns
  let part := s.f F.VINT_IDX_CFG_PARTITION i
  let index : Code := if op = 1 then (if s.idxOn i then .ok else .invalidArg)
    else if op = 0 ∨ s.idxOn i ∨ !s.idxCfgOk i then .invalidArg else .ok
  let name : Code := if !s.nsOn ns ∨ d.kind ≠ nsCkpt then .invalidArg
    else if d.tenant ≠ s.f F.VINT_IDX_CFG_TENANT i then .denied else .ok
  let room : Code := if op = 1 ∧ 16 ≤ (s.idx i).pins.length then .quota else .ok
  let tile : Code := if !s.hasPers part persUpdate then .invalidArg else if s.fencedFor part [persUpdate] then .reset else .ok
  ((index.worst name).worst room).worst tile

/-- R83, R471: the blocks of a list of an index returned to the free blocks. -/
def State.freeList (s : State) (i l : Nat) : State :=
  match s.chains i l with
  | .error _ => s
  | .ok cs => ((List.range cs.length).zip cs).foldl (fun s (j, ch) =>
      let blks := s.blocksOf ch
      let cl := s.idxCl i
      let s := blks.foldl (fun s b =>
        let s := (List.range (s.hdr ch.unit b).used).foldl (fun s k => s.locDrop i (s.entry ch.unit b cl k).item ch.unit b k) s
        s.setFree ch.unit b true) s
      let s := if ch.spill then
          s.setF F.VINT_SPILL_CFG_SPILL_USED 0 (s.f F.VINT_SPILL_CFG_SPILL_USED 0 - blks.length)
        else s
      s.setChain i l j { ch with head := Config.noBlock, blocks := 0 }) s

/-- R452, R454, R464: GO written as 1. -/
def State.startCkpt (s : State) (src : Src) : State :=
  if s.flt.ckpt.isSome then s.writeErr .action src .fltCkpt 0
  else
    let op := s.f F.FLT_CKPT_OP 0
    let i := s.f F.FLT_CKPT_INDEX 0
    let ns := s.f F.FLT_CKPT_NS 0
    let k := s.ckptCheck op i ns
    if k.bad then s.endCkpt k
    else
      let v := s.durable i
      let s := (s.setFs 0 [(F.FLT_CKPT_STAT_STATE, ckptRunning), (F.FLT_CKPT_STAT_RESULT, 0)]).setF F.FLT_CKPT_GO 0 1
      let s := s.setFlt fun x => { x with ckpt := some ⟨op, i, ns, v, (s.idx i).durSeq⟩ }
      if op = 1 then
        (s.setIdx i fun x => { x with pins := x.pins ++ [⟨freshHandle x.pins, v, 0, true, none⟩] }).discardSlot ns 0
      else
        let s := s.setIdx i fun x => { x with restoring := true }
        (List.range (s.f F.VINT_IDX_CFG_LIST_COUNT i)).foldl (fun s l => s.freeList i l) s

/-! Writing a checkpoint (R451, R452) -/

/-- The entries of a chain that a vintage sees, or the code of the first damaged one. -/
def State.chainEntries (s : State) (i l v : Nat) (ch : Chain) : Except Code (List Bytes) :=
  let cl := s.idxCl i
  (s.blocksOf ch).foldl (fun (r : Except Code (List Bytes)) b =>
    match r with
    | .error k => .error k
    | .ok out =>
      let code := s.blkCode ch.unit b 0 4096
      if code != .ok then .error code
      else
        let h := s.hdr ch.unit b
        let es := ((List.range h.used).map (s.entry ch.unit b cl)).filter fun e => e.visible v h.base
        .ok (out ++ es.map fun e => logRecord 1 cl i l e.item e.attr 0 e.code 0)) (.ok [])

/-- R451: the entry records of an index at a vintage: in list order, chain order, slot order. -/
def State.ckptRecords (s : State) (i v : Nat) : Except Code (List Bytes) :=
  (List.range (s.f F.VINT_IDX_CFG_LIST_COUNT i)).foldl (fun (r : Except Code (List Bytes)) l =>
    match r, s.chains i l with
    | .error k, _ => .error k
    | .ok _, .error k => .error k
    | .ok out, .ok cs => cs.foldl (fun (r : Except Code (List Bytes)) ch =>
        match r with
        | .error k => .error k
        | .ok out => (s.chainEntries i l v ch).map (out ++ ·)) (.ok out)) (.ok [])

/-- R451: the header of a checkpoint. -/
def State.ckptHeader (s : State) (i v seq records : Nat) : Bytes :=
  let b := [0x43#8, 0x4B#8, 0x50#8, 0x54#8] ++ leBytes 2 1 ++ leBytes 2 i ++ leBytes 8 v ++ leBytes 8 seq ++ leBytes 8 records ++
    leBytes 8 (setBits (s.reg .vintIdxCfg i) 0 0 0) ++ leBytes 8 (s.reg .vintIdxQcfg i) ++ zeros 4044
  b ++ leBytes 4 (crc32c b)

/-- R119, R452: the chains of an index are read through the controller: damage in them counts. -/
def State.noteIndex (s : State) (i : Nat) : State :=
  (List.range (s.f F.VINT_IDX_CFG_LIST_COUNT i)).foldl (fun s l => match s.chains i l with
    | .error _ => s
    | .ok cs => cs.foldl (fun s ch => s.noteChain ch.unit ch.head) s) s

/-- R451, R452: the checkpoint of a run: the records first and the header last. -/
def State.writeCkpt (s : State) (r : CkptRun) : State :=
  let s := s.noteIndex r.index
  match s.ckptRecords r.index r.vint with
  | .error k => s.endCkpt k
  | .ok recs =>
    let all := recs ++ [logRecord 5 (s.idxCl r.index) r.index 0 0 0 r.seq [] r.vint]
    let slots := pieces 32 all
    if (s.nsDesc r.ns).size < slots.length + 1 ∨ s.writeRefused nsCkpt then s.endCkpt .quota
    else
      let s := ((List.range slots.length).zip slots).foldl (fun s (n, l) => s.writeSlot r.ns (n + 1) (slice l.flatten 0 4096) .own) s
      let s := s.writeSlot r.ns 0 (s.ckptHeader r.index r.vint r.seq recs.length) .own
      (s.setF F.FLT_CKPT_VINT_VINTAGE 0 r.vint).endCkpt .ok

/-! Restoring (R454) -/

/-- A record whose CHECK holds (R72). -/
def recOk (d : Bytes) : Bool := crc32c (slice d 0 124) == leAt d 124 4

/-- A record as an update. -/
def updOf (cl : Nat) (d : Bytes) : Upd := ⟨byteAt d 0, leAt d 4 4, leAt d 8 8, leAt d 16 8, slice d 32 (codeLen cl)⟩

/-- R454: the header of a checkpoint in a namespace: its vintage, LAST_SEQ and records, or the code that ends the restore. -/
def State.readHeader (s : State) (i ns : Nat) : State × Except Code (Nat × Nat × Nat) :=
  match s.readSlot ns 0 with
  | (s, none) => (s, .error .uncorrectable)
  | (s, some b) =>
    let cfg := leAt b 32 8
    let same (f : Fld) : Bool := bits cfg f.hi f.lo == s.f f i
    (s, if leAt b 0 4 == 0x54504B43 && leAt b 4 2 == 1 && crc32c (slice b 0 4092) == leAt b 4092 4 &&
        same F.VINT_IDX_CFG_CODE_LEN && same F.VINT_IDX_CFG_CODE_FMT && same F.VINT_IDX_CFG_MODE then
      .ok (leAt b 8 8, leAt b 16 8, leAt b 24 8)
    else .error .invalidArg)

/-- R451, R454: the entries of a checkpoint; a record that cannot be read, or whose CHECK fails, ends the restore. -/
def State.readEntries (s : State) (i ns n : Nat) : State × Except Code (List Upd) :=
  let (s, b, ok) := s.readSlots ns 1 (ceilDiv n 32)
  let recs := (pieces 128 b).take n
  (s, if ok && recs.all recOk then .ok (recs.map (updOf (s.idxCl i))) else .error .uncorrectable)

/-- R72, R261: the records of the log in the order of the ring, up to the first whose CHECK fails. -/
def State.logRecords (s : State) : List Bytes :=
  match s.logNs with
  | none => []
  | some ns =>
    let frames := (s.cellar.flash.map (·.2)).filter fun f => f.ns == ns && f.kind == 2 &&
      SMap.find s.cellar.logRing f.lslot == some (f.seq + 1)
    let recs := (sortBy (fun a b => decide (a.seq < b.seq)) frames).flatMap fun f => (pieces 128 f.data).take f.count
    recs.takeWhile recOk

/-- R454: a record of the log that belongs to an index. -/
def recOf (i : Nat) (d : Bytes) : Bool := leAt d 2 2 % 4096 == i

/-- R454: the log of an index past a SEQ: the updates up to the last close marker, that marker's vintage, and the updates
after it. -/
def State.logPast (s : State) (i v seq : Nat) : List Upd × Nat × List Upd :=
  let recs := s.logRecords.filter fun d => recOf i d && (if byteAt d 0 == 5 then decide (v < leAt d 96 8) else decide (seq < leAt d 24 8))
  let after := (recs.reverse.takeWhile fun d => byteAt d 0 != 5).reverse
  let upTo := recs.take (recs.length - after.length)
  let d := match upTo.getLast? with | some m => leAt m 96 8 | none => v
  let ups (l : List Bytes) : List Upd := (l.map (updOf (s.idxCl i))).filter fun u => u.op == 1 || u.op == 2
  (ups upTo, d, ups after)

/-- R70: updates applied to a set of entries: an insert replaces, a delete removes. -/
def netUpd (l : List Upd) (u : Upd) : List Upd :=
  let l := l.filter fun x => x.item != u.item
  if u.op = 1 then l ++ [u] else l

/-- R71, R454: an entry written as a restore writes it: on a home chain, with its locator record, no log record. -/
def State.restoreOne (s : State) (i v : Nat) (u : Upd) : Except UpdFail State := do
  match s.chains i u.list with
  | .error k => .error (.code k)
  | .ok cs => match homeChain cs with
    | none => .error .block
    | some (j, ch) =>
      let (s, l) ← s.appendTo i u.list j ch v v u
      s.setLoc i l

/-- R72: an update after the last close marker staged again for the next close; its record is in the log already. -/
def State.restage (s : State) (i v : Nat) (u : Upd) : Except UpdFail State := do
  let (s, dead) ← s.stampDead i u.item v
  if u.op = 2 then return (if dead = 0 then s.addF F.VINT_STAT_DELETE_MISS i 1 else s)
  else
    let (s, l) ← s.appendEntry i v u
    s.setLoc i l

/-- Steps that stop at the first that fails. -/
def foldUpd (f : State → Upd → Except UpdFail State) (s : State) (l : List Upd) : Except UpdFail State :=
  l.foldlM f s

/-- The code with which a restore that cannot go on ends. -/
def UpdFail.code_ : UpdFail → Code
  | .code k => k
  | _ => .quota

/-- R74, R454 steps 4 and 5, R81 (VINT_DURABLE stands at the vintage that is durable, D, so that R450 lets no vintage above D + 1,024
be published before a marker of this run is programmed; log entry 105): the index enabled at the vintage that the log reached. -/
def State.openRestored (s : State) (i d seq : Nat) : State :=
  let glob := s.idxGlobal i
  let v := if glob then 0 else d + 1024
  let s := ((s.setF F.VINT_IDX_CFG_ENABLE i 1).setF F.VINT_CUR_VINTAGE i v).setF F.VINT_DURABLE_VINTAGE i (if glob then 0 else d)
  let s := s.setIdx i fun x =>
    { x with openV := (if glob then d else v) + 1, everPub := max x.everPub v, seq := seq, stamped := 0, timer := s.now, close := none,
             again := false, pins := [], prepared := none, awaiting := glob, restoring := false, firstCommit := 0, markers := [],
             durSeq := seq }
  if glob then s else s.setF F.FLT_CKPT_VINT_VINTAGE 0 v

/-- R454: the restore of a run. -/
def State.restoreIdx (s : State) (r : CkptRun) : State :=
  let i := r.index
  match s.readHeader i r.ns with
  | (s, .error k) => s.endCkpt k
  | (s, .ok (v, seq, n)) => match s.readEntries i r.ns n with
    | (s, .error k) => s.endCkpt k
    | (s, .ok es) =>
      let (done, d, rest) := if r.op = 3 then s.logPast i v seq else ([], v, [])
      let top := (s.logRecords.filter (recOf i)).foldl (fun a x => max a (leAt x 24 8)) seq
      match foldUpd (fun s u => s.restoreOne i d u) s (done.foldl netUpd es) with
      | .error k => s.endCkpt k.code_
      | .ok s =>
        match foldUpd (fun s u => s.restage i (s.idx i).openV u) (s.openRestored i d (if r.op = 3 then top else seq)) rest with
        | .error k => s.endCkpt k.code_
        | .ok s => (s.setIdx i fun x => { x with stamped := rest.length }).endCkpt .ok

/-- CHECKPOINT_RUN_END: R452, R454, R464. -/
def execCheckpointRunEnd (s : State) : Host.Outcome State Fault Refusal :=
  gated s fun s =>
    match s.flt.ckpt with
    | some r => if r.op = 1 then s.writeCkpt r else s.restoreIdx r
    | none => s

end Sys2Proof.Machine
end

