-- ==== Sys2Proof/Machine/Loads.lean ====
section
/-! DEFINITION. The ends of trellis loads and unloads (R330, R331), with what they meet: checkpoint runs (R471), and
sub-requests of peers, which wait for a load (R469). -/
namespace Sys2Proof.Machine

/-! What runs in a partition -/

/-- The requests of contexts of other partitions that run in a partition. -/
def State.guests (s : State) (n : Nat) : List (Nat × Nat) :=
  s.ctxIds.flatMap fun c => if s.partOf c = n then []
    else ((s.openReqs c).filter fun r => !s.keeps r && s.reqPart c r == n).map fun r => (c, r.slot)

/-- The jobs of peers in a partition. -/
def State.peerJobs (s : State) (n : Nat) : List Nat :=
  (s.jobs.filter fun (_, j) => j.part == n && match j.owner with | .peer _ _ _ _ _ _ => true | _ => false).map (·.1)

/-- R331, R438: every request that runs in a partition ends: those of its contexts, those of other contexts, those of peers,
and a FLT_CKPT run. -/
def State.clearPart (s : State) (n : Nat) (k peer : Code) : State :=
  let s := s.abandonPart n
  let s := (s.guests n).foldl (fun s (c, q) => s.endReq c q k) s
  let s := s.endPart n k k
  ((s.peerJobs n).foldl (fun s id => s.failJob id peer) s).failCkpt n k

/-- R330: something runs in a partition. -/
def State.partHolds (s : State) (n : Nat) : Bool :=
  s.partBusy n || s.guests n != [] || s.peerJobs n != [] || s.ckptHolds n

/-! Sub-requests that waited (R469) -/

/-- R469: the load of a partition is over: the sub-requests that waited for it are taken. -/
def State.retake (s : State) (n : Nat) : State :=
  let l := s.fab.partWaits.filter fun w => w.1 == n
  let s := s.setFab fun x => { x with partWaits := x.partWaits.filter fun w => w.1 != n }
  l.foldl (fun s (_, p, f, since) => s.takeSubreq p f since) s

/-! DRAIN and PROGRAM -/

/-- R330, R331: DRAIN ends: an unload leaves the partition EMPTY, a load goes on to PROGRAM. -/
def State.leaveDrain (s : State) (n : Nat) (r : LoadRun) : State :=
  if r.unload then
    let key := match (s.part n).img with | some g => g.keySlot | none => 0
    ((((s.emptyPart n).setF F.TRL_CTL_UNLOAD n 0).appendLog (0x10 + n) 3 n key (zeros 32)).trlEvent n).retake n
  else s.setF F.TRL_STAT_STATE n trlProgram

/-- DRAIN_END: R330, R331: nothing runs any more, or DRAIN_MS has passed. -/
def execDrainEnd (n : BitVec 3) (s : State) : Host.Outcome State Fault Refusal :=
  gated s fun s =>
    let n := n.toNat
    match (s.part n).run with
    | none => s
    | some r =>
      if s.trlState n ≠ trlDrain ∨ (s.partHolds n ∧ !s.due r.started (1000 * s.f F.TRL_CTL_DRAIN_MS n)) then s
      else (s.clearPart n .aborted .aborted).leaveDrain n r

/-- PROGRAM_END: R328, R330. -/
def execProgramEnd (n : BitVec 3) (s : State) : Host.Outcome State Fault Refusal :=
  gated s fun s =>
    let n := n.toNat
    match (s.part n).run with
    | some r => match r.img with
      | some g =>
        if s.trlState n ≠ trlProgram then s
        else ((((s.programImage n g).setF F.TRL_CTL_LOAD n 0).appendLog (0x10 + n) 2 n g.keySlot g.digest).trlEvent n).retake n
      | none => s
    | none => s

end Sys2Proof.Machine
end

