-- ==== Sys2Proof/Machine/Nahel.lean ====
section
/-! DEFINITION. The link of the Nahel ports (R413 to R418, R427): training, flits with their acknowledgement and replay,
credits, interrupt moderation, and the checks that every packet passes. What a packet does is in Packets.lean. -/
namespace Sys2Proof.Machine

/-! States (R413, R414) -/

/-- R429: a port enters a state. -/
def State.nlEnter (s : State) (p st : Nat) : State :=
  let now := s.now
  let s := (s.setF F.NL_PORT_STAT_STATE p st).setNl p fun n => { n with stateAt := now, aligned := [] }
  if st = nlActive ∨ st = nlRetrain ∨ st = nlFailed then s.event F.TOP_INT_STAT_NAHEL else s

/-- R296, R414: the port is down: the host behind it is a lost agent, and what waited to leave is discarded. The moderation of
interrupts goes on (R427). -/
def State.nlDownNow (s : State) (p : Nat) : State :=
  ((s.setNl p fun n => { n with out := [], stream := [], replay := [], casks := [] }).declareLost (s.hostAgent p)).wakeJobs

/-- R413, R414: a port enters FAILED. -/
def State.nlFail (s : State) (p : Nat) : State := ((s.nlEnter p nlFailed).linkLost (0x110 + p)).nlDownNow p

/-- R413: training starts at DETECT. -/
def State.nlTrain (s : State) (p : Nat) : State := (s.setNl p fun n => { n with attempts := 0 }).nlEnter p nlDetect

/-- R414, R428: a write changed ENABLE. -/
def State.nlEnableWritten (s : State) (p : Nat) : State :=
  if s.on F.NL_PORT_CFG_ENABLE p then s.nlTrain p else (s.nlEnter p nlDown).nlDownNow p

/-- R427: one INTR leaves for each vector marked while the port was not ACTIVE. -/
def State.sendMarks (s : State) (p : Nat) : State :=
  let l := (s.nl p).marks
  l.foldl (fun s v => s.raiseIntr p v) (s.setNl p fun n => { n with marks := [] })

/-- R417: the credits that each side grants as training ends: the adapter's to the node, the node's to the adapter. -/
def firstTx : List Nat := [1024, 1024, 1024]
def firstRx : List Nat := [4096, 1024, 1024]

/-- R413, R416, R417: a port enters ACTIVE; after RETRAIN its sequence numbers, its replay buffer and its credits are kept. -/
def State.nlActivate (s : State) (p : Nat) (fresh : Bool) : State :=
  let now := s.now
  let s := (s.nlEnter p nlActive).agentsBack [s.hostAgent p]
  let s := s.setNl p fun n =>
    { n with attempts := 0, resends := 0, progress := now,
             txSeq := if fresh then 0 else n.txSeq, rxSeq := if fresh then 0 else n.rxSeq, nakFor := none,
             txCred := if fresh then firstTx else n.txCred, rxCred := if fresh then firstRx else n.rxCred }
  (s.setNl p fun n => n.drain).sendMarks p

/-- TRAINING_STATE_END: R413, R429. -/
def execTrainingStateEnd (p : BitVec 1) (reversed : Bool) (polarity : BitVec 4) (s : State) : Host.Outcome State Fault Refusal :=
  gated s fun s =>
    let p := p.toNat
    let st := s.nlState p
    let report (s : State) : State := s.setFs p [(F.NL_PORT_STAT_REVERSED, b2n reversed), (F.NL_PORT_STAT_POLARITY, polarity.toNat)]
    if st = nlDetect then s.nlEnter p nlEqualize
    else if st = nlEqualize then s.nlEnter p nlAlign
    else if st = nlAlign then (report s).nlActivate p true
    else if st = nlRetrain then (report s).nlActivate p false
    else s

/-- R413: the bound of a state in µs. -/
def nlBound (st : Nat) : Nat := if st = nlEqualize then 8000 else if st = nlRetrain then 9000 else 1000

/-- TRAINING_TIMEOUT: R413: a failed attempt; after the third the port is FAILED. -/
def execTrainingTimeout (p : BitVec 1) (s : State) : Host.Outcome State Fault Refusal :=
  gated s fun s =>
    let p := p.toNat
    let st := s.nlState p
    if st = nlDown ∨ st = nlActive ∨ st = nlFailed ∨ !s.due (s.nl p).stateAt (nlBound st) then s
    else
      let s := s.setNl p fun n => { n with attempts := n.attempts + 1 }
      if 3 ≤ (s.nl p).attempts then s.nlFail p
      else s.nlEnter p (if st = nlRetrain then nlRetrain else nlDetect)

/-- ALIGNMENT_BLOCK: R413: a lane's block, with its lane number; in ACTIVE it only reseeds the lane's scrambler. -/
def execAlignmentBlock (p : BitVec 1) (lane : BitVec 2) (number : Byte) (s : State) : Host.Outcome State Fault Refusal :=
  gated s fun s =>
    let st := s.nlState p.toNat
    if st = nlAlign ∨ st = nlRetrain then
      s.setNl p.toNat fun n => { n with aligned := (n.aligned.filter fun x => x.1 != lane.toNat) ++ [(lane.toNat, number.toNat)] }
    else s

/-! Replay (R416) -/

/-- R416: NAK of the SEQ expected, once for each. -/
def State.nlNak (s : State) (p : Nat) : State :=
  s.setNl p fun n => if n.nakFor = some n.rxSeq then n
    else { n with nakFor := some n.rxSeq, flits := n.flits ++ [makeFlit 2 n.rxSeq n.rxSeq []] }

/-- R416: an ACK covers the flits before it. -/
def State.nlAck (s : State) (p a : Nat) : State :=
  match (s.nl p).replay with
  | [] => s
  | (q, _) :: _ =>
    let k := (a + 4096 - q) % 4096
    let now := s.now
    if k = 0 ∨ (s.nl p).replay.length < k then s
    else s.setNl p fun n => { n with replay := n.replay.drop k, resends := 0, progress := now }.drain

/-- R413, R416, R429: a port enters RETRAIN. -/
def State.nlRetrainNow (s : State) (p : Nat) : State :=
  ((s.addF F.NL_PORT_STAT_RETRAINS p 1).setNl p fun n => { n with attempts := 0 }).nlEnter p nlRetrain

/-- R416: the flits from a SEQ on are sent again; after REPLAY_MAX resends without progress the port retrains. -/
def State.nlResend (s : State) (p q : Nat) : State :=
  let again := (s.nl p).replay.dropWhile fun x => x.1 != q
  let now := s.now
  if again = [] then s
  else if max 1 (s.f F.NL_PORT_CFG_REPLAY_MAX p) ≤ (s.nl p).resends then s.nlRetrainNow p
  else (s.addF F.NL_LINK_ERR_REPLAYS p 1).setNl p fun n =>
    { n with resends := n.resends + 1, progress := now, flits := n.flits ++ again.map fun (q, pl) => makeFlit 1 q n.rxSeq pl }

/-- REPLAY_TIMEOUT: R416. -/
def execReplayTimeout (p : BitVec 1) (s : State) : Host.Outcome State Fault Refusal :=
  gated s fun s =>
    let p := p.toNat
    match (s.nl p).replay with
    | [] => s
    | (q, _) :: _ =>
      if s.nlState p = nlActive ∧ s.due (s.nl p).progress (ceilDiv (16 * max 1 (s.f F.NL_PORT_CFG_REPLAY_16NS p)) 1000) then s.nlResend p q else s

/-- R415, R416: a flit: its own TYPE says what it is, whichever row brings it. `take` handles the payload of a DATA flit
that is in order. -/
def State.takeFlit (s : State) (p : Nat) (flit : Bytes) (take : State → Bytes → State) : State :=
  if s.nlState p ≠ nlActive then s
  else
    let bad := s.flt.forceBad.contains (0x110 + p)
    let s := s.setFlt fun x => { x with forceBad := x.forceBad.filter (· != 0x110 + p) }
    let drop (s : State) : State := (s.addF F.NL_LINK_ERR_CRC_FAIL p 1).nlNak p
    match (if bad then none else openFlit flit) with
    | none => drop s
    | some (g, fixed) =>
      let s := if fixed then s.addF F.NL_LINK_ERR_FEC_CORR p 1 else s
      let q := leAt g 2 2 % 4096
      let ty := byteAt g 0
      if 3 ≤ ty then drop s
      else
        let s := s.nlAck p (leAt g 4 2 % 4096)
        let ahead := (q + 4096 - (s.nl p).rxSeq) % 4096
        if ty = 2 then (s.nlAck p q).nlResend p q
        else if ty = 0 then (if ahead ≠ 0 ∧ ahead < 2048 then s.nlNak p else s)
        else if ahead = 0 then
          take (s.setNl p fun n => { n with rxSeq := (n.rxSeq + 1) % 4096, nakFor := none }) (slice g 8 228)
        else if ahead < 2048 then s.nlNak p else s

/-! Credits (R417) -/

/-- The credit class of a packet that arrives: type and NP; none for CPL, CREDIT and unlisted types. -/
def rxClass (type : Nat) (np : Bool) : Option Nat :=
  match type with
  | 1 | 6 => some 1
  | 2 => some (b2n np)
  | 4 => some 2
  | 5 => some 0
  | _ => none

/-- R417: a packet's credit is freed and goes back in a CREDIT packet. -/
def State.nlFree (s : State) (p : Nat) (c : Option Nat) : State :=
  match c with
  | none => s
  | some c => (s.setNl p fun n => { n with rxCred := n.rxCred.modify c (· + 1) }).sendPacket p ⟨7, 0, 0, 2 ^ (16 * c), []⟩

/-- R418: the packet's own form: reserved fields, and a LEN that fits its type. -/
def packetOk (type : Nat) (k : Packet) : Bool :=
  let a := k.arg.toNat
  let n := k.len.toNat
  k.rsvd == 0#3 && k.body.length == n && match type with
    | 1 => n == 0
    | 2 => decide (1 ≤ n ∧ n ≤ 4096) && decide (a < 2 ^ 52)
    | 3 => decide (n ≤ 4200) && decide (a < 256)
    | 4 => decide (a < 2 ^ 52) && allZero k.body 2 6 && (n == 8 || n == 16 || n == 72 || n == 80)
    | 5 => n == 0 && decide (a < 65536)
    | 6 => decide (n ≤ 4200) && a == 0
    | 7 => n == 0 && decide (a < 2 ^ 48)
    | _ => false

/-- R426: the generation that a packet of the node's answers carries. -/
def State.cplGen (s : State) (k : Packet) : Nat := if s.compat then k.gen.toNat else 0

/-- R418: a CPL. -/
def State.sendCpl (s : State) (p : Nat) (k : Packet) (code : Code) (data : Bytes) : State :=
  s.sendPacket p ⟨3, k.tag.toNat, s.cplGen k, code.num, if code = .ok then data else []⟩

/-- True when a packet is answered by a CPL whatever it names (R418, R419). -/
def asksCpl (type : Nat) (k : Packet) : Bool := type == 1 || (type == 2 && k.np)

/-- R417, R418, R426: a packet that arrives: its credit, its form, its generation. `go` is what it does; it gives its credit
back itself when it waits. -/
def State.takePacket (s : State) (p type : Nat) (k : Packet) (go : State → State) : State :=
  if s.nlState p ≠ nlActive then s
  else
    let c := rxClass type k.np
    if (match c with | some c => (s.nl p).rxCred.getD c 0 == 0 | none => false) then s.addF F.NL_TXN_ERR_MALFORMED p 1
    else
      let s := match c with
        | some c => s.setNl p fun n => { n with rxCred := n.rxCred.modify c (· - 1) }
        | none => s
      if !packetOk type k then
        let s := (s.addF F.NL_TXN_ERR_MALFORMED p 1).nlFree p c
        if asksCpl type k then s.sendCpl p k .invalidArg [] else s
      else if s.compat && (type == 1 || type == 2 || type == 6) && genOlder k.gen.toNat (s.f F.NL_PORT_STAT_GEN p) then
        (s.addF F.NL_TXN_ERR_LATE_GEN p 1).nlFree p c
      else go s

/-- R417: credits come back; packets that waited for them leave. -/
def State.takeCredit (s : State) (p : Nat) (k : Packet) : State :=
  let a := k.arg.toNat
  s.setNl p fun n => { n with txCred := (n.txCred.zip [bits a 15 0, bits a 31 16, bits a 47 32]).map fun (x, y) => x + y }.drain

/-- CREDIT: R417. -/
def execCredit (p : BitVec 1) (k : Packet) (s : State) : Host.Outcome State Fault Refusal :=
  gated s fun s => s.takePacket p.toNat 7 k fun s => s.takeCredit p.toNat k

/-- INTR_RECEIVED: R418. -/
def execIntrReceived (p : BitVec 1) (k : Packet) (s : State) : Host.Outcome State Fault Refusal :=
  gated s fun s => s.takePacket p.toNat 5 k fun s => (s.addF F.NL_TXN_ERR_MALFORMED p.toNat 1).nlFree p.toNat (some 0)

/-! Moderation (R427) -/

/-- MODERATION_TIMER: R427: an interval of a vector ends; an event that fell inside it leaves now. -/
def execModerationTimer (p : BitVec 1) (vec : BitVec 16) (s : State) : Host.Outcome State Fault Refusal :=
  gated s fun s =>
    let p := p.toNat
    let v := vec.toNat
    match (s.nl p).quiet.find? fun x => x.1 == v with
    | none => s
    | some (_, t) =>
      if !s.due t (ceilDiv (s.f F.NL_PORT_CFG_MOD_100NS p) 10) then s
      else
        let owed := (s.nl p).owed.contains v
        let s := s.setNl p fun n => { n with quiet := n.quiet.filter fun x => x.1 != v, owed := n.owed.filter (· != v) }
        if owed then s.raiseIntr p v else s

end Sys2Proof.Machine
end

