-- ==== Sys2Proof/Machine/Boot.lean ====
section
/-! DEFINITION. Boot, firmware and identity (R477 to R497): the identity block, the checks of a firmware image, the boot
ROM, recovery and update messages, fuse burns, and the SPDM responder with its I3C and MCTP carriage. -/
namespace Sys2Proof.Machine

/-! Fuses and the NOR -/

/-- R481: the rollback count: consecutive 1 bits from bit 0. -/
def rollbackCount (w : Nat) : Nat := ((List.range 64).takeWhile fun i => w.testBit i).length

/-- R480: the hash of a key slot. -/
def Fuses.keyHash (x : Fuses) (k : Nat) : Bytes := slice (x.keys.getD k []) 0 32

/-- R480: a key slot whose hash is not all zero. -/
def Fuses.present (x : Fuses) (k : Nat) : Bool := !allZero (x.keyHash k) 0 32

/-- R480, R487: a slot that is present and not revoked. -/
def Fuses.usable (x : Fuses) (k : Nat) : Bool := x.present k && !x.revoke.toNat.testBit k

/-- R477: a byte of the NOR; one that nothing has written reads as erased flash. -/
def State.norByte (s : State) (a : Nat) : Byte := SMap.get 0xFF#8 s.sec.nor a

def State.norBytes (s : State) (a n : Nat) : Bytes := (List.range n).map fun k => s.norByte (a + k)

/-- R487: the image area of the NOR erased and programmed with an image. -/
def norProgram (nor : SMap Byte) (img : Bytes) : SMap Byte :=
  let kept := nor.filter fun x => decide (0x1000000 ≤ x.1)
  (((List.range img.length).zip img).filter fun x => x.2 != 0xFF#8) ++ kept

/-! Identity (R478, R479) -/

/-- R479: the four checks on the identity block. -/
def identityOk (b : Bytes) (x : Fuses) : Bool :=
  let chain := slice b 2048 (leAt b 6 2)
  leAt b 65532 4 == crc32c (slice b 0 65532) && Config.chainVerifies chain x.root &&
    Config.unwrapKey (x.wrap ++ slice b 64 1024) == some (Config.leafKey chain) && Config.leafSerial chain == leAt b 8 8

/-- R479, R484 step 2: the identity block is read; every figure taken from it is 0 when a check fails. -/
def State.readIdentity (s : State) : State :=
  let b := s.norBytes 0x1000000 65536
  if s.sec.norOk && identityOk b s.sec.fuses then
    ((s.setF F.SEC_BOOT_STAT_IDENT_OK 0 1).setF F.TOP_SERIAL_SERIAL 0 (leAt b 8 8)).setSec fun x =>
      { x with chainDer := slice b 2048 (leAt b 6 2), pid := BitVec.ofNat 48 (leAt b 16 6) }
  else
    ((s.setF F.SEC_BOOT_STAT_IDENT_OK 0 0).setF F.TOP_SERIAL_SERIAL 0 0).setSec fun x => { x with chainDer := [], pid := 0#48 }

/-! The checks of R483 -/

def fwFormatOk (b : Bytes) : Bool :=
  let n := leAt b 8 4
  let k := leAt b 6 2
  leAt b 0 4 == 0x4D495746 && leAt b 4 2 == 1 && decide (1 ≤ k) && decide (k ≤ 8) && n % 64 == 0 && decide (n ≤ 2 ^ 24) &&
    decide (64 + 16 * k + 832 ≤ n) && decide (byteAt b 12 ≤ 64) && allZero b 13 3 && allZero b 24 40 &&
    (sectsOf b).all (fun x => x.clear && x.count == 0) && allZero b (n - 831) 3 && allZero b (n - 824) 56

def fwSectionsOk (b : Bytes) : Bool :=
  let l := sectsOf b
  let n := leAt b 8 4
  l.all (fun x => decide (1 ≤ x.kind) && decide (x.kind ≤ 4) && x.off % 64 == 0 && decide (64 + 16 * l.length ≤ x.off) &&
      decide (x.off + x.len ≤ n - 832) && crc32c (slice b x.off x.len) == x.crc) &&
    rising (l.map (·.off)) && (l.zip (l.drop 1)).all (fun (x, y) => decide (x.off + x.len ≤ y.off)) &&
    (dedupNat (l.map (·.kind))).length == l.length && l.any (·.kind == 1) && l.any (·.kind == 2)

/-- R482: the KEY_SLOT byte of the signature block. -/
def fwKeySlot (b : Bytes) : Nat := byteAt b (leAt b 8 4 - 832)

def fwKeyOk (b : Bytes) (x : Fuses) : Bool :=
  let o := leAt b 8 4 - 832
  let k := fwKeySlot b
  decide (k ≤ 3) && x.usable k && sha256 (slice b (o + 64) 384 ++ slice b (o + 4) 4) == x.keyHash k

/-- R483: RESULT for the bytes of an image. -/
def fwCheck (b : Bytes) (x : Fuses) : Nat :=
  if !fwFormatOk b then 2
  else if !fwSectionsOk b then 3
  else if !fwKeyOk b x then 4
  else if !imgSignedOk b then 5
  else if byteAt b 12 < rollbackCount x.rollback.toNat then 6
  else 0

/-! The ROM (R484) -/

/-- R494: the states of SEC_BOOT_STAT. -/
def bootRom : Nat := 0
def bootVerify : Nat := 1
def bootRecovery : Nat := 2
def bootFirmware : Nat := 3

def State.bootState (s : State) : Nat := s.f F.SEC_BOOT_STAT_STATE 0

/-- R484, R485: recovery: both Nahel ports train, and the ROM waits. -/
def State.enterRecovery (s : State) (result : Nat) : State :=
  let s := s.setFs 0 [(F.SEC_BOOT_STAT_STATE, bootRecovery), (F.SEC_BOOT_STAT_RESULT, result)]
  let one (s : State) (p : Nat) : State := if s.on F.NL_PORT_CFG_ENABLE p then s else (s.setF F.NL_PORT_CFG_ENABLE p 1).nlTrain p
  one (one s 0) 1

/-- R489: the boot measurements. -/
def State.measureBoot (s : State) (b : Bytes) (source : Nat) : State :=
  let x := s.sec.fuses
  let cfg : Bytes := [x.grade.toNat, x.debugOff.toNat, x.revoke.toNat, rollbackCount x.rollback.toNat, byteAt b 12, source,
    s.f F.SEC_BOOT_STAT_IDENT_OK 0, 0].map (BitVec.ofNat 8)
  let s := s.appendLog 1 1 0 0 ((List.range 32).map Config.romDigestByte)
  let s := s.appendLog 2 1 0 (fwKeySlot b) (sha256 (slice b 0 (leAt b 8 4)))
  s.appendLog 3 1 0 0 (sha256 cfg)

/-- R484 steps 4 to 6: an image is checked; one that passes is measured and runs. -/
def State.bootImage (s : State) (b : Bytes) (source : Nat) : State :=
  let r := fwCheck b s.sec.fuses
  if r ≠ 0 then s.setFs 0 [(F.SEC_BOOT_STAT_STATE, bootRecovery), (F.SEC_BOOT_STAT_RESULT, r)]
  else
    let now := s.now
    let s := s.measureBoot b source
    let s := s.setFs 0 [(F.SEC_BOOT_STAT_STATE, bootFirmware), (F.SEC_BOOT_STAT_RESULT, 0), (F.SEC_BOOT_STAT_SOURCE, source),
      (F.SEC_BOOT_STAT_KEY_SLOT, fwKeySlot b), (F.SEC_BOOT_STAT_SVN, byteAt b 12)]
    let s := s.setF F.SEC_FW_VER_VERSION 0 (leAt b 16 8)
    (s.setSec fun x => { x with svn := byteAt b 12, session := none }).setFlt fun x => { x with kickedAt := now }

/-- R484: the boot ROM, from the end of a chip reset. -/
def State.boot (s : State) : State :=
  let now := s.now
  let s := (s.setFlt fun x => { x with kickedAt := now }).readIdentity
  if s.on F.TOP_STRAP_FORCE_RCV 0 then s.enterRecovery 0
  else if !s.sec.norOk then s.enterRecovery 1
  else
    let head := s.norBytes 0 64
    let b := s.norBytes 0 (min (2 ^ 24) (max 64 (leAt head 8 4)))
    let t := s.bootImage b 0
    if t.bootState = bootFirmware then t else t.enterRecovery (t.f F.SEC_BOOT_STAT_RESULT 0)

/-! Recovery and update messages (R485 to R487) -/

/-- R426: the generation of an answer to a message that is a command of its own. -/
def State.portGen (s : State) (p : Nat) : Nat := if s.compat then s.f F.NL_PORT_STAT_GEN p else 0

/-- R485: the CPL of a message, with its body. -/
def State.mgmtCpl (s : State) (p tag : Nat) (code : Code) (body : Bytes) : State :=
  s.sendPacket p ⟨3, tag, s.portGen p, code.num, body⟩

/-- R486, R487: recovery messages of a port are turned away: another port has the session, or running firmware finds no window
of the port with REG_ALL. -/
def State.rcvDenied (s : State) (p : Nat) : Bool :=
  (match s.sec.session with | some x => x.port != p | none => false) ||
    (s.bootState != bootRecovery &&
      !((List.range 16).any fun w => s.on F.NL_WIN_CFG_VALID (16 * p + w) && s.on F.NL_WIN_CFG_REG_ALL (16 * p + w)))

/-- R485: the bytes received in the session. -/
def State.rcvCount (s : State) : Nat := match s.sec.session with | some x => x.count | none => 0

/-- R485: STATUS. -/
def State.rcvStatus (s : State) (p tag : Nat) : State :=
  if s.nlState p ≠ nlActive then s
  else if s.rcvDenied p then s.mgmtCpl p tag .denied []
  else s.mgmtCpl p tag .ok (leBytes 8 (s.reg .secBootStat 0) ++ leBytes 4 s.rcvCount)

/-- R485, R486: WRITE. -/
def State.rcvWrite (s : State) (p tag off : Nat) (d : Bytes) : State :=
  let n := d.length
  if s.nlState p ≠ nlActive then s
  else if s.rcvDenied p then s.mgmtCpl p tag .denied []
  else if off % 64 ≠ 0 ∨ n % 64 ≠ 0 ∨ n < 64 ∨ 4096 < n ∨ 2 ^ 24 < off + n ∨ (off ≠ 0 ∧ s.sec.session = none) then
    s.mgmtCpl p tag .invalidArg []
  else
    let old : RcvSession := if off = 0 then ⟨p, [], 0⟩ else s.sec.session.getD ⟨p, [], 0⟩
    let img := ((List.range n).zip d).foldl (fun (m : SMap Byte) x => SMap.put 0#8 m (off + x.1) x.2) old.bytes
    let s := (s.setSec fun x => { x with session := some ⟨p, img, old.count + n⟩ }).setF F.SEC_BOOT_STAT_RCV_PORT 0 p
    s.mgmtCpl p tag .ok []

/-- R486: the image of a session: as many bytes as its header states. -/
def RcvSession.image (x : RcvSession) : Bytes :=
  let at_ (k : Nat) : Byte := SMap.get 0#8 x.bytes k
  let n := leNat ((List.range 4).map fun k => at_ (8 + k))
  (List.range (min (2 ^ 24) (max 64 n))).map at_

/-- R485 to R487: RUN. -/
def State.rcvRun (s : State) (p tag : Nat) (persist : Bool) : State :=
  if s.nlState p ≠ nlActive then s
  else if s.rcvDenied p then s.mgmtCpl p tag .denied []
  else
    let b := match s.sec.session with | some x => x.image | none => zeros 64
    let bad (r : Nat) (s : State) : State := s.mgmtCpl p tag .invalidArg [BitVec.ofNat 8 r]
    if s.bootState = bootRecovery then
      let t := s.bootImage b 1
      if t.bootState = bootFirmware then t.mgmtCpl p tag .ok [] else bad (t.f F.SEC_BOOT_STAT_RESULT 0) t
    else if !persist then s.mgmtCpl p tag .invalidArg []
    else
      let r := fwCheck b s.sec.fuses
      if r ≠ 0 then bad r s
      else (s.setSec fun x => { x with nor := norProgram x.nor (slice b 0 (leAt b 8 4)), session := none }).mgmtCpl p tag .ok []

/-- STATUS: R485. -/
def execStatus (p : BitVec 1) (tag : BitVec 16) (s : State) : Host.Outcome State Fault Refusal :=
  gated s fun s => s.rcvStatus p.toNat tag.toNat

/-- RECOVERY_WRITE: R485, R486. -/
def execRecoveryWrite (p : BitVec 1) (tag : BitVec 16) (offset : BitVec 32) (bytes : Bytes) (s : State) :
    Host.Outcome State Fault Refusal :=
  gated s fun s => s.rcvWrite p.toNat tag.toNat offset.toNat bytes

/-- RUN: R485 to R487. -/
def execRun (p : BitVec 1) (tag : BitVec 16) (persist : Bool) (s : State) : Host.Outcome State Fault Refusal :=
  gated s fun s => s.rcvRun p.toNat tag.toNat persist

/-! Fuse burns (R487, R496) -/

/-- R487, R496: GO of SEC_FUSE_PROG written as 1: the fields are written already. -/
def State.fuseGo (s : State) (src : Src) : State :=
  if s.sec.burn ≠ [] ∨ s.sec.burnRev ≠ 0 then s.writeErr .action src .secFuseProg 0
  else
    let x := s.sec.fuses
    let count := rollbackCount x.rollback.toNat
    let target := s.f F.SEC_FUSE_PROG_TARGET 0
    let adv := s.on F.SEC_FUSE_PROG_ADV 0
    let rev := s.f F.SEC_FUSE_PROG_REVOKE 0
    let left := (List.range 4).any fun k => x.usable k && !rev.testBit k
    if (adv ∧ (target ≤ count ∨ s.sec.svn < target ∨ 64 < target)) ∨ (rev ≠ 0 ∧ !left) then
      (s.setFs 0 [(F.SEC_FUSE_PROG_RESULT, Code.invalidArg.num), (F.SEC_FUSE_PROG_GO, 0)]).event F.TOP_INT_STAT_FUSE
    else
      let burn := if adv then (List.range (target - count)).map (count + ·) else []
      if burn = [] ∧ rev = 0 then
        (s.setFs 0 [(F.SEC_FUSE_PROG_RESULT, 0), (F.SEC_FUSE_PROG_GO, 0)]).event F.TOP_INT_STAT_FUSE
      else (s.setF F.SEC_FUSE_PROG_GO 0 1).setSec fun y => { y with burn := burn, burnRev := rev }

/-- R487: ROLLBACK with bits burned. -/
def burnBits (w : Nat) (l : List Nat) : Nat := l.foldl (fun a i => a ||| 2 ^ i) w

/-- FUSE_BURN_END: R487, R496. -/
def execFuseBurnEnd (s : State) : Host.Outcome State Fault Refusal :=
  gated s fun s =>
    if s.sec.burn = [] ∧ s.sec.burnRev = 0 then s
    else
      let s := s.setSec fun y =>
        { y with burn := [], burnRev := 0,
                 fuses := { y.fuses with rollback := BitVec.ofNat 64 (burnBits y.fuses.rollback.toNat y.burn),
                                         revoke := y.fuses.revoke ||| BitVec.ofNat 4 y.burnRev } }
      (s.setFs 0 [(F.SEC_FUSE_PROG_RESULT, 0), (F.SEC_FUSE_PROG_GO, 0)]).event F.TOP_INT_STAT_FUSE

/-! Registers that show the fuses and the log (R495, R497) -/

/-- R495: SEC_FUSE_CFG. -/
def State.fuseCfg (s : State) : Nat :=
  let x := s.sec.fuses
  x.grade.toNat + 2 * x.debugOff.toNat + 4 * x.revoke.toNat + 64 * ((List.range 4).foldl (fun a k => a + b2n (x.present k) * 2 ^ k) 0) +
    1024 * rollbackCount x.rollback.toNat

/-- R495: SEC_FUSE_HASH. -/
def State.fuseHash (s : State) (i : Nat) : Nat :=
  leAt (if i / 4 < 4 then s.sec.fuses.keyHash (i / 4) else slice s.sec.fuses.root 0 32) (8 * (i % 4)) 8

/-- R497: SEC_LOG_DATA: the selected record, zeros when it is no longer held. -/
def State.logData (s : State) (j : Nat) : Nat :=
  let q := s.f F.SEC_LOG_SEL_SEQ 0
  let old := s.f F.SEC_LOG_STAT_OLDEST 0
  if q < old then 0 else leAt (s.sec.log.getD (q - old) []) (8 * j) 8

/-! SPDM (R490 to R492) -/

/-- R490: the key of a transport's connection state: both Nahel ports share one. -/
def transportKey : Transport → Nat
  | .nahel _ => 0
  | .i3c => 1

/-- The bytes of an answer that the SPDM or MCTP standard fixes (log entry 18). -/
def spdmStd (code : Nat) (body : Bytes) : Bytes := (List.range (Config.spdmLen code body)).map fun k => Config.spdmByte code body k

/-- R491: an SPDM ERROR of a code. -/
def spdmError (e : Nat) : Bytes := [Config.spdmByte 0x7F [] 0, 0x7F#8, BitVec.ofNat 8 e, 0#8]

def spdmInvalid : Nat := 0x01
def spdmUnexpected : Nat := 0x04
def spdmUnspecified : Nat := 0x05
def spdmUnsupported : Nat := 0x07

/-- R492, R493: an SPDM answer leaves on its transport: after the CPL of its request in a MGMT packet, or in MCTP packets of
at most 64 bytes. -/
def State.spdmSend (s : State) (t : Transport) (tag : Nat) (d : Bytes) : State :=
  match t with
  | .nahel q =>
    let p := q.toNat
    (s.mgmtCpl p tag .ok []).sendPacket p ⟨6, tag, s.portGen p, 0, 1#8 :: zeros 7 ++ d⟩
  | .i3c => s.setSec fun x => { x with i3cOut := x.i3cOut ++ pieces 64 d }

/-- R479, R490, R491: an SPDM request: the transport carries it, IDENT_OK is 1 or the request needs none, and the connection
has come far enough. `least` is the state that the request needs, `after` the one it leaves. -/
def State.spdmTake (s : State) (t : Transport) (tag : Nat) (needId : Bool) (least : Nat) (after : Nat → Nat) (answer : Bytes) : State :=
  let up := match t with
    | .nahel q => s.nlState q.toNat == nlActive
    | .i3c => s.sec.i3cAddr != 0#7
  if !up then s
  else
    let st := SMap.get 0 s.sec.spdm (transportKey t)
    if needId && !s.on F.SEC_BOOT_STAT_IDENT_OK 0 then s.spdmSend t tag (spdmError spdmUnspecified)
    else if st < least then s.spdmSend t tag (spdmError spdmUnexpected)
    else (s.setSec fun x => { x with spdm := SMap.put 0 x.spdm (transportKey t) (after st) }).spdmSend t tag answer

/-- R491: a request outside the list. -/
def State.spdmOther (s : State) (t : Transport) (tag : Nat) : State :=
  s.spdmTake t tag true 0 id (spdmError spdmUnsupported)

def State.spdmVersion (s : State) (t : Transport) (tag : Nat) (body : Bytes) : State :=
  s.spdmTake t tag false 0 (fun _ => 1) (spdmStd 0x84 body)

def State.spdmCapabilities (s : State) (t : Transport) (tag : Nat) (body : Bytes) : State :=
  s.spdmTake t tag false 1 (fun _ => 2) (spdmStd 0xE1 body)

def State.spdmAlgorithms (s : State) (t : Transport) (tag : Nat) (body : Bytes) : State :=
  s.spdmTake t tag false 2 (fun _ => 3) (spdmStd 0xE3 body)

def State.spdmDigests (s : State) (t : Transport) (tag : Nat) (body : Bytes) : State :=
  s.spdmTake t tag true 3 id (spdmStd 0x81 body ++ sha256 s.sec.chainDer)

/-- R491: a portion of the chain, of at most 1,024 bytes. -/
def State.spdmCertificate (s : State) (t : Transport) (tag slot off len : Nat) : State :=
  let c := s.sec.chainDer
  let part := (c.drop off).take (min len 1024)
  s.spdmTake t tag true 3 id
    (if slot ≠ 0 ∨ c.length ≤ off then spdmError spdmInvalid
     else spdmStd 0x82 (leBytes 1 slot ++ leBytes 2 off ++ leBytes 2 len) ++ leBytes 2 part.length ++
       leBytes 2 (c.length - off - part.length) ++ part)

def State.spdmChallenge (s : State) (t : Transport) (tag : Nat) (body : Bytes) : State :=
  let head := spdmStd 0x83 body ++ sha256 s.sec.chainDer
  s.spdmTake t tag true 3 id
    (if byteAt body 2 ≠ 0 then spdmError spdmInvalid else head ++ Config.deviceSign (body ++ head))

/-- R492: the newest record of each measurement index, in index order, and the chain: index and value. -/
def State.measurements (s : State) : List (Nat × Bytes) :=
  let newest := (List.range 256).filterMap fun i =>
    (s.sec.log.reverse.find? fun r => byteAt r 0 == i).map fun r => (i, slice r 32 32)
  if s.sec.log = [] then [] else newest ++ [(0xF0, slice s.sec.chain 0 32 ++ leBytes 4 (s.sec.logSeq - 1))]

/-- R492: a DMTF measurement block: its header as the standard has it, then the value. -/
def measBlock (x : Nat × Bytes) : Bytes := spdmStd 0x60 (leBytes 1 x.1 ++ leBytes 2 x.2.length) ++ x.2

/-- R492: GET_MEASUREMENTS: index 0 asks for the number of blocks, 0xFF for all, another for one; bit [0] of the request's
third byte asks for a signature. -/
def State.spdmMeasurements (s : State) (t : Transport) (tag index : Nat) (body : Bytes) : State :=
  let all := s.measurements
  let some_ := if index = 0 then [] else if index = 0xFF then all else all.filter fun x => x.1 == index
  let head := spdmStd 0xE0 (leBytes 1 index ++ leBytes 1 (if index = 0 then all.length else some_.length) ++ body) ++ some_.flatMap measBlock
  s.spdmTake t tag true 3 id
    (if index = 0xFD ∨ index = 0xFE then spdmError spdmUnsupported
     else if index ≠ 0 ∧ index ≠ 0xFF ∧ some_ = [] then spdmError spdmInvalid
     else if (byteAt body 2).testBit 0 then head ++ Config.deviceSign (body ++ head) else head)

/-- R490: an SPDM message, read by its request code. -/
def State.spdmMessage (s : State) (t : Transport) (tag : Nat) (m : Bytes) : State :=
  match byteAt m 1 with
  | 0x84 => s.spdmVersion t tag m
  | 0xE1 => s.spdmCapabilities t tag m
  | 0xE3 => s.spdmAlgorithms t tag m
  | 0x81 => s.spdmDigests t tag m
  | 0x82 => s.spdmCertificate t tag (byteAt m 2 % 16) (leAt m 4 2) (leAt m 6 2)
  | 0x83 => s.spdmChallenge t tag m
  | 0xE0 => s.spdmMeasurements t tag (byteAt m 3) m
  | _ => s.spdmOther t tag

/-- GET_VERSION: R491. -/
def execGetVersion (t : Transport) (tag : BitVec 16) (body : Bytes) (s : State) : Host.Outcome State Fault Refusal :=
  gated s fun s => s.spdmVersion t tag.toNat body

/-- GET_CAPABILITIES: R491. -/
def execGetCapabilities (t : Transport) (tag : BitVec 16) (body : Bytes) (s : State) : Host.Outcome State Fault Refusal :=
  gated s fun s => s.spdmCapabilities t tag.toNat body

/-- NEGOTIATE_ALGORITHMS: R491. -/
def execNegotiateAlgorithms (t : Transport) (tag : BitVec 16) (body : Bytes) (s : State) : Host.Outcome State Fault Refusal :=
  gated s fun s => s.spdmAlgorithms t tag.toNat body

/-- GET_DIGESTS: R491. -/
def execGetDigests (t : Transport) (tag : BitVec 16) (body : Bytes) (s : State) : Host.Outcome State Fault Refusal :=
  gated s fun s => s.spdmDigests t tag.toNat body

/-- GET_CERTIFICATE: R491. -/
def execGetCertificate (t : Transport) (tag : BitVec 16) (slot : BitVec 4) (offset len : BitVec 16) (s : State) :
    Host.Outcome State Fault Refusal :=
  gated s fun s => s.spdmCertificate t tag.toNat slot.toNat offset.toNat len.toNat

/-- CHALLENGE: R491. -/
def execChallenge (t : Transport) (tag : BitVec 16) (body : Bytes) (s : State) : Host.Outcome State Fault Refusal :=
  gated s fun s => s.spdmChallenge t tag.toNat body

/-- GET_MEASUREMENTS: R492. -/
def execGetMeasurements (t : Transport) (tag : BitVec 16) (index : Byte) (body : Bytes) (s : State) :
    Host.Outcome State Fault Refusal :=
  gated s fun s => s.spdmMeasurements t tag.toNat index.toNat body

/-! I3C and MCTP (R493) -/

/-- R493: an MCTP control answer: the standard's bytes, then the node's own. -/
def State.mctpAnswer (s : State) (code : Nat) (asked own : Bytes) : State :=
  if s.sec.i3cAddr = 0#7 then s
  else s.setSec fun x => { x with i3cOut := x.i3cOut ++ pieces 64 (spdmStd code asked ++ own) }

/-- ENTDAA: R493: the node takes the address that the controller assigns to its PID. -/
def execEntdaa (addr : BitVec 7) (s : State) : Host.Outcome State Fault Refusal :=
  gated s fun s => s.setSec fun x => { x with i3cAddr := addr }

/-- SET_ENDPOINT_ID: R493. -/
def execSetEndpointId (eid : Byte) (s : State) : Host.Outcome State Fault Refusal :=
  gated s fun s =>
    if s.sec.i3cAddr = 0#7 then s
    else (s.setSec fun x => { x with eid := eid }).mctpAnswer 0x01 [eid] [eid]

/-- GET_ENDPOINT_ID: R493. -/
def execGetEndpointId (s : State) : Host.Outcome State Fault Refusal :=
  gated s fun s => s.mctpAnswer 0x02 [] [s.sec.eid]

/-- GET_MCTP_VERSION_SUPPORT: R493. -/
def execGetMctpVersionSupport (mtype : Byte) (s : State) : Host.Outcome State Fault Refusal :=
  gated s fun s => s.mctpAnswer 0x04 [mtype] []

/-- GET_MESSAGE_TYPE_SUPPORT: R493: SPDM alone. -/
def execGetMessageTypeSupport (s : State) : Host.Outcome State Fault Refusal :=
  gated s fun s => s.mctpAnswer 0x05 [] [0x05#8]

end Sys2Proof.Machine
end

