-- ==== Sys2Proof/Machine/Resets.lean ====
section
/-! DEFINITION. The reset ladder (R433 to R449): deciding a reset and escalating it, fences and drains, what each reset
clears, chip resets, watchdogs, self-tests, stack retraining and fault injection. -/
namespace Sys2Proof.Machine

/-! Domains -/

/-- R434: UNIT of a domain. -/
def domUnit : Domain → Nat
  | .engine t => t.toNat
  | .part n => n.toNat
  | .chip => 0

/-- The level of the ladder, and ACTION of R461: 2 engine, 3 partition, 4 chip. -/
def domLevel : Domain → Nat
  | .engine _ => 2
  | .part _ => 3
  | .chip => 4

/-- The partitions that own press units of a stack. -/
def State.stackOwners (s : State) (st : Nat) : List Nat :=
  dedupNat ((List.range 64).filterMap fun k => s.pressHolder (64 * st + k))

/-- R446: one domain covers another. -/
def State.covers (s : State) : Domain → Domain → Bool
  | .chip, _ => true
  | .part n, .part m => n == m
  | .part n, .engine e =>
    if e.toNat < 64 then s.tileHolder e.toNat == some n.toNat else s.stackOwners (e.toNat - 64) == [n.toNat]
  | .engine e, .engine f => e == f
  | _, _ => false

/-- R437, R440: the domains of the next level up; none above the chip. -/
def State.nextLevel (s : State) : Domain → List Domain
  | .engine e =>
    let owners := if e.toNat < 64 then (s.tileHolder e.toNat).toList else s.stackOwners (e.toNat - 64)
    if owners = [] then [.chip] else owners.map fun n => .part (BitVec.ofNat 3 n)
  | .part _ => [.chip]
  | .chip => []

/-! Requests on an engine -/

/-- The personality that a tile runs, when requests sit on it: the first tile of its personality carries them. -/
def State.tileWork (s : State) (t : Nat) : Option (Nat × Nat) :=
  match s.tileHolder t with
  | none => none
  | some n => match (s.part n).img with
    | none => none
    | some g => match g.tiles.find? fun x => x.tile == t with
      | some x => if s.tileOf n x.pers = t then some (n, x.pers) else none
      | none => none

/-- The requests that sit on a tile: contexts' requests, and jobs of peers. -/
def State.tileReqs (s : State) (n pers : Nat) : List (Nat × Nat) :=
  s.ctxIds.flatMap fun c =>
    ((s.openReqs c).filter fun r => !s.keeps r && s.reqPart c r == n && (s.reqPers r).contains pers).map fun r => (c, r.slot)

def State.tileJobs (s : State) (n pers : Nat) : List Nat :=
  (s.peerJobs n).filter fun id => match s.job id with | some j => j.phase.pers.contains pers | none => false

/-- R441: a domain still holds a request, a window or a run. -/
def State.domHolds (s : State) : Domain → Bool
  | .engine e =>
    if e.toNat < 64 then
      match s.tileWork e.toNat with
      | some (n, p) => s.tileReqs n p != [] || s.tileJobs n p != [] || (p == persUpdate && s.ckptHolds n)
      | none => false
    else s.press.any fun (u, p) => u / 64 == e.toNat - 64 && (p.win.isSome || p.queue != [])
  | .part n => s.partHolds n.toNat
  | .chip => s.jobs != [] || s.ctxIds.any fun c => s.openReqs c != []

/-! What a reset clears -/

/-- R112, R444: a window that a reset ends: a WRITE is issued again; a RACK linked its destination or the destination is free
again. -/
def State.cutWindow (s : State) (u : Nat) : State :=
  match (s.pu u).win with
  | none => s
  | some w =>
    let s := (s.clearReg .pressWinLen u).setPu u fun p => { p with win := none }
    let (s, n) := s.draw
    let s := s.addF F.PRESS_WIN_STAT_WIN_CYCLES u (Config.pressElapsed n w.len % (w.len + 1))
    let (s, k) := s.draw
    if pcOp w.job.cmd = opWrite then
      (s.putCells (w.undo.drop (Config.windowCut k % (w.undo.length + 1)))).setPu u fun p => { p with queue := w.job :: p.queue }
    else if pcOp w.job.cmd = opRack then
      if Config.rackCutLinked k then s
      else (s.putCells (w.undo.drop (Config.windowCut k % w.undo.length))).setFree u (leAt w.job.cmd 36 4) true
    else s

/-- R437, R442: the requests with a command on a press unit, other than WRITEs and RACKs, end with RESET. -/
def State.endUnitReqs (s : State) (u : Nat) : State :=
  let p := s.pu u
  (((p.win.map (·.job)).toList ++ p.queue).filter fun j => pressClass j == 1).foldl (fun s j => s.endPressReq j .reset) s

/-- R444: a press unit reset: queue, LUT slots, shortlists and passes are gone, its WRITEs wait. -/
def State.resetUnit (s : State) (u : Nat) : State :=
  ((s.endUnitReqs u).cutWindow u).setPu u fun p =>
    { p with queue := p.queue.filter fun j => pcOp j.cmd == opWrite, slots := [], sram := [], passes := [] }

/-- R444: a tile reset: the operations on it end. -/
def State.resetTile (s : State) (t : Nat) : State :=
  let s : State := { s with pressOut := s.pressOut.filter fun o => o.tile != t }
  match s.tileWork t with
  | none => s
  | some (n, p) =>
    let jobs := s.tileJobs n p
    let s := (s.tileReqs n p).foldl (fun s (c, q) => s.endReq c q .reset) s
    let s := jobs.foldl (fun s id => s.failJob id .fenced) s
    let s : State := if p = persGather then { s with prefetch := s.prefetch.filter fun x => s.partOf x.ctx != n } else s
    if p = persUpdate then s.failCkpt n .reset else s

/-- R333, R438: a partition reset: its requests end, its units are reset, a load in VERIFY is abandoned, DRAIN ends. -/
def State.resetPart (s : State) (n : Nat) : State :=
  let s := s.clearPart n .reset .fenced
  let s := ((s.press.map (·.1)).filter fun u => s.pressHolder u == some n).foldl State.resetUnit s
  let s : State :=
    { s with pressOut := s.pressOut.filter fun o => s.tileHolder o.tile != some n
             prefetch := s.prefetch.filter fun x => s.partOf x.ctx != n }
  if s.trlState n = trlVerify then s.failLoad n 0x0F
  else if s.trlState n = trlDrain then (match (s.part n).run with | some r => s.leaveDrain n r | none => s)
  else s

/-- R256, R540: the page programs that a reset cut short: each page is readable or it is not. -/
def State.cutPrograms (s : State) : State :=
  s.cellar.luns.foldl (fun s (_, l) => match l.op with
    | .program o =>
      let (s, n) := s.draw
      if Config.cutProgram n then
        s.setCel fun x => { x with flash := o.frames.foldl (fun m (k, f, _) =>
          SMap.ins m (placeOf o.ch o.tg o.lun o.plane o.block o.page k) f) x.flash }
      else s
    | _ => s) s

/-- R487: a burn that a reset cut short: each bit is burned or not. -/
def State.cutBurns (s : State) : State :=
  if s.sec.burn = [] ∧ s.sec.burnRev = 0 then s
  else
    let (s, n) := s.draw
    s.setSec fun y =>
      let rev := (onesBelow 4 y.burnRev).filter fun k => Config.cutBurn n (64 + k)
      { y with burn := [], burnRev := 0,
               fuses := { y.fuses with rollback := BitVec.ofNat 64 (burnBits y.fuses.rollback.toNat (y.burn.filter (Config.cutBurn n))),
                                       revoke := y.fuses.revoke ||| BitVec.ofNat 4 (burnBits 0 rev) } }

/-- R437, R461, R504, R511, R530: the registers of the always-on domain. -/
def alwaysOn (a : Nat) : Bool :=
  match Reg.find a with
  | some (r, _) => r == .fltLog || r == .fltStat || r == .clkTime || r == .pwrThermStat || r == .topPersist
  | none => false

/-- R437, R439: a chip reset clears everything but the always-on domain, the fuses and what the flash holds. -/
def State.chipClear (s : State) : State :=
  let s := s.cutPrograms.cutBurns
  let now := s.now
  let cel : CellarSt :=
    { (default : CellarSt) with
      flash := s.cellar.flash, blocks := s.cellar.blocks, nextSb := s.cellar.nextSb,
      frameSeq := s.cellar.frameSeq, supers := s.cellar.supers.map fun b => { b with closed := true, leaving := false, wear := false, parity := false } }
  let t : State :=
    { State.reset with
      pending := s.pending, regs := s.regs.filter fun (a, _) => alwaysOn a, cellar := cel, pins := s.pins, free := s.free,
      slowAt := now, pool := { State.reset.pool with halvedAt := now },
      flt := { (default : FltSt) with resets := s.flt.resets, history := s.flt.history, kickedAt := now },
      sec := { (default : SecSt) with fuses := s.sec.fuses, nor := s.sec.nor, norOk := s.sec.norOk } }
  t.setF F.TOP_STRAP_FORCE_RCV 0 s.pins.strap.toNat

/-! Running a reset -/

/-- R461, R459: a reset is over. -/
def State.endRun (s : State) (r : ResetRun) : State :=
  let s := (s.logDone r.record).setFlt fun x => { x with resets := x.resets.filter fun y => y.dom != r.dom }
  let left := s.flt.resets
  let s := if left.any fun y => domLevel y.dom == 2 then s else s.setF F.FLT_RESET_ENGINE 0 0
  let s := if left.any fun y => domLevel y.dom == 3 then s else s.setF F.FLT_RESET_PART 0 0
  if left.any fun y => domLevel y.dom == 4 then s else s.setF F.FLT_RESET_CHIP 0 0

/-- R441 step 3: the units of a domain are reset; after a chip reset the ROM boots (R484). -/
def State.runReset (s : State) (d : Domain) : State :=
  let mark (s : State) (reload : Bool) : State := s.setFlt fun x =>
    { x with resets := x.resets.map fun r => if r.dom == d then { r with draining := false, reload := reload } else r }
  match d with
  | .engine e =>
    let s := if e.toNat < 64 then s.resetTile e.toNat
      else ((s.press.map (·.1)).filter fun u => u / 64 == e.toNat - 64).foldl State.resetUnit s
    mark s false
  | .part n =>
    let s := s.resetPart n.toNat
    mark s (s.trlState n.toNat == trlRunning)
  | .chip => mark s.chipClear.boot false

/-- What a reset is decided for: CLASS, CAUSE, whether it is injected, and UNIT of a chip reset. -/
structure Why where
  cls  : Nat
  cause : Nat
  injected : Bool
  unit : Nat
deriving DecidableEq, Repr, Inhabited

/-- R433, R461: LEVEL of a record: where the class is contained; an escalated one, one level above its cause; a reset through
FLT_RESET or the pin, the level of its domain. -/
def clsLevel (cls : Nat) : Nat := if cls ≤ 1 then 0 else if cls ≤ 8 then 1 else if cls ≤ 11 then 2 else 3

def Why.level (w : Why) (action : Nat) : Nat :=
  if w.cls = 0 then min 3 (action - 1) else if w.cls = 0x10 then min 3 (clsLevel w.cause + 1) else clsLevel w.cls

/-- R440, R547: a power cycle is requested. -/
def State.powerCycle (s : State) (w : Why) : State :=
  (s.logFault w.cls (w.level 5) 5 w.unit w.cause w.injected).1.setPins fun p => { p with pcycLow := true }

/-- R440: the window in which repeats count. -/
def State.escWindow (s : State) : Nat := 1000 * s.f F.FLT_CFG_ESC_WINDOW_MS 0

/-- R440: a reset of a level and unit is to escalate. -/
def State.repeats (s : State) (level unit : Nat) : Bool :=
  decide (max 1 (s.f F.FLT_CFG_ESC_COUNT 0) ≤
    (s.flt.history.filter fun h => h.1 == level && h.2.1 == unit && decide (s.now ≤ h.2.2 + s.escWindow)).length)

/-- R440: a reset that counts. -/
def State.noteReset (s : State) (level unit : Nat) : State :=
  let now := s.now
  let w := s.escWindow
  s.setFlt fun x => { x with history := (x.history.filter fun h => decide (now ≤ h.2.2 + w)) ++ [(level, unit, now)] }

/-- R441, R446: a reset starts: the resets inside its domain end, its record is written, its fence stands. In compatibility
mode nothing drains (R443). -/
def State.startReset (s : State) (d : Domain) (w : Why) : State :=
  let inner := s.flt.resets.filter fun r => s.covers d r.dom
  let s := inner.foldl State.endRun s
  let a := domLevel d
  let (s, n) := s.logFault w.cls (w.level a) a (if d = .chip then w.unit else domUnit d) w.cause w.injected
  let s := s.addF (match d with | .engine _ => F.FLT_STAT_ENGINE_RESETS | .part _ => F.FLT_STAT_PART_RESETS | .chip => F.FLT_STAT_CHIP_RESETS) 0 1
  let s := if w.injected then s else s.noteReset a (domUnit d)
  let now := s.now
  let s := s.setFlt fun x => { x with resets := x.resets ++ [⟨d, true, now, n, false⟩] }
  if s.compat then s.runReset d else s

/-- R440, R446: a reset is decided: covered by a running one it is recorded there; a repeated one escalates. -/
def State.decideReset : Nat → State → Domain → Why → State
  | 0, s, _, _ => s
  | fuel + 1, s, d, w =>
    match s.flt.resets.find? fun r => s.covers r.dom d with
    | some r => if w.cls = 0 then s else s.logCause r.record w.cls
    | none =>
      if !w.injected && s.repeats (domLevel d) (domUnit d) then
        let up : Why := ⟨0x10, if w.cls = 0x10 then w.cause else w.cls, false, 0⟩
        if d = .chip then s.powerCycle up else (s.nextLevel d).foldl (fun s e => State.decideReset fuel s e up) s
      else s.startReset d w

/-- A reset is decided for a class. -/
def State.raise (s : State) (d : Domain) (cls : Nat) (injected : Bool) (unit : Nat) : State :=
  State.decideReset 4 s d ⟨cls, 0, injected, unit⟩

/-- R440: a reset escalates because it passed its bound. -/
def State.escalate (s : State) (d : Domain) (cause : Nat) : State :=
  let up : Why := ⟨0x10, cause, false, 0⟩
  if d = .chip then s.powerCycle up else (s.nextLevel d).foldl (fun s e => State.decideReset 4 s e up) s

/-! FLT_RESET (R459) -/

/-- An engine that FLT_RESET.TARGET can name: tiles 0 to 63 and the press blocks of ST0 to ST7. -/
def targetOk (t : Nat) : Bool := decide (t < 72)

/-- R459: a self-test of every unit may start. -/
def State.mayTest (s : State) : Bool := (List.range 8).all fun n => s.trlState n == trlEmpty

/-- R445, R459: bits of FLT_RESET written as 1; TARGET and PARTITION are written already. -/
def State.fltReset (s : State) (src : Src) (v : Nat) : State :=
  let any := bits v 3 0 != 0
  let s := if !bit v 4 then s
    else if any ∨ !s.mayTest then s.writeErr .action src .fltReset 0
    else (s.setF F.FLT_RESET_SELFTEST 0 1).setFlt fun x => { x with selftest := true }
  let go (s : State) (x : Fld) (d : Domain) : State :=
    let t := s.raise d 0 false 0
    if t.flt.resets.any fun r => domLevel r.dom == domLevel d then t.setF x 0 1 else t
  if bit v 3 then s.powerCycle ⟨0, 0, false, 0⟩
  else if bit v 2 then go s F.FLT_RESET_CHIP .chip
  else if bit v 1 then go s F.FLT_RESET_PART (.part (BitVec.ofNat 3 (s.f F.FLT_RESET_PARTITION 0)))
  else if bit v 0 then
    (if targetOk (s.f F.FLT_RESET_TARGET 0) then go s F.FLT_RESET_ENGINE (.engine (BitVec.ofNat 7 (s.f F.FLT_RESET_TARGET 0))) else s)
  else s

/-! Drains, ends and bounds -/

/-- FENCE_DRAIN_END: R441. -/
def State.fenceDrainEnd (s : State) (d : Domain) : State :=
  match s.flt.resets.find? fun r => r.dom == d with
  | none => s
  | some r =>
    if !r.draining ∨ (s.domHolds d ∧ !s.due r.started (s.f F.FLT_CFG_FENCE_DRAIN_US 0)) then s else s.runReset d

/-- A unit of a partition that is taken out (R445). -/
def State.partOut (s : State) (n : Nat) : Bool :=
  (List.range 64).any (fun t => s.tileHolder t == some n && s.tileOut t) ||
    (List.range 512).any fun u => s.pressHolder u == some n && s.pressOutBit u

/-- UNFENCE: R333, R441, R445: the domain takes requests again; a chip, once firmware runs. -/
def State.unfence (s : State) (d : Domain) : State :=
  match s.flt.resets.find? fun r => r.dom == d with
  | none => s
  | some r =>
    if r.draining then s
    else match d with
      | .engine _ => s.endRun r
      | .part n =>
        let s := if s.partOut n.toNat then s.emptyPart n.toNat
          else if r.reload then s.reloadPart n.toNat else s
        ((s.endRun r).answerResets).retake n.toNat
      | .chip => if s.bootState = bootFirmware then s.endRun r else s

/-- R437: the bound of a reset in µs. -/
def resetBound : Domain → Nat
  | .engine _ => 10000
  | .part _ => 500000
  | .chip => 10000000

/-- RESET_BOUND_PASSED: R440. The ROM may wait in recovery without limit (R486). -/
def execResetBoundPassed (d : Domain) (s : State) : Host.Outcome State Fault Refusal :=
  gated s fun s =>
    match s.flt.resets.find? fun r => r.dom == d with
    | none => s
    | some r =>
      if !s.due r.started (resetBound d) ∨ (d = .chip ∧ s.bootState = bootRecovery) then s
      else
        let cls := s.f F.FLT_LOG_CLASS (2 * r.record)
        let cause := if cls = 0x10 then s.f F.FLT_LOG_CAUSE (2 * r.record) else cls
        let s := s.setFlt fun x => { x with resets := x.resets.filter fun y => y.dom != d }
        s.escalate d cause

/-! Engine and partition resets that no register starts -/

/-- R111, R112: the status word of a WRITE or RACK cut off after n codewords: TRUNCATED, not LINKED, and what was done. -/
def cutStatus (w : Win) (n : Nat) : Bytes :=
  let flags := byteAt w.status 5
  let done := if pcOp w.job.cmd = opWrite then n else n * leAt w.status 6 2 / (w.undo.length + 1)
  putAt (putAt w.status 5 [BitVec.ofNat 8 (setBit (setBit flags 0 true) 4 false)]) 6 (leBytes 2 done)

/-- R111: a window that had not finished at cycle LEN: the access is cut off after some of the operation (how much is a free value),
the status word says so, and it leaves no records. -/
def State.truncate (s : State) (u : Nat) : State :=
  match (s.pu u).win with
  | none => s
  | some w =>
    let (s, k) := s.draw
    let s :=
      if pcOp w.job.cmd = opWrite ∨ pcOp w.job.cmd = opRack then
        let n := Config.windowCut k % w.undo.length
        (s.putCells (w.undo.drop n)).setPu u fun p => { p with win := some { w with status := cutStatus w n, records := [] } }
      else
        let (word, zs) := w.cuts.getD (Config.windowCut k % w.cuts.length) (w.status, [])
        s.setPu u fun p => { p.putSlots zs with win := some { w with status := word, records := [] } }
    (s.endWindow u).addF F.PRESS_WIN_STAT_TRUNC u 1

/-- R433: TRUNC: a window of a stack ended unfinished. -/
def State.trunc (s : State) (st : Nat) : State :=
  match (s.press.filter fun (u, p) => u / 64 == st && p.win.isSome).map (·.1) with
  | [] => s
  | us =>
    let (s, n) := s.draw
    (s.truncate (us.getD (Config.arbiterPick n us.length % us.length) 0)).raise (.engine (BitVec.ofNat 7 (64 + st))) 7 false 0

/-- R445: a tile or press unit is taken out. -/
def State.takeOut (s : State) (press : Bool) (i : Nat) : State :=
  if press then s.setReg .fltOutPress (i / 64) (setBit (s.reg .fltOutPress (i / 64)) (i % 64) true)
  else s.setReg .fltOutTile 0 (setBit (s.reg .fltOutTile 0) i true)

/-- R445: the unit of a partition that fails the self-test of its engine's reset. -/
def State.failedUnit (s : State) (n : Nat) : Option (Bool × Nat) :=
  s.flt.resets.findSome? fun r => match r.dom with
    | .engine e =>
      if r.draining then none
      else if e.toNat < 64 then (if s.tileHolder e.toNat = some n then some (false, e.toNat) else none)
      else
        let us := ((List.range 64).map (64 * (e.toNat - 64) + ·)).filter fun u => s.pressHolder u == some n
        if us = [] then none else some (true, us.getD (Config.arbiterPick s.free us.length % us.length) 0)
    | _ => none

/-- R445: UNIT_OUT. -/
def State.unitOut (s : State) (n : Nat) : State :=
  match s.failedUnit n with
  | none => s
  | some (press, i) => ((s.draw.1).takeOut press i).raise (.part (BitVec.ofNat 3 n)) 9 false 0

/-- R440: a context fault whose resets count (STAGE, WATCHDOG): a repeated one escalates to every engine that still holds the
context's operations; otherwise, or with no such engine, the context is torn down. -/
def State.hangFault (s : State) (c cause : Nat) (q : Option Nat) (slot : Nat) (code : Code) : State :=
  let es := s.enginesOf c
  if (s.coverOf c).isSome then s.teardown c cause q slot code false
  else if s.repeats 1 c ∧ es ≠ [] then
    es.foldl (fun s e => State.decideReset 4 s (.engine (BitVec.ofNat 7 e)) ⟨0x10, causeClass cause, false, 0⟩) s
  else (s.noteReset 1 c).teardown c cause q slot code false

/-- R20, R21, R353, R433: STAGE: a tile that meets uncorrectable data in its own SRAM contains it by ending the operation of the
request that it serves: the request's context is reset. -/
def State.stageFault (s : State) (t c q : Nat) : State :=
  match s.req c q with
  | some r =>
    if decide (t < 64) && ((s.reqPers r).any fun p => s.tileOf (s.reqPart c r) p == t) && !s.keeps r then
      s.hangFault c causeStage (some q) r.slot .uncorrectable
    else s
  | none => s

/-! Watchdogs (R435, R436) -/

/-- R435: a request that the context watchdog does not watch: it waits in a SYNC command whose TIMEOUT_US (R357) is 0. -/
def Req.unwatched (r : Req) : Bool :=
  r.flushed || match r.work with
    | .sync _ _ _ _ => opN r.desc 16 3 == 0
    | _ => false

/-- CONTEXT_WATCHDOG: R433, R435, R440: the oldest request that it watches is the one that faulted, and ends with TIMEOUT (R354). -/
def execContextWatchdog (c : BitVec 12) (s : State) : Host.Outcome State Fault Refusal :=
  gated s fun s =>
    let c := c.toNat
    let ms := s.f F.FLT_WDOG_CTX_MS 0
    let st := s.ctxState c
    if ms = 0 ∨ (st ≠ ctxEnabled ∧ st ≠ ctxSuspending) ∨ (s.ctx c).reqs.all Req.unwatched ∨ !s.due (s.ctx c).progress (1000 * ms) then s
    else
      match (s.openReqs c).find? fun r => !r.unwatched && !s.keeps r with
      | some r => s.hangFault c causeWatchdog (some r.slot) r.slot .timeout
      | none => s.hangFault c causeWatchdog none 0 .ok

/-- TILE_WATCHDOG: R433, R435, R503: a cell of a tile with an operation queued, whose quarter is in RUN. -/
def execTileWatchdog (cell : BitVec 9) (s : State) : Host.Outcome State Fault Refusal :=
  gated s fun s =>
    let t := cell.toNat / 8
    if s.f F.FLT_WDOG_TILE_US 0 = 0 ∨ s.tileOut t then s
    else match s.tileHolder t with
      | some n => if s.partHolds n && s.depth (2 + t / 16) == 0 then s.raise (.engine (BitVec.ofNat 7 t)) 6 false 0 else s
      | none => s

/-- PARTITION_WATCHDOG: R433, R435; it counts no time while the partition's work waits for its quarter to wake (R503). -/
def execPartitionWatchdog (n : BitVec 3) (s : State) : Host.Outcome State Fault Refusal :=
  gated s fun s =>
    let p := n.toNat
    let ms := s.f F.FLT_WDOG_PART_MS 0
    let quiet := (s.partCtxs p).all fun c => (s.ctx c).reqs.all Req.unwatched || s.due (s.ctx c).progress (1000 * ms)
    if ms = 0 ∨ s.trlState p = trlEmpty ∨ !s.partHolds p ∨ !quiet ∨ !s.partAwake p then s else s.raise (.part n) 0x0C false 0

/-- CHIP_WATCHDOG: R436, R440, R458: the ROM kicks it until firmware runs. -/
def execChipWatchdog (s : State) : Host.Outcome State Fault Refusal :=
  gated s fun s =>
    let ms := s.f F.FLT_WDOG_CHIP_MS 0
    if s.bootState ≠ bootFirmware ∨ !s.due s.flt.kickedAt (1000 * if ms = 0 then 100 else ms) then s
    else if s.chipFenced then s.powerCycle ⟨0x0F, 0, false, 0⟩
    else s.raise .chip 0x0F false 0

/-- R436: FLT_KICK.KICK written as 1. -/
def State.kick (s : State) : State :=
  let now := s.now
  s.setFlt fun x => { x with kickedAt := now }

/-! Self-test (R445, R459) -/

/-- SELFTEST_END: R445, R459: the units that fail are out, the others are not. -/
def execSelftestEnd (tiles : Word) (press : List Nat) (s : State) : Host.Outcome State Fault Refusal :=
  gated s fun s =>
    if !s.flt.selftest then s
    else
      let s := (s.setF F.FLT_RESET_SELFTEST 0 0).setFlt fun x => { x with selftest := false }
      let s := (List.range 8).foldl (fun s j => s.setReg .fltOutPress j 0) (s.setReg .fltOutTile 0 tiles.toNat)
      (press.filter (· < 512)).foldl (fun s u => s.takeOut true u) s

/-! Stacks (R433) -/

/-- STACK_RETRAIN: R433: accesses to the stack wait. -/
def execStackRetrain (st : BitVec 3) (s : State) : Host.Outcome State Fault Refusal :=
  gated s fun s =>
    if s.flt.retrain.contains st.toNat then s
    else (s.logFault 0x0B 2 0 (0x180 + st.toNat) 0 false).1.setFlt fun x => { x with retrain := x.retrain ++ [st.toNat] }

/-- STACK_RETRAIN_END: R433: the third failure is STACK_FAIL. -/
def State.stackRetrainEnd (s : State) (st : BitVec 3) (ok : Bool) : State :=
  let k := st.toNat
  if !s.flt.retrain.contains k then s
  else if ok then s.setFlt fun x => { x with retrain := x.retrain.filter (· != k), fails := SMap.put 0 x.fails k 0 }
  else
    let n := SMap.get 0 s.flt.fails k + 1
    let s := s.setFlt fun x => { x with fails := SMap.put 0 x.fails k n }
    if 3 ≤ n then
      (s.setFlt fun x => { x with retrain := x.retrain.filter (· != k), fails := SMap.put 0 x.fails k 0 }).raise .chip 0x0D false (0x180 + k)
    else s

/-- PLL_LOCK_LOSS: R433: a shared PLL loses lock: CTL. -/
def execPllLockLoss (s : State) : Host.Outcome State Fault Refusal :=
  gated s fun s => s.raise .chip 0x0E false 0

/-! Injection (R448, R449) -/

/-- R448: an entry whose class can be injected into its target. -/
def State.injOk (s : State) (j : Nat) : Bool :=
  let t := s.f F.FLT_INJ_TARGET j
  match s.f F.FLT_INJ_CLASS j with
  | 1 => decide (t < 72)
  | 6 => decide (t < 64)
  | 7 => decide (64 ≤ t ∧ t < 72)
  | 8 => decide ((0x100 ≤ t ∧ t < 0x110) ∨ (0x110 ≤ t ∧ t < 0x112))
  | 0xC => decide (t < 8)
  | _ => false

/-- R448, R463: a write of FLT_INJ: an entry that cannot run is left off; its period counts from the write. -/
def State.injWritten (s : State) (j : Nat) : State :=
  let now := s.now
  if !s.on F.FLT_INJ_ENABLE j then s
  else if !s.injOk j then s.setF F.FLT_INJ_ENABLE j 0
  else s.setFlt fun x => { x with injectAt := SMap.put 0 x.injectAt j now }

/-- R118, R119: one bit of a stored codeword flipped: symbol i, bit b of it. -/
def State.flipBit (s : State) (cw i b : Nat) : State :=
  let x := s.syn cw
  let e : BitVec 64 := BitVec.ofNat 64 (2 ^ b)
  let p := 32 * cw + 8 * i + b / 8
  let old := s.byteP p
  let s := s.putP p [old ^^^ BitVec.ofNat 8 (2 ^ (b % 8))]
  s.setSyn cw ⟨x.p ^^^ e, x.q ^^^ mulAlphaN i e⟩

/-- R448: a bit of a codeword of a stack flips; which one is the injector's choice (log entry 249: a tile reads codewords of every
stack, so the stack is free for one). -/
def State.injectBit (s : State) (st : Nat) : State :=
  let (s, n) := s.draw
  let k := Config.arbiterPick n (2 ^ 40)
  let cw := k % 768 * 2 ^ 25 + (64 * st + k / 768 % 64) * 2 ^ 16 + k / 49152 % 2 ^ 16
  s.flipBit cw (k / 2 ^ 33 % 4) (k / 2 ^ 35 % 64)

/-- INJECTION: R448, R449. -/
def execInjection (j : BitVec 3) (s : State) : Host.Outcome State Fault Refusal :=
  gated s fun s =>
    let j := j.toNat
    let sec := s.f F.FLT_INJ_PERIOD_S j
    let now := s.now
    if !s.on F.FLT_INJ_ENABLE j ∨ sec = 0 ∨ !s.due (SMap.get 0 s.flt.injectAt j) (1000000 * sec) then s
    else
      let s := s.setFlt fun x => { x with injectAt := SMap.put 0 x.injectAt j now }
      let t := s.f F.FLT_INJ_TARGET j
      let cls := s.f F.FLT_INJ_CLASS j
      let inside (d : Domain) : Bool := s.flt.resets.any fun r => s.covers r.dom d
      let reset (d : Domain) : State :=
        if !s.on F.FLT_CFG_INJECT_DISRUPT 0 then s
        else if inside d ∨ (cls = 0xC ∧ s.trlState t = trlEmpty) then s.addF F.FLT_STAT_INJ_SKIPPED 0 1
        else s.raise d cls true 0
      match cls with
      | 1 =>
        if inside (.engine (BitVec.ofNat 7 t)) then s.addF F.FLT_STAT_INJ_SKIPPED 0 1
        else if 64 ≤ t then s.injectBit (t - 64)
        else
          let (s, n) := s.draw
          s.injectBit (Config.arbiterPick n 8 % 8)
      | 6 => reset (.engine (BitVec.ofNat 7 t))
      | 7 => reset (.engine (BitVec.ofNat 7 t))
      | 8 => if s.chipFenced then s.addF F.FLT_STAT_INJ_SKIPPED 0 1 else s.setFlt fun x => { x with forceBad := x.forceBad ++ [t] }
      | 0xC => reset (.part (BitVec.ofNat 3 t))
      | _ => s

end Sys2Proof.Machine
end

