-- ==== Sys2Proof/Machine/Power.lean ====
section
/-! DEFINITION. Clocks, sleep and energy limits (R498 to R517) and the pins (R540 to R550): domains that gate, stop and wake,
the power-step governor, throttling and trips, resets through the pins, lost references and the JTAG port. The
work that waits for its domain is a request's first operation (its quarter), a window (its base die) and what a LUN does (its
channel group); other accesses wait in time alone (R508, log entry 280). -/
namespace Sys2Proof.Machine

/-! Domains (R498 to R501) -/

/-- R498: a domain that can sleep: quarters, stacks and cellar groups always, a port only while it is disabled. -/
def State.maySleep (s : State) (d : Nat) : Bool :=
  if d < 2 then false
  else if d < 22 then true
  else if d < 38 then !s.on F.FAB_PORT_CFG_ENABLE (d - 22)
  else if d < 40 then !s.on F.NL_PORT_CFG_ENABLE (d - 38)
  else decide (d < 44)

/-- R499, R501: a domain has work: an operation, window, request, read or program names a unit in it, or its port is
enabled. -/
def State.domBusy (s : State) (d : Nat) : Bool :=
  if d < 2 then true
  else if d < 6 then
    (List.range 16).any fun k => match s.tileHolder (16 * (d - 2) + k) with | some n => s.partHolds n | none => false
  else if d < 14 then s.stackWaits (d - 6)
  else if d < 22 then
    s.press.any fun (u, p) => u / 64 == d - 14 && (p.win.isSome || p.queue != [] || p.rewrites != [])
  else if d < 38 then s.on F.FAB_PORT_CFG_ENABLE (d - 22)
  else if d < 40 then s.on F.NL_PORT_CFG_ENABLE (d - 38)
  else
    (s.cellar.luns.any fun (k, l) => groupOfCh (k % 64) == d - 40 && (l.op != .idle || l.progs != [] || l.erases != [])) ||
      s.cellar.reads.any fun r => groupOfCh (placeCh (entryPlace r.entry)) == d - 40

/-- R499, R501: no program or erase runs on the targets of a group. -/
def State.groupQuiet (s : State) (d : Nat) : Bool :=
  s.cellar.luns.all fun (k, l) => groupOfCh (k % 64) != d - 40 || match l.op with
    | .program _ | .erase _ => false
    | _ => true

/-- R512: the deepest sleep of a domain; ports have no setting of their own. -/
def State.maxDepth (s : State) (d : Nat) : Nat := if 22 ≤ d ∧ d < 40 then 2 else s.f F.CLK_DOM_MAX_DEPTH d

/-- R513: GATE_US, where 0 acts as 1, and STOP_US, as they stood when a domain's idle period began. -/
def State.idleTimes (s : State) (d : Nat) : Nat × Nat :=
  let x := ((s.dom d).times).getD (s.f F.CLK_IDLE_GATE_US 0, s.f F.CLK_IDLE_STOP_US 0)
  (max 1 x.1, x.2)

/-- R513: a write of CLK_IDLE takes effect for idle periods that begin after it; `old` is the register before. -/
def State.clkIdleWritten (s : State) (old : Nat) : State :=
  (List.range 44).foldl (fun s d =>
    if s.domBusy d || (s.dom d).times.isSome then s
    else s.setDom d fun x => { x with times := some (bits old 15 0, bits old 31 16) }) s

/-- DOMAIN_GATE: R499. -/
def execDomainGate (d : BitVec 6) (s : State) : Host.Outcome State Fault Refusal :=
  gated s fun s =>
    let d := d.toNat
    if s.maySleep d ∧ s.depth d = 0 ∧ !s.on F.CLK_DOM_WAKING d ∧ !s.domBusy d ∧ 1 ≤ s.maxDepth d ∧ s.due (s.dom d).idleAt (s.idleTimes d).1 then
      s.setF F.CLK_DOM_STATE d 1
    else s

/-- DOMAIN_STOP: R499, R500, R501. -/
def execDomainStop (d : BitVec 6) (s : State) : Host.Outcome State Fault Refusal :=
  gated s fun s =>
    let d := d.toNat
    if s.maySleep d ∧ s.depth d = 1 ∧ !s.on F.CLK_DOM_WAKING d ∧ !s.domBusy d ∧ 2 ≤ s.maxDepth d ∧
        s.due (s.dom d).idleAt ((s.idleTimes d).1 + (s.idleTimes d).2) ∧ (d < 40 ∨ s.groupQuiet d) then
      s.setF F.CLK_DOM_STATE d 2
    else s

/-- R501, R513: bits of CLK_WAKE. -/
def State.clkWake (s : State) (v : Nat) : State :=
  (((onesBelow 44 v).filter s.maySleep).flatMap s.wakeSet |> dedupNat |> sortBy (fun a b => decide (a < b))).foldl State.askWake s

/-! The energy bound (R507). Energies are in quarters of a µJ: an ampere at 0.75 V is 3 of them in a µs. -/

/-- The energy of the core supply over a window of R507 that began with a µs: what the µs since then drew above its first. -/
def windowEnergy : List Nat → Int
  | [] => 0
  | p :: l => (l.map fun x => 3 * ((x : Int) - (p : Int))).sum

/-- R507: the energies of every window of at most 10 µs that ends now. -/
def State.windowEnergies (s : State) : List Int := (List.range s.pwr.draws.length).map fun k => windowEnergy (s.pwr.draws.drop k)

/-- R507, R515: STEP_UJ. -/
def State.stepUj (s : State) : Int := 4 * ((max 1 (s.f F.PWR_GOV_STEP_UJ 0) : Nat) : Int)

/-- R507: the largest and the least current of a µs that keep every window within the bound. -/
def State.currentRoom (s : State) : List (Int × Int) :=
  (List.range s.pwr.draws.length).map fun k =>
    let l := s.pwr.draws.drop k
    let p : Int := (l.headD 0 : Nat)
    (p + (s.stepUj - windowEnergy l) / 3, p - (s.stepUj + windowEnergy l) / 3)

/-- R507: the energy of wakes from STOP in the last 10 µs. -/
def State.wakeEnergy (s : State) : Nat := ((s.pwr.wakes.filter fun w => decide (s.now < w.1 + 10)).map (·.2)).sum

/-- R501: the bound of a wake from STOP, in µs. -/
def wakeBound (d : Nat) : Nat := if d < 6 then 20 else if d < 14 then 12 else if d < 22 then 10 else 40

/-- R507: a wake that costs some energy must be held back: the bound would break, and the domain's own bound of R501 leaves time. -/
def State.holdsWake (s : State) (d e : Nat) : Bool :=
  let most := s.windowEnergies.foldl max 0
  decide (s.stepUj < most + 4 * ((s.wakeEnergy + e : Nat) : Int)) &&
    (match (s.dom d).wakeReq with | some t => !s.due t (wakeBound d) | none => false)

/-- R515: the µs counts in LIMITED_US, once. -/
def State.noteLimited (s : State) : State :=
  let now := s.now
  if s.pwr.limitedAt = some now then s
  else (s.addF F.PWR_GOV_STAT_LIMITED_US 0 1).setPwr fun p => { p with limitedAt := some now }

/-- WAKE_START: R501, R502, R507: work that came for sleeping domains asks for their wakes; one wake from STOP starts. -/
def execWakeStart (s : State) : Host.Outcome State Fault Refusal :=
  gated s fun s =>
    let late := (List.range 44).filter fun d => s.depth d != 0 && s.domBusy d
    let s := ((late.flatMap s.wakeSet |> dedupNat |> sortBy (fun a b => decide (a < b)))).foldl State.askWake s
    let now := s.now
    let clear := match s.pwr.lastWake with
      | some t => s.due t (max 1 (s.f F.CLK_IDLE_STAGGER_US 0))
      | none => true
    match s.pwr.wakeQ with
    | [] => s
    | d :: rest =>
      if !clear then s
      else
        let (s, n) := s.draw
        let e := Config.wakeUj n d
        if s.holdsWake d e then s.noteLimited
        else
          ((s.setF F.CLK_DOM_WAKING d 1).addF F.CLK_DOM_WAKES d 1).setPwr fun p =>
            { p with wakeQ := rest, lastWake := some now, wakes := (p.wakes.filter fun w => decide (now < w.1 + 10)) ++ [(now, e)] }

/-- WAKE_END: R501, R512: a domain is in RUN; a base die only after its PHY; a cellar group after its ZQ calibration. -/
def execWakeEnd (d : BitVec 6) (s : State) : Host.Outcome State Fault Refusal :=
  gated s fun s =>
    let d := d.toNat
    if !s.on F.CLK_DOM_WAKING d ∨ (14 ≤ d ∧ d < 22 ∧ s.depth d = 2 ∧ s.depth (d - 8) ≠ 0) then s
    else
      let now := s.now
      let wait := match (s.dom d).wakeReq with | some t => now - t | none => 0
      let zq := decide (40 ≤ d ∧ s.depth d = 2)
      let s := (s.addF F.CLK_DOM_HOLD_US d wait).setFs d [(F.CLK_DOM_STATE, 0), (F.CLK_DOM_WAKING, 0)]
      let s := s.setDom d fun _ => ⟨now, none, none⟩
      if zq then s.setCel fun x => { x with zqAt := x.zqAt.map fun (c, t) => (c, if groupOfCh c = d - 40 ∧ t + 100000 < now then now else t) } else s

/-! The governor (R506, R515) -/

/-- CURRENT_ESTIMATE: R506, R507: the estimate, held to the slew and to the energy bound, and the duty that holds it. -/
def execCurrentEstimate (amps : BitVec 12) (s : State) : Host.Outcome State Fault Refusal :=
  gated s fun s =>
    let now := s.now
    let s := if s.pwr.stepAt = now then s
      else
        let a := s.f F.PWR_GOV_STAT_CURRENT_A 0
        s.setPwr fun p => { p with current := a, stepAt := now, draws := (p.draws ++ [a]).drop (p.draws.length - 9) }
    let base := s.pwr.current
    let slew := max 1 (s.f F.PWR_GOV_SLEW_A_US 0)
    let a := amps.toNat
    let most : Int := (s.currentRoom.map (·.1)).foldl min ((base + slew : Nat) : Int)
    let least : Int := if s.on F.PWR_GOV_BALLAST 0 then min most ((s.currentRoom.map (·.2)).foldl max ((base : Int) - (slew : Int))) else 0
    let limited := decide (most < (a : Int))
    let held := !limited && decide ((a : Int) < least)
    let x := if limited then most.toNat else if held then least.toNat else a
    let duty := if limited then Config.governorDuty a base slew % 16 else 0
    let s := s.setFs 0 [(F.PWR_GOV_STAT_CURRENT_A, x), (F.PWR_GOV_STAT_DUTY, duty)]
    let s := if limited then s.noteLimited else s
    if held && s.pwr.ballastAt != some now then
      (s.addF F.PWR_GOV_STAT_BALLAST_US 0 1).setPwr fun p => { p with ballastAt := some now }
    else s

/-! Temperature (R509 to R511) -/

/-- The latest reading of a region, in 0.25 °C. -/
def State.temp (s : State) (r : Nat) : Int := signed 12 (s.f F.PWR_TEMP_TEMP r)

/-- TEMPERATURE_READING: R509, R516. -/
def execTemperatureReading (r : BitVec 4) (t : Int) (s : State) : Host.Outcome State Fault Refusal :=
  gated s fun s =>
    let r := r.toNat
    if 15 ≤ r then s
    else
      let peak := signed 12 (s.f F.PWR_TEMP_PEAK r)
      s.setFs r [(F.PWR_TEMP_TEMP, toTwos 12 t), (F.PWR_TEMP_PEAK, toTwos 12 (max peak (signed 12 (toTwos 12 t))))]

/-- R510, R517: the threshold of a region in °C; above its trip point it acts as 1 °C below; none for CTL and the edges. -/
def State.throttleAt (s : State) (r : Nat) : Option Nat :=
  let at_ (v trip : Nat) : Nat := if trip < v then trip - 1 else v
  if r < 4 then some (at_ (s.f F.PWR_THERM_CFG_DIE_THROTTLE_C 0) 115)
  else if 7 ≤ r ∧ r < 15 then some (at_ (s.f F.PWR_THERM_CFG_STACK_THROTTLE_C 0) 100)
  else none

/-- R510: a region's duty in 1/16. -/
def State.duty (s : State) (r : Nat) : Nat := if s.f F.PWR_TEMP_DUTY r = 0 then 16 else s.f F.PWR_TEMP_DUTY r

/-- R510: one region's step of duty. -/
def State.throttle (s : State) (r : Nat) : State :=
  match s.throttleAt r with
  | none => s
  | some c =>
    let old := s.duty r
    let t := s.temp r
    let new := if (4 * c : Int) ≤ t then max 4 (old - 1)
      else if t < 4 * ((c : Int) - (s.f F.PWR_THERM_CFG_HYST_C 0 : Int)) then min 16 (old + 1) else old
    let s := s.setF F.PWR_TEMP_DUTY r (if new = 16 then 0 else new)
    let s := s.setF F.PWR_THERM_STAT_THROTTLED 0 (setBit (s.f F.PWR_THERM_STAT_THROTTLED 0) r (decide (new < 16)))
    if old = 16 ∧ new < 16 then s.event F.TOP_INT_STAT_THERMAL else s

/-- THROTTLE_STEP: R510: every 100 µs. -/
def execThrottleStep (s : State) : Host.Outcome State Fault Refusal :=
  gated s fun s =>
    if !s.due s.pwr.throttleAt 100 then s
    else
      let now := s.now
      (List.range 15).foldl State.throttle (s.setPwr fun p => { p with throttleAt := now })

/-- R511: the trip point of a region in 0.25 °C. -/
def tripPoint (r : Nat) : Int := if r < 7 then 460 else 400

/-- THERMAL_TRIP: R511, R550: a trip acts while RESET_N is low too; a running node's reading must have reached the point. -/
def execThermalTrip (r : BitVec 4) (s : State) : Host.Outcome State Fault Refusal :=
  always s fun s =>
    let r := r.toNat
    if 15 ≤ r ∨ s.pins.pwrBad ∨ (s.live ∧ s.temp r < tripPoint r) then s
    else (s.setF F.PWR_THERM_STAT_TRIPPED 0 1).setPins fun p => { p with tripLow := true }

/-! Pins and supplies (R540, R547, R549, R550) -/

/-- R484: the ROM boots as soon as every clock runs after a chip reset. -/
def State.tryBoot (s : State) : State := if s.live ∧ s.bootState = bootRom then s.boot else s

/-- A chip reset that a pin or a supply causes: what ran is cleared at once. -/
def State.coldReset (s : State) : State :=
  let s := s.flt.resets.foldl (fun s r => s.logDone r.record) s
  (((s.setFlt fun x => { x with resets := [] }).addF F.FLT_STAT_CHIP_RESETS 0 1).noteReset 4 0).chipClear

/-- RESET_N_ASSERT: R434, R549, R550. -/
def execResetNAssert (s : State) : Host.Outcome State Fault Refusal :=
  always s fun s =>
    if s.pins.tripLow ∨ s.pins.pcycLow ∨ s.pins.resetLow then s
    else
      let s := s.setPins fun p => { p with resetLow := true }
      if s.pins.pwrBad then s
      else
        let s := s.coldReset
        let (s, n) := s.logFault 0 3 4 0 0 false
        let now := s.now
        s.setFlt fun x => { x with resets := [⟨.chip, false, now, n, false⟩] }

/-- RESET_N_RELEASE: R484, R549: the strap is latched and the boot ROM runs. -/
def execResetNRelease (forceRcv : Bool) (s : State) : Host.Outcome State Fault Refusal :=
  always s fun s =>
    if !s.pins.resetLow ∧ s.bootState ≠ bootRom then s
    else
      let s := s.setPins fun p => { p with resetLow := false, strap := if p.pwrBad then p.strap else forceRcv }
      if s.pins.pwrBad then s
      else (s.setF F.TOP_STRAP_FORCE_RCV 0 s.pins.strap.toNat).tryBoot

/-- PWR_GOOD_FALL: R540. -/
def execPwrGoodFall (s : State) : Host.Outcome State Fault Refusal :=
  always s fun s => s.setPins fun p => { p with pwrBad := true }

/-- PWR_GOOD_RISE: R540: a chip reset runs; it boots when RESET_N is high. -/
def execPwrGoodRise (s : State) : Host.Outcome State Fault Refusal :=
  always s fun s =>
    if !s.pins.pwrBad then s
    else
      let s := s.setPins fun p => { p with pwrBad := false }
      if s.pins.tripLow ∨ s.pins.pcycLow then s else s.coldReset.tryBoot

/-- POWER_REMOVED: R547: VDD_CORE is gone: the sideband outputs are released. -/
def execPowerRemoved (s : State) : Host.Outcome State Fault Refusal :=
  always s fun s =>
    if !s.pins.pwrBad then s
    else
      ((s.setFlt fun x => { x with resets := [] }).setPins fun p => { p with tripLow := false, pcycLow := false }).chipClear

/-- AON_SUPPLY_ON: R504, R511, R530: the always-on supply is first applied: the always-on state is cleared too, and PWR_GOOD and
RESET_N are low (R549). -/
def execAonSupplyOn (s : State) : Host.Outcome State Fault Refusal :=
  always s fun s =>
    let s := s.chipClear
    { s with regs := [], flt := default,
             pins := { s.pins with tripLow := false, pcycLow := false, pwrBad := true, resetLow := true } }

/-! References (R543) -/

/-- AON_CLK_LOSS: R543: CLK_TIME holds. -/
def execAonClkLoss (s : State) : Host.Outcome State Fault Refusal :=
  always s fun s => s.setPins fun p => { p with aonLost := true }

/-- AON_CLK_RETURN: R543: a chip reset runs, which restarts every timer. -/
def execAonClkReturn (s : State) : Host.Outcome State Fault Refusal :=
  always s fun s =>
    if !s.pins.aonLost then s
    else
      let s := s.setPins fun p => { p with aonLost := false }
      if s.pins.pwrBad ∨ s.pins.tripLow ∨ s.pins.pcycLow then s else s.coldReset.tryBoot

/-- R543: the SerDes reference of an edge die is lost. -/
def State.sdsDown (s : State) (side : Nat) : Bool := s.pins.sdsLost.getD side false

def State.setSds (s : State) (side : Nat) (v : Bool) : State :=
  s.setPins fun p => { p with sdsLost := if side = 0 then [v, p.sdsLost.getD 1 false] else [p.sdsLost.getD 0 false, v] }

/-- R372, R543: a fabric port enters FAILED. -/
def State.failPort (s : State) (p : Nat) : State := (s.stopPort p portFailed).linkLost (0x100 + p)

/-- R543: every port of an edge die enters FAILED. -/
def State.failEdge (s : State) (side : Nat) : State := ((List.range 8).foldl (fun s k => s.failPort (8 * side + k)) s).nlFail side

/-- R543: a port that is enabled while its reference is lost enters FAILED. -/
def State.fabRefCheck (s : State) (p : Nat) : State :=
  if s.sdsDown (p / 8) ∧ s.on F.FAB_PORT_CFG_ENABLE p then s.failPort p else s

def State.nlRefCheck (s : State) (p : Nat) : State :=
  if s.sdsDown p ∧ s.on F.NL_PORT_CFG_ENABLE p then s.nlFail p else s

/-- REFERENCE_LOSS: R433, R543. -/
def execReferenceLoss (r : RefClk) (s : State) : Host.Outcome State Fault Refusal :=
  always s fun s =>
    match r with
    | .core =>
      if s.pins.coreLost then s
      else (if s.live then s.raise .chip 0x0E false 0 else s).setPins fun p => { p with coreLost := true }
    | .sdsA => if s.sdsDown 0 then s else (if s.live then s.failEdge 0 else s).setSds 0 true
    | .sdsB => if s.sdsDown 1 then s else (if s.live then s.failEdge 1 else s).setSds 1 true

/-- REFERENCE_RETURN: R543: the chip reset that waited goes on. -/
def execReferenceReturn (r : RefClk) (s : State) : Host.Outcome State Fault Refusal :=
  always s fun s =>
    match r with
    | .core => (s.setPins fun p => { p with coreLost := false }).tryBoot
    | .sdsA => s.setSds 0 false
    | .sdsB => s.setSds 1 false

/-- CLK_TIME_TICK: R504, R543. -/
def execClkTimeTick (s : State) : Host.Outcome State Fault Refusal :=
  always s fun s => if s.pins.aonLost then s else s.setF F.CLK_TIME_US 0 ((s.now + 1) % 2 ^ 64)

/-! JTAG (R548) -/

/-- The instructions of the TAP; their codes are not the manual's, but for BYPASS, all ones (IEEE 1149.1). -/
def tapExtest : Nat := 0x00
def tapSample : Nat := 0x01
def tapIdcode : Nat := 0x02
def tapBypass : Nat := 0xFF

/-- R548: the value of the IDCODE register. -/
def tapIdcodeValue : Nat := 0x19420A2F

/-- R522: the JTAG port is a source of register accesses. -/
def State.jtagOpen (s : State) : Bool := s.sec.fuses.grade && !s.sec.fuses.debugOff

/-- JTAG_INSTRUCTION: R548. -/
def execJtagInstruction (ir : BitVec 8) (s : State) : Host.Outcome State Fault Refusal :=
  let i := ir.toNat
  let put (v : Nat) : Host.Outcome State Fault Refusal := always s fun s => s.setPins fun p => { p with tap := v }
  if i = tapExtest ∨ i = tapSample ∨ i = tapIdcode ∨ i = tapBypass then put i
  else if s.sec.fuses.debugOff then put tapBypass
  else .refused .jtagPrivate

end Sys2Proof.Machine
end

