-- ==== Sys2Proof/Machine/RegWrite.lean ====
section
/-! DEFINITION. Register accesses (R9 to R15, R518 to R531, R556): what a read returns and clears, which fields a write
changes, which writes are refused, and the action that a write starts. -/
namespace Sys2Proof.Machine

/-! Fields of a write -/

/-- R14: the values that a write may give a field. -/
def ValueRule.allows (r : ValueRule) (v : Nat) : Bool :=
  match r with
  | .any => true
  | .upTo a b => decide (a ≤ v) && decide (v ≤ b)

/-- The bits of a number outside a mask. -/
def clearBits (w m : Nat) : Nat := w - (w &&& m)

/-- R9, R12: the bits that an access reaches: the register, or one half of it. -/
def accessMask (addr : Nat) (wide : Bool) : Nat :=
  if wide then 2 ^ 64 - 1 else if addr % 8 = 0 then 2 ^ 32 - 1 else 2 ^ 64 - 2 ^ 32

/-- R9: an access is aligned to its width. -/
def accessAligned (addr : Nat) (wide : Bool) : Bool := addr % (if wide then 8 else 4) == 0

/-- The bits that a write carries, in their place in the register. -/
def accessBits (addr : Nat) (wide : Bool) (v : Nat) : Nat :=
  if wide then v % 2 ^ 64 else if addr % 8 = 0 then v % 2 ^ 32 else v % 2 ^ 32 * 2 ^ 32

/-- R10, R12 to R14: one field after a write of the bits w under a mask. -/
def Fld.merge (f : Fld) (old w mask a : Nat) : Nat :=
  match f.acc with
  | .rw =>
    let x := bits (clearBits old mask + (w &&& mask)) f.hi f.lo
    if f.rule.allows x then setBits a f.hi f.lo x else a
  | .w1c => setBits a f.hi f.lo (clearBits (bits old f.hi f.lo) (bits (w &&& mask) f.hi f.lo))
  | _ => a

/-- R10: a register after a write: the fields that software sets and those that it clears. -/
def Reg.merged (r : Reg) (i old w mask : Nat) : Nat := (r.fields i).foldl (fun a f => f.merge old w mask a) old

/-! Refused writes (R9, R528) -/

/-- R341, R364 and their like: an object's ENABLE bit of the register at hand. -/
def anyPortOn (s : State) : Bool := (List.range 16).any fun p => s.on F.FAB_PORT_CFG_ENABLE p

/-- True when a bit of a register array is set. -/
def State.anyBit (s : State) (r : Reg) (n : Nat) : Bool := (List.range n).any fun j => decide (s.reg r j ≠ 0)

/-- An enabled index's registers are listed. -/
def State.anyIndex (s : State) : Bool :=
  let base := Reg.vintIdxCfg.addr 0
  s.regs.any fun (a, v) => decide (base ≤ a) && decide (a < base + 8 * 4096) && v.toNat.testBit 0

/-- R556: ENABLE was 1 and another field would change. -/
def changesOthers (old new : Nat) : Bool := old.testBit 0 && decide (old / 2 ≠ new / 2)

/-- The writes that are refused under R9 because of what they would change: R91, R99 to R102 of the query path (R161 to R163) while the
index is enabled or restored (R454), R558, R270, R232, R338, R363, R364, R400, R403, R457. -/
def State.refusesWrite (s : State) (r : Reg) (i old new : Nat) : Bool :=
  match r with
  | .vintIdxCfg => (s.idx i).restoring || changesOthers old new
  | .vintIdxRoute | .vintIdxBook | .vintIdxQcfg | .vintIdxGraph => s.on F.VINT_IDX_CFG_ENABLE i
  | .vintFreeMap => s.anyIndex
  | .cellarNsDesc => s.anyBit .cellarNsEn 64
  | .tileEmbDesc => s.anyBit .tileEmbEn 16
  | .trlKeyCfg => s.on F.TRL_KEY_CFG_LOCK i
  | .trlKeyHash => s.on F.TRL_KEY_CFG_LOCK (i / 4)
  | .ctxTenant => s.on F.CTX_TENANT_ENABLE i && bits new F.CTX_TENANT_ENABLE.hi F.CTX_TENANT_ENABLE.lo == 0 && s.enabledCtxs i != []
  | .ctxCfg => changesOthers old new
  | .ctxSq | .ctxCq | .ctxSave => s.on F.CTX_CFG_ENABLE i
  | .fabNode | .fabPeerTab => anyPortOn s
  | .fltCfg =>
    bits new F.FLT_CFG_COMPAT.hi F.FLT_CFG_COMPAT.lo != s.f F.FLT_CFG_COMPAT 0 &&
      (s.nlState 0 != nlDown || s.nlState 1 != nlDown || s.pool.lent != [])
  | _ => false

/-- Writes without effect that no rule records: R273 and R512. -/
def State.ignoresWrite (s : State) (r : Reg) (i new : Nat) : Bool :=
  match r with
  | .cellarLogTrim => decide (new < s.reg .cellarLogTrim 0)
  | .clkDom => decide (i < 2) || (decide (22 ≤ i) && decide (i < 40))
  | _ => false

/-! What a write starts -/

/-- R526: a write of the device summary that leaves P nonzero sends the device interrupt. -/
def State.sumWritten (s : State) : State :=
  if s.follow.intPending ≠ 0 then s.follow.devIntr.setIntP true else s.follow

/-- R56, R63, R91: ENABLE of an index goes from 0 to 1, or to 0. -/
def State.idxWritten (s : State) (src : Src) (i old : Nat) : State :=
  if s.on F.VINT_IDX_CFG_ENABLE i then
    if old.testBit 0 then s
    else if s.idxCfgOk i then s.enableIdx i
    else (s.setF F.VINT_IDX_CFG_ENABLE i 0).writeErr .enable src .vintIdxCfg i
  else if old.testBit 0 then s.disableIdx i
  else s

/-- R341, R348: ENABLE of a context goes from 0 to 1, or to 0. -/
def State.ctxWritten (s : State) (src : Src) (c old : Nat) : State :=
  if s.on F.CTX_CFG_ENABLE c then
    if old.testBit 0 then s
    else if s.mayEnable c then s.enableCtx c
    else (s.setF F.CTX_CFG_ENABLE c 0).writeErr .enable src .ctxCfg c
  else if old.testBit 0 then s.disableCtx c
  else s

/-- R371, R401: ENABLE of a fabric port goes from 0 to 1, or to 0. -/
def State.fabPortWritten (s : State) (src : Src) (p old : Nat) : State :=
  if s.on F.FAB_PORT_CFG_ENABLE p then
    if old.testBit 0 then s else (s.startPort src p).fabRefCheck p
  else if old.testBit 0 then s.stopPort p portDown
  else s

/-- R240, R553: ENABLE of a channel goes from 0 to 1, or to 0. -/
def State.channelWritten (s : State) (c old : Nat) : State :=
  if s.on F.CELLAR_CH_CFG_ENABLE c then
    if old.testBit 0 then s else s.startChannel c
  else if old.testBit 0 then s.stopChannel c chOff
  else s

/-- R414: ENABLE of a Nahel port changed. -/
def State.nlPortWritten (s : State) (p old : Nat) : State :=
  if s.on F.NL_PORT_CFG_ENABLE p == old.testBit 0 then s else (s.nlEnableWritten p).nlRefCheck p

/-- The action of a write. The fields are set already; `w` is what the write carried, `old` the register before it. An action
of a register whose fields lie in its lower half needs that half to be written (R12). -/
def State.written (s : State) (src : Src) (r : Reg) (i old w : Nat) (low : Bool) : State :=
  match r with
  | .topIntStat | .topIntEn | .topIdxPend => s.sumWritten
  | .clkWake => s.clkWake w
  | .clkIdle => s.clkIdleWritten old
  | .secFuseProg => if bit w 12 then s.fuseGo src else s
  | .fltKick => if bit w 0 then s.kick else s
  | .fltReset => if bits w 4 0 = 0 then s else s.fltReset src w
  | .fltCkpt => if bit w 0 then s.startCkpt src else s
  | .fltInj => s.injWritten i
  | .fltAdmit => if old.testBit 0 && !s.on F.FLT_ADMIT_HOLD i then s.stageHolds i else s
  | .trlCtl => if bit w 1 then s.trlStart src i true else if bit w 0 then s.trlStart src i false else s
  | .poolCatInval => if low then s.catInval w else s
  | .poolAgentLost => if low then (s.declareLost (bits w 17 0)).wakeJobs else s
  | .nlPortCfg => s.nlPortWritten i old
  | .cellarCfg => (if bit w 61 then s.startCellar src else s).checkSpare
  | .cellarChCfg => s.channelWritten i old
  | .vintClose => if low then s.writeVintClose src w else s
  | .vintIdxCfg => s.idxWritten src i old
  | .ctxCfg => s.ctxWritten src i old
  | .ctxDb => s.doorbell src i w
  | .ctxCtl => s.ctxCtl src i w
  | .ctxTlbInval => if low then s.tlbInval w else s
  | .fabPortCfg => s.fabPortWritten src i old
  | .fabPeerCtl => if low then s.peerCtl w else s
  | .fabQueue => s.queueWritten i
  | .fabShape => s.shapeWritten i
  | .fabPolice => s.policeWritten i
  | .fabMacsecSa => s.saWritten i
  | .fabCompCtl => s.compCtl src i old w
  | _ => s

/-- A write that no rule refuses takes effect: its fields, then what it starts. -/
def State.applyWrite (s : State) (src : Src) (r : Reg) (i w mask : Nat) : State :=
  let old := s.reg r i
  let new := r.merged i old w mask
  let w := w &&& mask
  match r with
  | .cellarNsEn => s.nsWrite src i old new
  | .tileEmbEn =>
    let (t, bad) := s.writeTabEn i new
    if bad then t.writeErr .enable src .tileEmbEn i else t
  | .fabMacsecKey => s.setReg .fabMacsecKey i (clearBits old mask + w)
  | _ => (s.setReg r i new).written src r i old w (mask.testBit 0)

/-- R529: the address of the event that a write of an upper half recorded first is the address of the access. -/
def State.firstAt (s : State) (before : Bool) (addr : Nat) : State :=
  if !before && s.on F.TOP_ERR_FIRST_VALID 0 then s.setF F.TOP_ERR_FIRST_ADDR 0 addr else s

/-- R9, R521, R522, R528: a register write of a source: 8 bytes, or the half at a 4-byte address. -/
def State.regWrite (s : State) (src : Src) (addr : Nat) (wide : Bool) (v : Nat) : State :=
  if (src == .jtag && !s.jtagOpen) || decide (2 ^ 26 ≤ addr) then s
  else if !accessAligned addr wide then s.recordErr .access src addr true
  else match Reg.find (addr - addr % 8) with
    | none => s.recordErr .access src addr true
    | some (r, i) =>
      let w := accessBits addr wide v
      let mask := accessMask addr wide
      let new := r.merged i (s.reg r i) w mask
      if s.refusesWrite r i (s.reg r i) new then s.recordErr .access src addr true
      else if s.ignoresWrite r i new then s
      else if addr % 8 = 0 then s.applyWrite src r i w mask
      else (s.applyWrite src r i w mask).firstAt (s.on F.TOP_ERR_FIRST_VALID 0) addr

/-- A write of a whole register by a row that names it. -/
def State.writeReg (s : State) (src : Src) (r : Reg) (i v : Nat) : State := s.regWrite src (r.addr i) true v

/-! Reads -/

/-- The value that a read finds, WO fields apart: what the register holds, or what the node forms as it is read (R95, R133,
R278, R495, R497, R512, R523). -/
def State.regNow (s : State) (r : Reg) (i : Nat) : State × Nat :=
  match r with
  | .topId => (s, setBits (s.reg .topId 0) F.TOP_ID_GRADE.hi F.TOP_ID_GRADE.lo (b2n s.sec.fuses.grade))
  | .secFuseCfg => (s, s.fuseCfg)
  | .secFuseHash => (s, s.fuseHash i)
  | .secLogData => (s, s.logData i)
  | .vintHorizon => (s, if s.idxOn i then s.horizon i else 0)
  | .clkDom => (s, if s.ignoresWrite .clkDom i 0 then s.reg .clkDom i / 4 * 4 else s.reg .clkDom i)
  | .cellarLdpcBase => (s, leNat ((List.range 8).map fun k => Config.ldpcBaseByte (8 * i + k)))
  | .pressWinLen =>
    if (s.pu i).win.isNone then (s, s.reg .pressWinLen i)
    else
      let (s, n) := s.draw
      (s, setBits (s.reg .pressWinLen i) 23 12 (Config.pressElapsed n i % (s.f F.PRESS_WIN_LEN_LEN i + 1)))
  | _ => (s, s.reg r i)

/-- R10: a value with the fields of some access type set to 0 under a mask. -/
def Reg.without (r : Reg) (i : Nat) (a : Access) (mask v : Nat) : Nat :=
  (r.fields i).foldl (fun v f => if f.acc == a then setBits v f.hi f.lo (clearBits (bits v f.hi f.lo) (bits mask f.hi f.lo)) else v) v

/-- R10, R12: an RC field is cleared by the read that returns it. -/
def State.readClears (s : State) (r : Reg) (i mask : Nat) : State := s.setReg r i (r.without i .rc mask (s.reg r i))

/-- R9, R10, R521, R522: a register read of a source: the state after it and the bytes' value. -/
def State.regRead (s : State) (src : Src) (addr : Nat) (wide : Bool) : State × Nat :=
  if (src == .jtag && !s.jtagOpen) || decide (2 ^ 26 ≤ addr) then (s, 0)
  else if !accessAligned addr wide then (s.recordErr .access src addr false, 0)
  else match Reg.find (addr - addr % 8) with
    | none => (s.recordErr .access src addr false, 0)
    | some (r, i) =>
      let mask := accessMask addr wide
      let (s, v) := s.regNow r i
      let v := r.without i .wo (2 ^ 64 - 1) v
      (s.readClears r i mask, if wide then v else if addr % 8 = 0 then v % 2 ^ 32 else v / 2 ^ 32)

/-! The rows that have no register of their own -/

/-- REGISTER_WRITE: R9 to R15. -/
def execRegisterWrite (src : Src) (addr : BitVec 52) (wide : Bool) (v : Word) (s : State) : Host.Outcome State Fault Refusal :=
  gated s fun s => s.regWrite src addr.toNat wide v.toNat

/-- RC_READ: R9 to R12. -/
def execRcRead (src : Src) (addr : BitVec 52) (wide : Bool) (s : State) : Host.Outcome State Fault Refusal :=
  gated s fun s => (s.regRead src addr.toNat wide).1

/-- INTERRUPT_SUMMARY_WRITE: R525 to R527. -/
def execInterruptSummaryWrite (src : Src) (reg : SumReg) (v : Word) (s : State) : Host.Outcome State Fault Refusal :=
  gated s fun s => match reg with
    | .intStat => s.writeReg src .topIntStat 0 v.toNat
    | .intEn => s.writeReg src .topIntEn 0 v.toNat
    | .idxPend j => s.writeReg src .topIdxPend j.toNat v.toNat

end Sys2Proof.Machine
end

