-- ==== Sys2Proof/Machine/Packets.lean ====
section
/-! DEFINITION. What the packets of a Nahel port do (R113, R114, R419 to R426, R485): RD and WR packets through the host
windows, coherence messages of the host, management messages, the flits that bring packets, and the rows that let waiting
packets go on. -/
namespace Sys2Proof.Machine

/-! Host windows (R420, R421, R431) -/

/-- R518: the window of the device map in which an address lies; none in an unassigned range. -/
def devWindow (a : Nat) : Option Nat :=
  if a < 2 ^ 26 then some 0
  else if Config.hbmBase ≤ a ∧ a < Config.hbmBase + Config.hbmSize then some 1
  else if Config.caskBase ≤ a ∧ a < Config.caskBase + Config.caskSlots * 2 ^ 30 then some 2
  else if Config.cellarWinBase ≤ a ∧ a < 2 ^ 52 then some 3
  else none

/-- R418: the device address and the length of a RD or WR packet. -/
def pktAddr (k : Packet) : Nat := bits k.arg.toNat 51 0

def rdLen (k : Packet) : Nat := if bits k.arg.toNat 63 52 = 0 then 4096 else bits k.arg.toNat 63 52

def accessLen (type : Nat) (k : Packet) : Nat := if type = 1 then rdLen k else k.body.length

/-- R421: the registers that a window without REG_ALL reaches. -/
def State.regAllowed (s : State) (w a : Nat) (write : Bool) : Bool :=
  match Reg.find (a - a % 8) with
  | some (.ctxDb, c) => write && s.f F.CTX_CFG_TENANT c == s.f F.NL_WIN_CFG_TENANT w
  | some (.ctxStat, c) => !write && s.f F.CTX_CFG_TENANT c == s.f F.NL_WIN_CFG_TENANT w
  | _ => false

/-- R420: an access of `len` bytes from `a` on passes the checks of window `w`. -/
def State.windowOk (s : State) (w a len : Nat) (read write : Bool) : Bool :=
  let base := s.fAddr F.NL_WIN_BASE_BASE w
  let size := s.f F.NL_WIN_CFG_SIZE_64K w * 65536
  s.on F.NL_WIN_CFG_VALID w && decide (base ≤ a) && decide (a + len ≤ base + size) &&
    (!read || s.on F.NL_WIN_CFG_READ w) && (!write || s.on F.NL_WIN_CFG_WRITE w) &&
    (devWindow base).isSome && devWindow base == devWindow (base + size - 1) &&
    (devWindow base != some 0 || s.on F.NL_WIN_CFG_REG_ALL w || s.regAllowed w a write)

/-! Waiting for banks (R113, R114) -/

/-- R113: a bank that an access needs is held by a press window, or its stack retrains (R433). -/
def State.hostWaits (s : State) (r : HostReq) : Bool :=
  let a := (pktAddr r.pkt)
  let n := accessLen r.type r.pkt
  r.passed && inHbm a n && (s.cwsOf a n).any fun cw =>
    let u := physUnit (32 * cw)
    s.flt.retrain.contains (u / 64) || (match (s.pu u).win with
      | some w => bit w.banks (4 * quartet (physBlock (32 * cw)) + cw / 32 % 4)
      | none => false)

/-! RD and WR (R419 to R421) -/

/-- R419: a RD or WR that is answered by a CPL: every RD, every WR to window 2, every WR with NP. -/
def asks (type : Nat) (k : Packet) : Bool := asksCpl type k || (type == 2 && devWindow (pktAddr k) == some 2)

/-- The CPL of a RD or WR, when it has one. -/
def State.answerHost (s : State) (p type : Nat) (k : Packet) (code : Code) (data : Bytes) : State :=
  if asks type k then s.sendCpl p k code data else s

def srcOf (p : Nat) : Src := if p = 0 then .nahel0 else .nahel1

/-- R9, R421: an access to window 0. One that is not 4 or 8 bytes wide is refused as R9 says: it reads 0. -/
def State.hostReg (s : State) (p type : Nat) (k : Packet) : State :=
  let a := (pktAddr k)
  let n := accessLen type k
  if n ≠ 4 ∧ n ≠ 8 then (s.recordErr .access (srcOf p) a (type == 2)).answerHost p type k .ok (zeros n)
  else if type = 1 then
    let (s, v) := s.regRead (srcOf p) a (n == 8)
    s.answerHost p type k .ok (leBytes n v)
  else (s.regWrite (srcOf p) a (n == 8) (leNat k.body)).answerHost p type k .ok []

/-- An access to local HBM. -/
def State.hostMem (s : State) (p type : Nat) (k : Packet) : State :=
  if type = 1 then
    let (s, d, code) := s.load (pktAddr k) (rdLen k)
    s.answerHost p type k code d
  else ((s.noteParts (pktAddr k) k.body.length).store (pktAddr k) k.body).answerHost p type k .ok []

/-- R265: an access to the cellar's debug window. -/
def State.hostDebug (s : State) (p type : Nat) (k : Packet) : State :=
  let n := accessLen type k
  if !s.debugOpen (pktAddr k) n then
    (s.recordErr .access (srcOf p) (pktAddr k) (type == 2)).answerHost p type k .ok (zeros (if type = 1 then n else 0))
  else s.answerHost p type k .ok (if type = 1 then s.debugRead (pktAddr k) n else [])

/-- R282: the casks that the slots of an access are bound to; none when a check fails. -/
def State.caskIds (s : State) (tenant : Nat) (read write : Bool) : List Nat → State × Option (List (Nat × Nat))
  | [] => (s, some [])
  | slot :: rest =>
    match s.caskCheck slot tenant read write with
    | (s, none) => (s, none)
    | (s, some id) => match State.caskIds s tenant read write rest with
      | (s, some l) => (s, some ((slot, id) :: l))
      | (s, none) => (s, none)

/-- R282, R291, R425: an access to cask space becomes RD_NC or WR_NC of each line that it touches. -/
def State.hostCask (s : State) (p type : Nat) (k : Packet) : State :=
  let a := (pktAddr k)
  let n := accessLen type k
  let w := 16 * p + k.win.toNat
  let tenant := s.f F.NL_WIN_CFG_TENANT w
  let rd := type == 1
  if s.pool.lost.contains (s.hostAgent p) then (s.addF F.DIR_STAT_LATE_DROP 0 1).answerHost p type k .fenced []
  else match s.caskIds tenant rd (!rd) (dedupNat [caskSlot a, caskSlot (a + n - 1)]) with
    | (s, none) => s.answerHost p type k .denied []
    | (s, some ids) =>
      let lo := a / 64
      let lines := (List.range ((a + n - 1) / 64 + 1 - lo)).map fun j => 64 * (lo + j)
      let s := s.setNl p fun x => { x with casks := x.casks ++ [⟨k.tag.toNat, s.cplGen k, lines.length, .ok, [], a, n, rd⟩] }
      let one (s : State) (l : Nat) : State :=
        let id := ((ids.find? fun x => x.1 == caskSlot l).map (·.2)).getD 0
        let own := (List.range 64).filter fun b => decide (a ≤ l + b) && decide (l + b < a + n)
        let mask := own.foldl (fun m b => m + 2 ^ b) 0
        let data := (List.range 64).map fun b => if own.contains b then k.body.getD (l + b - a) 0#8 else 0#8
        s.agentSend ⟨.host p k.tag.toNat, s.hostAgent p, caskLocal id, caskLine l, if rd then .rdNc else .wrNc,
          BitVec.ofNat 64 (if rd then 0 else mask), if rd then [] else data, 0⟩ id tenant
      (lines.foldl one s).wakeJobs

/-- R419 to R421, R442, R485: a RD or WR is performed, and its credit is freed. -/
def State.performHost (s : State) (p : Nat) (r : HostReq) : State :=
  let k := r.pkt
  let t := r.type
  let s :=
    if s.bootState = bootRecovery then s.sendCpl p k .denied []
    else if s.chipFenced then s.answerHost p t k .fenced []
    else if !r.passed then (s.addF F.NL_TXN_ERR_DENIED p 1).answerHost p t k .denied []
    else match devWindow (pktAddr k) with
      | some 0 => s.hostReg p t k
      | some 1 => s.hostMem p t k
      | some 2 => s.hostCask p t k
      | _ => s.hostDebug p t k
  s.nlFree p (rxClass t k.np)

/-- The first waiting packet of each port, where it need not wait. -/
def State.hostHeads (s : State) : List (Nat × HostReq) :=
  [0, 1].filterMap fun p => match (s.nl p).inq with
    | r :: _ => if s.hostWaits r then none else some (p, r)
    | [] => none

/-- R114: which of two waiting packets goes first: in one stack reads before writes, after READ_RATIO reads one write, else by
arrival. -/
def State.firstOf (s : State) (reads : Nat) (x y : Nat × HostReq) : Nat × HostReq :=
  let sx := s.stackOf (pktAddr x.2.pkt)
  let ratio := s.f F.PRESS_SHARE_READ_RATIO sx
  let older := if x.2.arrived ≤ y.2.arrived then x else y
  if inHbm (pktAddr x.2.pkt) 1 && inHbm (pktAddr y.2.pkt) 1 && sx == s.stackOf (pktAddr y.2.pkt) && ratio != 0 && x.2.type != y.2.type then
    let wantRead := decide (reads < ratio)
    if (x.2.type == 1) == wantRead then x else y
  else older

/-- R114: the reads that a stack has served since it last served a write, after one more access. -/
def State.countRead (s : State) (reads : SMap Nat) (x : HostReq) : SMap Nat :=
  if inHbm (pktAddr x.pkt) 1 then
    let st := s.stackOf (pktAddr x.pkt)
    SMap.put 0 reads st (if x.type = 1 then SMap.get 0 reads st + 1 else 0)
  else reads

/-- R114, R419: packets that need not wait are performed, as many as given, each port's in order. -/
def State.serveHosts : Nat → SMap Nat → State → State
  | 0, _, s => s
  | fuel + 1, reads, s =>
    let go (x : Nat × HostReq) : State :=
      State.serveHosts fuel (s.countRead reads x.2) ((s.setNl x.1 fun n => { n with inq := n.inq.drop 1 }).performHost x.1 x.2)
    match s.hostHeads with
    | [] => s
    | [x] => go x
    | x :: y :: _ => go (s.firstOf (SMap.get 0 reads (s.stackOf (pktAddr x.2.pkt))) x y)

/-- The packets that wait are served as far as they may go. -/
def State.serveWaiting (s : State) : State := State.serveHosts (s.nl0.inq.length + s.nl1.inq.length) [] s

/-- R114: the gap after a window: at most GAP_MAX packets, one in each press cycle, are served before the next window of the unit
is granted (log entry 302). -/
def State.gap (s : State) (u : Nat) : State :=
  State.serveHosts (min (s.f F.PRESS_SHARE_GAP_MAX (u / 64)) (s.nl0.inq.length + s.nl1.inq.length)) [] s

/-- R419: a RD or WR that arrived joins its port's queue; one to window 2 is performed at once (R294). -/
def State.takeAccess (s : State) (p type : Nat) (k : Packet) : State :=
  let ok := s.windowOk (16 * p + k.win.toNat) (pktAddr k) (accessLen type k) (type == 1) (type == 2)
  let (s, n) := s.draw
  let r : HostReq := ⟨type, n, ok, k⟩
  if devWindow (pktAddr k) = some 2 then s.performHost p r
  else (s.setNl p fun x => { x with inq := x.inq ++ [r] }).serveWaiting

/-! Coherence messages of the host (R420, R424, R425) -/

/-- The answer to a coherence request that goes no further. -/
def State.cohRefuse (s : State) (p : Nat) (k : Packet) (code : Code) : State :=
  match LineOp.ofCode (byteAt k.body 0) with
  | none => s
  | some op =>
    let msg := match op with | .rdS | .rdM | .rdNc => 0x20 | _ => 0x21
    s.sendPacket p ⟨4, 0, s.cplGen k, (pktAddr k), leBytes 1 msg ++ leBytes 1 code.num ++ zeros 6⟩

/-- R425: what a message of the host must look like: a code of R291 that an agent sends, at the length it has. -/
def cohFits (k : Packet) : Bool :=
  let n := k.body.length
  match byteAt k.body 0 with
  | 4 => n == 80
  | 5 => n == 72
  | 0x12 => n == 8 || n == 72
  | c => (c == 1 || c == 2 || c == 3 || c == 6) && n == 8

/-- R282: which permissions a request needs. WB, DROP and snoop answers give a copy back, and are not checked again. -/
def cohNeeds (code : Nat) : Bool × Bool :=
  match code with
  | 1 => (true, false)
  | 2 => (true, true)
  | 3 => (true, false)
  | 4 => (false, true)
  | _ => (false, false)

/-- R425: a message of the host goes to the lender of its cask, with its generation (R426). -/
def State.cohForward (s : State) (p : Nat) (k : Packet) (id tenant : Nat) : State :=
  let a := s.hostAgent p
  let line := caskLine (pktAddr k)
  let code := byteAt k.body 0
  let gen := k.gen.toNat
  let d := slice k.body (if code = 4 then 16 else 8) 64
  match LineOp.ofCode code with
  | none =>
    let ans : SnoopAns := if k.body.length = 72 then .withLine d else .without
    if caskLender id = s.self then (s.snoopFrom a id line gen ans).wakeJobs
    else s.toPeer (caskLender id) id line a 0x12 0 0 gen 1 (if k.body.length = 72 then some d else none)
  | some op =>
    let mask := if code = 4 then leAt k.body 8 8 else 0
    let r : LineReq := ⟨.agent, a, caskLocal id, line, op, BitVec.ofNat 64 mask, if code = 4 ∨ code = 5 then d else [], 0⟩
    if caskLender id = s.self then (s.fromAgent a id line gen 0 op r.mask r.data).wakeJobs
    else if s.pool.lost.contains a then s.addF F.DIR_STAT_LATE_DROP 0 1
    else if !s.peerOk (caskLender id) then s.cohRefuse p k .fenced
    else
      let q := s.reqQueue tenant
      (s.setPool fun x => { x with sent := x.sent ++ [{ r with cask := id, queue := q }] }).toPeer (caskLender id) id line a code 0 mask
        gen q (if code = 4 ∨ code = 5 then some d else none)

/-- R420, R425, R442: a COH packet of the host. -/
def State.takeCoh (s : State) (p : Nat) (k : Packet) : State :=
  let code := byteAt k.body 0
  let w := 16 * p + k.win.toNat
  let (rd, wr) := cohNeeds code
  let tenant := s.f F.NL_WIN_CFG_TENANT w
  if !cohFits k then s.addF F.NL_TXN_ERR_MALFORMED p 1
  else if s.chipFenced then s.cohRefuse p k .fenced
  else if !s.windowOk w (pktAddr k) 64 rd wr || devWindow (pktAddr k) != some 2 then (s.addF F.NL_TXN_ERR_DENIED p 1).cohRefuse p k .denied
  else if rd || wr then
    match s.caskCheck (caskSlot (pktAddr k)) tenant rd wr with
    | (s, none) => s.cohRefuse p k .denied
    | (s, some id) => s.cohForward p k id tenant
  else
    let (s, e) := s.catEntry (caskSlot (pktAddr k))
    s.cohForward p k (leAt e 0 4) tenant

/-! Management messages (R485, R490) -/

/-- R485: a MGMT body: class, reserved bytes, message. -/
def State.takeMgmt (s : State) (p : Nat) (k : Packet) : State :=
  let b := k.body
  let tag := k.tag.toNat
  let bad := s.mgmtCpl p tag .invalidArg []
  if b.length < 9 || !allZero b 1 7 then bad
  else if byteAt b 0 = 1 then s.spdmMessage (.nahel (p == 1)) tag (b.drop 8)
  else if byteAt b 0 ≠ 2 then bad
  else match byteAt b 8 with
    | 1 => s.rcvStatus p tag
    | 2 => if b.length < 16 then bad else s.rcvWrite p tag (leAt b 12 4) (b.drop 16)
    | 3 => if b.length < 13 || !allZero b 9 3 then bad else s.rcvRun p tag (bit (byteAt b 12) 0)
    | _ => bad

/-! Packets by type -/

/-- R417, R418: what a packet of each type does; a CPL answers nothing that the node sends. -/
def State.packetIn (s : State) (p type : Nat) (k : Packet) : State :=
  s.takePacket p type k fun s =>
    match type with
    | 1 => s.takeAccess p 1 k
    | 2 => s.takeAccess p 2 k
    | 4 => (s.takeCoh p k).nlFree p (some 2)
    | 5 => (s.addF F.NL_TXN_ERR_MALFORMED p 1).nlFree p (some 0)
    | 6 => (s.takeMgmt p k).nlFree p (some 1)
    | 7 => s.takeCredit p k
    | _ => s

/-- RD_PACKET: R419 to R421. -/
def execRdPacket (p : BitVec 1) (k : Packet) (s : State) : Host.Outcome State Fault Refusal :=
  gated s fun s => s.packetIn p.toNat 1 k

/-- WR_PACKET: R419 to R421. -/
def execWrPacket (p : BitVec 1) (k : Packet) (s : State) : Host.Outcome State Fault Refusal :=
  gated s fun s => s.packetIn p.toNat 2 k

/-- COH_PACKET: R420, R425. -/
def execCohPacket (p : BitVec 1) (k : Packet) (s : State) : Host.Outcome State Fault Refusal :=
  gated s fun s => s.packetIn p.toNat 4 k

/-- MGMT_PACKET: R485 to R487, R490. -/
def execMgmtPacket (p : BitVec 1) (k : Packet) (s : State) : Host.Outcome State Fault Refusal :=
  gated s fun s => s.packetIn p.toNat 6 k

/-! Flits (R415, R416) -/

/-- R418: a packet's header and body. -/
def packetOf (b : Bytes) : Packet :=
  let f := byteAt b 1
  let n := leAt b 2 2
  ⟨BitVec.ofNat 4 f, bit f 4, BitVec.ofNat 3 (f / 32), BitVec.ofNat 16 n, BitVec.ofNat 16 (leAt b 4 2), BitVec.ofNat 16 (leAt b 6 2),
    BitVec.ofNat 64 (leAt b 8 8), slice b 16 (n % 8192)⟩

/-- R418: header, body and padding. -/
def packetBytes (b : Bytes) : Nat := 16 + ceilDiv (leAt b 2 2 % 8192) 8 * 8

/-- R415: the packets that the stream of a port holds whole; a zero TYPE byte ends the flit's packets. -/
def State.readStream : Nat → State → Nat → State
  | 0, s, _ => s
  | fuel + 1, s, p =>
    let b := (s.nl p).stream
    if b = [] then s
    else if byteAt b 0 = 0 then s.setNl p fun n => { n with stream := [] }
    else if b.length < 16 ∨ b.length < packetBytes b then s
    else
      State.readStream fuel ((s.setNl p fun n => { n with stream := b.drop (packetBytes b) }).packetIn p (byteAt b 0) (packetOf b)) p

/-- The payload of a DATA flit in order joins the stream. -/
def State.takePayload (p : Nat) (s : State) (d : Bytes) : State :=
  let s := s.setNl p fun n => { n with stream := n.stream ++ d }
  State.readStream (s.nl p).stream.length s p

/-- DATA_FLIT: R415, R416. -/
def execDataFlit (p : BitVec 1) (flit : Bytes) (s : State) : Host.Outcome State Fault Refusal :=
  gated s fun s => s.takeFlit p.toNat flit (State.takePayload p.toNat)

/-- IDLE_FLIT: R415, R416. -/
def execIdleFlit (p : BitVec 1) (flit : Bytes) (s : State) : Host.Outcome State Fault Refusal :=
  gated s fun s => s.takeFlit p.toNat flit (State.takePayload p.toNat)

/-- NAK_FLIT: R415, R416. -/
def execNakFlit (p : BitVec 1) (flit : Bytes) (s : State) : Host.Outcome State Fault Refusal :=
  gated s fun s => s.takeFlit p.toNat flit (State.takePayload p.toNat)

/-! Rows that let waiting packets go on -/

/-- WINDOW_END: R111, R112, R114: the window ends, waiting packets are served in the gap, and the next window is granted. -/
def execWindowEnd (u : BitVec 9) (s : State) : Host.Outcome State Fault Refusal :=
  gated s fun s =>
    if (s.pu u.toNat).win.isNone then s
    else (State.grantPress 65 ((s.endWindow u.toNat).gap u.toNat) u.toNat).serveWaiting

/-- FENCE_DRAIN_END: R441, R444: a reset of a press block gives its banks back. -/
def execFenceDrainEnd (d : Domain) (s : State) : Host.Outcome State Fault Refusal :=
  gated s fun s => (s.fenceDrainEnd d).serveWaiting

/-- UNFENCE: R333, R441, R445. -/
def execUnfence (d : Domain) (s : State) : Host.Outcome State Fault Refusal :=
  gated s fun s => (s.unfence d).serveWaiting

/-- STACK_RETRAIN_END: R433: accesses to the stack go on. -/
def execStackRetrainEnd (st : BitVec 3) (ok : Bool) (s : State) : Host.Outcome State Fault Refusal :=
  gated s fun s => (s.stackRetrainEnd st ok).serveWaiting

end Sys2Proof.Machine
end

