-- ==== Sys2Proof/Machine/RegRows.lean ====
section
/-! DEFINITION. The commands that are writes of one register: each performs that write, with all that R9, R10 and R556 say of
it, and the action that its rule gives it follows. A row that names no value writes the bits that its rule names. -/
namespace Sys2Proof.Machine

/-! Indexes and vintages -/

/-- INDEX_ENABLE: R56, R63, R91, R162. -/
def execIndexEnable (src : Src) (i : BitVec 12) (v : Word) (s : State) : Host.Outcome State Fault Refusal :=
  gated s fun s => s.writeReg src .vintIdxCfg i.toNat v.toNat

/-- INDEX_DISABLE: R91, R95. -/
def execIndexDisable (src : Src) (i : BitVec 12) (v : Word) (s : State) : Host.Outcome State Fault Refusal :=
  gated s fun s => s.writeReg src .vintIdxCfg i.toNat v.toNat

/-- VINT_CLOSE: R75, R96. -/
def execVintClose (src : Src) (v : Word) (s : State) : Host.Outcome State Fault Refusal :=
  gated s fun s => s.writeReg src .vintClose 0 v.toNat

/-! The cellar -/

/-- CHANNEL_START: R239, R240. -/
def execChannelStart (src : Src) (c : BitVec 6) (v : Word) (s : State) : Host.Outcome State Fault Refusal :=
  gated s fun s => s.writeReg src .cellarChCfg c.toNat v.toNat

/-- CHANNEL_STOP: R553. -/
def execChannelStop (src : Src) (c : BitVec 6) (v : Word) (s : State) : Host.Outcome State Fault Refusal :=
  gated s fun s => s.writeReg src .cellarChCfg c.toNat v.toNat

/-- CELLAR_START: R250, R560. -/
def execCellarStart (src : Src) (v : Word) (s : State) : Host.Outcome State Fault Refusal :=
  gated s fun s => s.writeReg src .cellarCfg 0 v.toNat

/-- NAMESPACE_ENABLE: R248. -/
def execNamespaceEnable (src : Src) (n : BitVec 12) (s : State) : Host.Outcome State Fault Refusal :=
  gated s fun s =>
    let j := n.toNat / 64
    s.writeReg src .cellarNsEn j (setBit (s.reg .cellarNsEn j) (n.toNat % 64) true)

/-- NAMESPACE_DISABLE: R248. -/
def execNamespaceDisable (src : Src) (n : BitVec 12) (s : State) : Host.Outcome State Fault Refusal :=
  gated s fun s =>
    let j := n.toNat / 64
    s.writeReg src .cellarNsEn j (setBit (s.reg .cellarNsEn j) (n.toNat % 64) false)

/-- LOG_TRIM_WRITE: R261, R273. -/
def execLogTrimWrite (src : Src) (v : Word) (s : State) : Host.Outcome State Fault Refusal :=
  gated s fun s => s.writeReg src .cellarLogTrim 0 v.toNat

/-! The pool -/

/-- AGENT_LOST: R296, R310. -/
def execAgentLost (src : Src) (agent : BitVec 18) (s : State) : Host.Outcome State Fault Refusal :=
  gated s fun s => s.writeReg src .poolAgentLost 0 agent.toNat

/-- POOL_CAT_INVAL: R283, R310. -/
def execPoolCatInval (src : Src) (v : Word) (s : State) : Host.Outcome State Fault Refusal :=
  gated s fun s => s.writeReg src .poolCatInval 0 v.toNat

/-! Trellis images -/

/-- TRELLIS_LOAD: R330, R333, R335. -/
def execTrellisLoad (src : Src) (n : BitVec 3) (v : Word) (s : State) : Host.Outcome State Fault Refusal :=
  gated s fun s => s.writeReg src .trlCtl n.toNat v.toNat

/-- TRELLIS_UNLOAD: R330, R333, R335. -/
def execTrellisUnload (src : Src) (n : BitVec 3) (v : Word) (s : State) : Host.Outcome State Fault Refusal :=
  gated s fun s => s.writeReg src .trlCtl n.toNat v.toNat

/-! Contexts -/

/-- CONTEXT_ENABLE: R341. -/
def execContextEnable (src : Src) (c : BitVec 12) (v : Word) (s : State) : Host.Outcome State Fault Refusal :=
  gated s fun s => s.writeReg src .ctxCfg c.toNat v.toNat

/-- CONTEXT_DISABLE: R348. -/
def execContextDisable (src : Src) (c : BitVec 12) (v : Word) (s : State) : Host.Outcome State Fault Refusal :=
  gated s fun s => s.writeReg src .ctxCfg c.toNat v.toNat

/-- PREEMPT: R350, R351, R367. -/
def execPreempt (src : Src) (c : BitVec 12) (s : State) : Host.Outcome State Fault Refusal :=
  gated s fun s => s.writeReg src .ctxCtl c.toNat 1

/-- RESUME: R352, R353, R367. -/
def execResume (src : Src) (c : BitVec 12) (s : State) : Host.Outcome State Fault Refusal :=
  gated s fun s => s.writeReg src .ctxCtl c.toNat 2

/-- ABORT: R348, R367. -/
def execAbort (src : Src) (c : BitVec 12) (s : State) : Host.Outcome State Fault Refusal :=
  gated s fun s => s.writeReg src .ctxCtl c.toNat 4

/-- CONTEXT_RESET: R354, R367. -/
def execContextReset (src : Src) (c : BitVec 12) (s : State) : Host.Outcome State Fault Refusal :=
  gated s fun s => s.writeReg src .ctxCtl c.toNat 8

/-- DOORBELL: R343, R366. -/
def execDoorbell (src : Src) (c : BitVec 12) (v : Word) (s : State) : Host.Outcome State Fault Refusal :=
  gated s fun s => s.writeReg src .ctxDb c.toNat v.toNat

/-- CTX_TLB_INVAL: R347, R366. -/
def execCtxTlbInval (src : Src) (v : Word) (s : State) : Host.Outcome State Fault Refusal :=
  gated s fun s => s.writeReg src .ctxTlbInval 0 v.toNat

/-! The fabric -/

/-- ADMIT: R379, R403. -/
def execAdmitPeer (src : Src) (node : BitVec 16) (s : State) : Host.Outcome State Fault Refusal :=
  gated s fun s => s.writeReg src .fabPeerCtl 0 (node.toNat + 2 ^ 16)

/-- LOST: R393, R403. -/
def execLost (cause : LostCause) (node : BitVec 16) (s : State) : Host.Outcome State Fault Refusal :=
  gated s fun s => match cause with
    | .register src => s.writeReg src .fabPeerCtl 0 (node.toNat + 2 ^ 17)
    | .silence => s.silentPeer node.toNat

/-- FABRIC_PORT_ENABLE: R371, R401. -/
def execFabricPortEnable (src : Src) (p : BitVec 4) (v : Word) (s : State) : Host.Outcome State Fault Refusal :=
  gated s fun s => s.writeReg src .fabPortCfg p.toNat v.toNat

/-- FAB_QUEUE_WRITE: R383. -/
def execFabQueueWrite (src : Src) (i : BitVec 9) (v : Word) (s : State) : Host.Outcome State Fault Refusal :=
  gated s fun s => s.writeReg src .fabQueue i.toNat v.toNat

/-- FAB_SHAPE_WRITE: R384. -/
def execFabShapeWrite (src : Src) (i : BitVec 5) (v : Word) (s : State) : Host.Outcome State Fault Refusal :=
  gated s fun s => s.writeReg src .fabShape i.toNat v.toNat

/-- FAB_POLICE_WRITE: R385. -/
def execFabPoliceWrite (src : Src) (i : BitVec 5) (v : Word) (s : State) : Host.Outcome State Fault Refusal :=
  gated s fun s => s.writeReg src .fabPolice i.toNat v.toNat

/-- INSTALL: R389, R409. -/
def execInstall (src : Src) (n : BitVec 6) (s : State) : Host.Outcome State Fault Refusal :=
  gated s fun s => s.writeReg src .fabCompCtl n.toNat 1

/-- REMOVE: R389, R409. -/
def execRemove (src : Src) (n : BitVec 6) (s : State) : Host.Outcome State Fault Refusal :=
  gated s fun s => s.writeReg src .fabCompCtl n.toNat 2

/-- COMPOSITION_RESET: R397, R409. -/
def execCompositionReset (src : Src) (n : BitVec 6) (s : State) : Host.Outcome State Fault Refusal :=
  gated s fun s => s.writeReg src .fabCompCtl n.toNat 4

/-! Nahel ports -/

/-- NAHEL_PORT_ENABLE: R413, R414, R428. -/
def execNahelPortEnable (src : Src) (p : BitVec 1) (v : Word) (s : State) : Host.Outcome State Fault Refusal :=
  gated s fun s => s.writeReg src .nlPortCfg p.toNat v.toNat

/-- NAHEL_PORT_DISABLE: R414, R428. -/
def execNahelPortDisable (src : Src) (p : BitVec 1) (v : Word) (s : State) : Host.Outcome State Fault Refusal :=
  gated s fun s => s.writeReg src .nlPortCfg p.toNat v.toNat

/-! Faults, resets and recovery -/

/-- KICK: R436, R459. -/
def execKick (src : Src) (s : State) : Host.Outcome State Fault Refusal :=
  gated s fun s => s.writeReg src .fltKick 0 1

/-- R459: FLT_RESET with one bit, a TARGET and a PARTITION; the other RW field stays. -/
def State.resetWord (s : State) (b : Nat) (target part : Option Nat) : Nat :=
  2 ^ b + (target.getD (s.f F.FLT_RESET_TARGET 0)) * 2 ^ 8 + (part.getD (s.f F.FLT_RESET_PARTITION 0)) * 2 ^ 16

/-- ENGINE: R433, R444, R459. -/
def execEngine (cause : ResetCause) (target : BitVec 7) (s : State) : Host.Outcome State Fault Refusal :=
  gated s fun s => match cause with
    | .register src => s.writeReg src .fltReset 0 (s.resetWord 0 (some target.toNat) none)
    | .trunc => if 64 ≤ target.toNat ∧ target.toNat < 72 then (s.trunc (target.toNat - 64)).serveWaiting else s
    | .unitOut => s
    | .stage c q => s.stageFault target.toNat c.toNat q.toNat

/-- PART: R433, R438, R445, R459. -/
def execPart (cause : ResetCause) (n : BitVec 3) (s : State) : Host.Outcome State Fault Refusal :=
  gated s fun s => match cause with
    | .register src => s.writeReg src .fltReset 0 (s.resetWord 1 none (some n.toNat))
    | .unitOut => s.unitOut n.toNat
    | .trunc | .stage _ _ => s

/-- CHIP: R433, R439, R459. -/
def execChip (cause : ChipCause) (s : State) : Host.Outcome State Fault Refusal :=
  gated s fun s => match cause with
    | .register src => s.writeReg src .fltReset 0 (s.resetWord 2 none none)
    | .ctlState => s.raise .chip 0x0E false 0

/-- PCYC: R440, R459. -/
def execPcyc (src : Src) (s : State) : Host.Outcome State Fault Refusal :=
  gated s fun s => s.writeReg src .fltReset 0 (s.resetWord 3 none none)

/-- SELFTEST: R445, R459. -/
def execSelftest (src : Src) (s : State) : Host.Outcome State Fault Refusal :=
  gated s fun s => s.writeReg src .fltReset 0 (s.resetWord 4 none none)

/-- R464: FLT_CKPT with GO. -/
def ckptWord (op i ns : Nat) : Nat := 1 + op * 2 + i * 2 ^ 4 + ns * 2 ^ 16

/-- CHECKPOINT: R452, R464. -/
def execCheckpoint (src : Src) (i : BitVec 12) (ns : BitVec 12) (s : State) : Host.Outcome State Fault Refusal :=
  gated s fun s => s.writeReg src .fltCkpt 0 (ckptWord 1 i.toNat ns.toNat)

/-- RESTORE: R454, R464. -/
def execRestore (src : Src) (i : BitVec 12) (ns : BitVec 12) (s : State) : Host.Outcome State Fault Refusal :=
  gated s fun s => s.writeReg src .fltCkpt 0 (ckptWord 2 i.toNat ns.toNat)

/-- RESTORE_REPLAY: R454, R464. -/
def execRestoreReplay (src : Src) (i : BitVec 12) (ns : BitVec 12) (s : State) : Host.Outcome State Fault Refusal :=
  gated s fun s => s.writeReg src .fltCkpt 0 (ckptWord 3 i.toNat ns.toNat)

/-- HOLD: R456. -/
def execHold (src : Src) (n : BitVec 6) (v : Word) (s : State) : Host.Outcome State Fault Refusal :=
  gated s fun s => s.writeReg src .fltAdmit n.toNat v.toNat

/-! Embedding tables -/

/-- TABLE_ENABLE: R215, R233. -/
def execTableEnable (src : Src) (t : BitVec 10) (s : State) : Host.Outcome State Fault Refusal :=
  gated s fun s =>
    let j := t.toNat / 64
    s.writeReg src .tileEmbEn j (setBit (s.reg .tileEmbEn j) (t.toNat % 64) true)

/-! Fuses -/

/-- ADVANCE: R487, R496: ADV and GO with a TARGET. -/
def execAdvance (src : Src) (target : BitVec 7) (s : State) : Host.Outcome State Fault Refusal :=
  gated s fun s => s.writeReg src .secFuseProg 0 (target.toNat + 2 ^ 7 + 2 ^ 12)

/-- REVOKE: R487, R496: a mask of slots and GO. -/
def execRevoke (src : Src) (mask : BitVec 4) (s : State) : Host.Outcome State Fault Refusal :=
  gated s fun s => s.writeReg src .secFuseProg 0 (mask.toNat * 2 ^ 8 + 2 ^ 12)

/-! Clocks -/

/-- CLK_WAKE: R501, R513. -/
def execClkWake (src : Src) (v : Word) (s : State) : Host.Outcome State Fault Refusal :=
  gated s fun s => s.writeReg src .clkWake 0 v.toNat

end Sys2Proof.Machine
end

