-- ==== Sys2Proof/Machine/Dispatch.lean ====
section
/-! DEFINITION. What each command does: one arm per constructor, each a direct call of its meaning. -/
namespace Sys2Proof.Machine

/-- The effect of a command on everything but the queue. -/
def exec (i : Instr) (s : State) : Host.Outcome State Fault Refusal :=
  match i with
  | .takeDescriptor c => Sys2Proof.Machine.execTakeDescriptor c s
  | .writeCompletion c => Sys2Proof.Machine.execWriteCompletion c s
  | .insert c q => Sys2Proof.Machine.execInsert c q s
  | .delete c q => Sys2Proof.Machine.execDelete c q s
  | .batch c q => Sys2Proof.Machine.execBatch c q s
  | .pin c q => Sys2Proof.Machine.execPin c q s
  | .unpin c q => Sys2Proof.Machine.execUnpin c q s
  | .search c q => Sys2Proof.Machine.execSearch c q s
  | .searchGraph c q => Sys2Proof.Machine.execSearchGraph c q s
  | .searchDelete c q => Sys2Proof.Machine.execSearchDelete c q s
  | .select c q => Sys2Proof.Machine.execSelect c q s
  | .attend c q => Sys2Proof.Machine.execAttend c q s
  | .attendBwd c q => Sys2Proof.Machine.execAttendBwd c q s
  | .gather c q => Sys2Proof.Machine.execGather c q s
  | .scatter c q => Sys2Proof.Machine.execScatter c q s
  | .rowWrite c q => Sys2Proof.Machine.execRowWrite c q s
  | .publish c q => Sys2Proof.Machine.execPublish c q s
  | .cellarRead c q => Sys2Proof.Machine.execCellarRead c q s
  | .cellarWrite c q => Sys2Proof.Machine.execCellarWrite c q s
  | .cellarDiscard c q => Sys2Proof.Machine.execCellarDiscard c q s
  | .caskHint c q => Sys2Proof.Machine.execCaskHint c q s
  | .caskFlush c q => Sys2Proof.Machine.execCaskFlush c q s
  | .caskLend c q => Sys2Proof.Machine.execCaskLend c q s
  | .caskReclaim c q => Sys2Proof.Machine.execCaskReclaim c q s
  | .caskWithdraw c q => Sys2Proof.Machine.execCaskWithdraw c q s
  | .syncArm c q => Sys2Proof.Machine.execSyncArm c q s
  | .syncArrive c q => Sys2Proof.Machine.execSyncArrive c q s
  | .syncWait c q => Sys2Proof.Machine.execSyncWait c q s
  | .syncDisarm c q => Sys2Proof.Machine.execSyncDisarm c q s
  | .syncPost c q => Sys2Proof.Machine.execSyncPost c q s
  | .syncTake c q => Sys2Proof.Machine.execSyncTake c q s
  | .broadcast c q => Sys2Proof.Machine.execBroadcast c q s
  | .passGroupTimeout c q => Sys2Proof.Machine.execPassGroupTimeout c q s
  | .scan t u cmd => Sys2Proof.Machine.execScan t u cmd s
  | .attn t u cmd => Sys2Proof.Machine.execAttn t u cmd s
  | .qk t u cmd => Sys2Proof.Machine.execQk t u cmd s
  | .write t u cmd data enables => Sys2Proof.Machine.execWrite t u cmd data enables s
  | .rack t u cmd => Sys2Proof.Machine.execRack t u cmd s
  | .lutLoad t st cmd data => Sys2Proof.Machine.execLutLoad t st cmd data s
  | .discard t u cmd => Sys2Proof.Machine.execDiscard t u cmd s
  | .windowGrant u => Sys2Proof.Machine.execWindowGrant u s
  | .windowEnd u => Sys2Proof.Machine.execWindowEnd u s
  | .accountingPeriod st => Sys2Proof.Machine.execAccountingPeriod st s
  | .refresh u bank => Sys2Proof.Machine.execRefresh u bank s
  | .correctedRewrite u => Sys2Proof.Machine.execCorrectedRewrite u s
  | .indexEnable src ix v => Sys2Proof.Machine.execIndexEnable src ix v s
  | .indexDisable src ix v => Sys2Proof.Machine.execIndexDisable src ix v s
  | .vintClose src v => Sys2Proof.Machine.execVintClose src v s
  | .closeInterval ix => Sys2Proof.Machine.execCloseInterval ix s
  | .close ix => Sys2Proof.Machine.execClose ix s
  | .vintagePublish ix => Sys2Proof.Machine.execVintagePublish ix s
  | .vintageDurable ix => Sys2Proof.Machine.execVintageDurable ix s
  | .pinRevoke ix h => Sys2Proof.Machine.execPinRevoke ix h s
  | .requestRevoke c q => Sys2Proof.Machine.execRequestRevoke c q s
  | .racking ix at_ => Sys2Proof.Machine.execRacking ix at_ s
  | .ageRebase ix at_ => Sys2Proof.Machine.execAgeRebase ix at_ s
  | .spillMove ix at_ slot => Sys2Proof.Machine.execSpillMove ix at_ slot s
  | .blockFree u b => Sys2Proof.Machine.execBlockFree u b s
  | .blockRepair ix at_ => Sys2Proof.Machine.execBlockRepair ix at_ s
  | .spillWaitTimeout c q => Sys2Proof.Machine.execSpillWaitTimeout c q s
  | .logWaitTimeout c q => Sys2Proof.Machine.execLogWaitTimeout c q s
  | .logFlush => Sys2Proof.Machine.execLogFlush s
  | .channelStart src c v => Sys2Proof.Machine.execChannelStart src c v s
  | .channelTrainingEnd c targets trained => Sys2Proof.Machine.execChannelTrainingEnd c targets trained s
  | .channelStop src c v => Sys2Proof.Machine.execChannelStop src c v s
  | .failedRun c => Sys2Proof.Machine.execFailedRun c s
  | .cellarStart src v => Sys2Proof.Machine.execCellarStart src v s
  | .cellarStartEnd => Sys2Proof.Machine.execCellarStartEnd s
  | .namespaceEnable src n => Sys2Proof.Machine.execNamespaceEnable src n s
  | .namespaceDisable src n => Sys2Proof.Machine.execNamespaceDisable src n s
  | .lunDispatch c tg lun => Sys2Proof.Machine.execLunDispatch c tg lun s
  | .frameReadDone c tg lun o => Sys2Proof.Machine.execFrameReadDone c tg lun o s
  | .readDeadline id => Sys2Proof.Machine.execReadDeadline id s
  | .programDone c tg lun => Sys2Proof.Machine.execProgramDone c tg lun s
  | .programFailure c tg lun => Sys2Proof.Machine.execProgramFailure c tg lun s
  | .eraseDone c tg lun ok => Sys2Proof.Machine.execEraseDone c tg lun ok s
  | .garbageCollection => Sys2Proof.Machine.execGarbageCollection s
  | .wearLevelling => Sys2Proof.Machine.execWearLevelling s
  | .superblockVerify sb reads => Sys2Proof.Machine.execSuperblockVerify sb reads s
  | .mapSegmentFlush => Sys2Proof.Machine.execMapSegmentFlush s
  | .zqShortCalibration c => Sys2Proof.Machine.execZqShortCalibration c s
  | .temperatureSample temps => Sys2Proof.Machine.execTemperatureSample temps s
  | .debugWindowAccess src addr len wr => Sys2Proof.Machine.execDebugWindowAccess src addr len wr s
  | .logTrimWrite src v => Sys2Proof.Machine.execLogTrimWrite src v s
  | .rdS agent cask line gen => Sys2Proof.Machine.execRdS agent cask line gen s
  | .rdM agent cask line gen => Sys2Proof.Machine.execRdM agent cask line gen s
  | .rdNc agent cask line gen => Sys2Proof.Machine.execRdNc agent cask line gen s
  | .wrNc agent cask line gen mask data => Sys2Proof.Machine.execWrNc agent cask line gen mask data s
  | .wb agent cask line gen data => Sys2Proof.Machine.execWb agent cask line gen data s
  | .drop agent cask line gen => Sys2Proof.Machine.execDrop agent cask line gen s
  | .snpInv lender cask line => Sys2Proof.Machine.execSnpInv lender cask line s
  | .snpData lender cask line => Sys2Proof.Machine.execSnpData lender cask line s
  | .snpAck agent cask line gen ans => Sys2Proof.Machine.execSnpAck agent cask line gen ans s
  | .data cask line status bytes => Sys2Proof.Machine.execData cask line status bytes s
  | .cmp cask line status => Sys2Proof.Machine.execCmp cask line status s
  | .recallTimeout agent cask line => Sys2Proof.Machine.execRecallTimeout agent cask line s
  | .agentLost src agent => Sys2Proof.Machine.execAgentLost src agent s
  | .poolCatInval src v => Sys2Proof.Machine.execPoolCatInval src v s
  | .pageFetch cask page => Sys2Proof.Machine.execPageFetch cask page s
  | .pageFetchDone cask page => Sys2Proof.Machine.execPageFetchDone cask page s
  | .pageEviction => Sys2Proof.Machine.execPageEviction s
  | .counterHalving => Sys2Proof.Machine.execCounterHalving s
  | .fetchTimeout cask page => Sys2Proof.Machine.execFetchTimeout cask page s
  | .drainTimeout cask => Sys2Proof.Machine.execDrainTimeout cask s
  | .trellisLoad src n v => Sys2Proof.Machine.execTrellisLoad src n v s
  | .trellisUnload src n v => Sys2Proof.Machine.execTrellisUnload src n v s
  | .verifyDone n => Sys2Proof.Machine.execVerifyDone n s
  | .drainEnd n => Sys2Proof.Machine.execDrainEnd n s
  | .programEnd n => Sys2Proof.Machine.execProgramEnd n s
  | .contextEnable src c v => Sys2Proof.Machine.execContextEnable src c v s
  | .contextDisable src c v => Sys2Proof.Machine.execContextDisable src c v s
  | .preempt src c => Sys2Proof.Machine.execPreempt src c s
  | .suspendDone c => Sys2Proof.Machine.execSuspendDone c s
  | .resume src c => Sys2Proof.Machine.execResume src c s
  | .abort src c => Sys2Proof.Machine.execAbort src c s
  | .contextReset src c => Sys2Proof.Machine.execContextReset src c s
  | .doorbell src c v => Sys2Proof.Machine.execDoorbell src c v s
  | .ctxTlbInval src v => Sys2Proof.Machine.execCtxTlbInval src v s
  | .slowdownLatch => Sys2Proof.Machine.execSlowdownLatch s
  | .requestTimeout c q => Sys2Proof.Machine.execRequestTimeout c q s
  | .syncTimeout c q => Sys2Proof.Machine.execSyncTimeout c q s
  | .subreq p f => Sys2Proof.Machine.execSubreq p f s
  | .reply p f => Sys2Proof.Machine.execReply p f s
  | .moved p f => Sys2Proof.Machine.execMoved p f s
  | .coherenceFrame p f => Sys2Proof.Machine.execCoherenceFrame p f s
  | .globalArrive p f => Sys2Proof.Machine.execGlobalArrive p f s
  | .globalRelease p f => Sys2Proof.Machine.execGlobalRelease p f s
  | .closeTrigger p f => Sys2Proof.Machine.execCloseTrigger p f s
  | .prepare p f => Sys2Proof.Machine.execPrepare p f s
  | .prepared p f => Sys2Proof.Machine.execPrepared p f s
  | .commit p f => Sys2Proof.Machine.execCommit p f s
  | .globalReset p f => Sys2Proof.Machine.execGlobalReset p f s
  | .resetDone p f => Sys2Proof.Machine.execResetDone p f s
  | .bcastData p f => Sys2Proof.Machine.execBcastData p f s
  | .bcastDone p f => Sys2Proof.Machine.execBcastDone p f s
  | .ack p f => Sys2Proof.Machine.execAck p f s
  | .nak p f => Sys2Proof.Machine.execNak p f s
  | .keepalive p f => Sys2Proof.Machine.execKeepalive p f s
  | .admitHello p f => Sys2Proof.Machine.execAdmitHello p f s
  | .admitCert p f => Sys2Proof.Machine.execAdmitCert p f s
  | .admitProof p f => Sys2Proof.Machine.execAdmitProof p f s
  | .frameTransmit p => Sys2Proof.Machine.execFrameTransmit p s
  | .retransmitTimeout peer queue => Sys2Proof.Machine.execRetransmitTimeout peer queue s
  | .ackTimer peer queue => Sys2Proof.Machine.execAckTimer peer queue s
  | .keepaliveTimer peer p => Sys2Proof.Machine.execKeepaliveTimer peer p s
  | .subreqTimeout tag => Sys2Proof.Machine.execSubreqTimeout tag s
  | .admitPeer src node => Sys2Proof.Machine.execAdmitPeer src node s
  | .admitTimeout node => Sys2Proof.Machine.execAdmitTimeout node s
  | .lost cause node => Sys2Proof.Machine.execLost cause node s
  | .fabricPortEnable src p v => Sys2Proof.Machine.execFabricPortEnable src p v s
  | .fabricPortFailed p => Sys2Proof.Machine.execFabricPortFailed p s
  | .fabQueueWrite src ix v => Sys2Proof.Machine.execFabQueueWrite src ix v s
  | .fabShapeWrite src ix v => Sys2Proof.Machine.execFabShapeWrite src ix v s
  | .fabPoliceWrite src ix v => Sys2Proof.Machine.execFabPoliceWrite src ix v s
  | .install src n => Sys2Proof.Machine.execInstall src n s
  | .remove src n => Sys2Proof.Machine.execRemove src n s
  | .compositionReset src n => Sys2Proof.Machine.execCompositionReset src n s
  | .epochDrainEnd n => Sys2Proof.Machine.execEpochDrainEnd n s
  | .heldMessageTimeout id => Sys2Proof.Machine.execHeldMessageTimeout id s
  | .nahelPortEnable src p v => Sys2Proof.Machine.execNahelPortEnable src p v s
  | .nahelPortDisable src p v => Sys2Proof.Machine.execNahelPortDisable src p v s
  | .trainingStateEnd p reversed polarity => Sys2Proof.Machine.execTrainingStateEnd p reversed polarity s
  | .trainingTimeout p => Sys2Proof.Machine.execTrainingTimeout p s
  | .dataFlit p flit => Sys2Proof.Machine.execDataFlit p flit s
  | .idleFlit p flit => Sys2Proof.Machine.execIdleFlit p flit s
  | .nakFlit p flit => Sys2Proof.Machine.execNakFlit p flit s
  | .replayTimeout p => Sys2Proof.Machine.execReplayTimeout p s
  | .rdPacket p k => Sys2Proof.Machine.execRdPacket p k s
  | .wrPacket p k => Sys2Proof.Machine.execWrPacket p k s
  | .cohPacket p k => Sys2Proof.Machine.execCohPacket p k s
  | .mgmtPacket p k => Sys2Proof.Machine.execMgmtPacket p k s
  | .credit p k => Sys2Proof.Machine.execCredit p k s
  | .intrReceived p k => Sys2Proof.Machine.execIntrReceived p k s
  | .moderationTimer p vec => Sys2Proof.Machine.execModerationTimer p vec s
  | .status p tag => Sys2Proof.Machine.execStatus p tag s
  | .recoveryWrite p tag offset bytes => Sys2Proof.Machine.execRecoveryWrite p tag offset bytes s
  | .run p tag persist => Sys2Proof.Machine.execRun p tag persist s
  | .getVersion t tag body => Sys2Proof.Machine.execGetVersion t tag body s
  | .getCapabilities t tag body => Sys2Proof.Machine.execGetCapabilities t tag body s
  | .negotiateAlgorithms t tag body => Sys2Proof.Machine.execNegotiateAlgorithms t tag body s
  | .getDigests t tag body => Sys2Proof.Machine.execGetDigests t tag body s
  | .getCertificate t tag slot offset len => Sys2Proof.Machine.execGetCertificate t tag slot offset len s
  | .challenge t tag body => Sys2Proof.Machine.execChallenge t tag body s
  | .getMeasurements t tag index body => Sys2Proof.Machine.execGetMeasurements t tag index body s
  | .entdaa addr => Sys2Proof.Machine.execEntdaa addr s
  | .setEndpointId eid => Sys2Proof.Machine.execSetEndpointId eid s
  | .getEndpointId => Sys2Proof.Machine.execGetEndpointId s
  | .getMctpVersionSupport mtype => Sys2Proof.Machine.execGetMctpVersionSupport mtype s
  | .getMessageTypeSupport => Sys2Proof.Machine.execGetMessageTypeSupport s
  | .contextWatchdog c => Sys2Proof.Machine.execContextWatchdog c s
  | .tileWatchdog cell => Sys2Proof.Machine.execTileWatchdog cell s
  | .partitionWatchdog n => Sys2Proof.Machine.execPartitionWatchdog n s
  | .chipWatchdog => Sys2Proof.Machine.execChipWatchdog s
  | .kick src => Sys2Proof.Machine.execKick src s
  | .engine cause target => Sys2Proof.Machine.execEngine cause target s
  | .part cause n => Sys2Proof.Machine.execPart cause n s
  | .chip cause => Sys2Proof.Machine.execChip cause s
  | .pcyc src => Sys2Proof.Machine.execPcyc src s
  | .selftest src => Sys2Proof.Machine.execSelftest src s
  | .fenceDrainEnd d => Sys2Proof.Machine.execFenceDrainEnd d s
  | .stackRetrain st => Sys2Proof.Machine.execStackRetrain st s
  | .injection j => Sys2Proof.Machine.execInjection j s
  | .checkpoint src ix ns => Sys2Proof.Machine.execCheckpoint src ix ns s
  | .restore src ix ns => Sys2Proof.Machine.execRestore src ix ns s
  | .restoreReplay src ix ns => Sys2Proof.Machine.execRestoreReplay src ix ns s
  | .checkpointRunEnd => Sys2Proof.Machine.execCheckpointRunEnd s
  | .hold src n v => Sys2Proof.Machine.execHold src n v s
  | .holdTimeout id => Sys2Proof.Machine.execHoldTimeout id s
  | .tableEnable src t => Sys2Proof.Machine.execTableEnable src t s
  | .resetNAssert => Sys2Proof.Machine.execResetNAssert s
  | .resetNRelease forceRcv => Sys2Proof.Machine.execResetNRelease forceRcv s
  | .pwrGoodFall => Sys2Proof.Machine.execPwrGoodFall s
  | .pwrGoodRise => Sys2Proof.Machine.execPwrGoodRise s
  | .powerRemoved => Sys2Proof.Machine.execPowerRemoved s
  | .advance src target => Sys2Proof.Machine.execAdvance src target s
  | .revoke src mask => Sys2Proof.Machine.execRevoke src mask s
  | .fuseBurnEnd => Sys2Proof.Machine.execFuseBurnEnd s
  | .clkWake src v => Sys2Proof.Machine.execClkWake src v s
  | .domainGate d => Sys2Proof.Machine.execDomainGate d s
  | .domainStop d => Sys2Proof.Machine.execDomainStop d s
  | .wakeStart => Sys2Proof.Machine.execWakeStart s
  | .wakeEnd d => Sys2Proof.Machine.execWakeEnd d s
  | .temperatureReading r t => Sys2Proof.Machine.execTemperatureReading r t s
  | .throttleStep => Sys2Proof.Machine.execThrottleStep s
  | .thermalTrip r => Sys2Proof.Machine.execThermalTrip r s
  | .aonClkLoss => Sys2Proof.Machine.execAonClkLoss s
  | .referenceLoss r => Sys2Proof.Machine.execReferenceLoss r s
  | .interruptSummaryWrite src reg v => Sys2Proof.Machine.execInterruptSummaryWrite src reg v s
  | .rcRead src addr wide => Sys2Proof.Machine.execRcRead src addr wide s
  | .registerWrite src addr wide v => Sys2Proof.Machine.execRegisterWrite src addr wide v s
  | .alignmentBlock p lane number => Sys2Proof.Machine.execAlignmentBlock p lane number s
  | .unfence d => Sys2Proof.Machine.execUnfence d s
  | .resetBoundPassed d => Sys2Proof.Machine.execResetBoundPassed d s
  | .selftestEnd tiles press => Sys2Proof.Machine.execSelftestEnd tiles press s
  | .stackRetrainEnd st ok => Sys2Proof.Machine.execStackRetrainEnd st ok s
  | .aonClkReturn => Sys2Proof.Machine.execAonClkReturn s
  | .referenceReturn r => Sys2Proof.Machine.execReferenceReturn r s
  | .aonSupplyOn => Sys2Proof.Machine.execAonSupplyOn s
  | .currentEstimate amps => Sys2Proof.Machine.execCurrentEstimate amps s
  | .clkTimeTick => Sys2Proof.Machine.execClkTimeTick s
  | .jtagInstruction ir => Sys2Proof.Machine.execJtagInstruction ir s
  | .pllLockLoss => Sys2Proof.Machine.execPllLockLoss s

end Sys2Proof.Machine
end

