-- ==== Sys2Proof/Safety.lean ====
section
/-! DEFINITION. What holds in every state that a run of the node reaches, and the words in which the claims are written. -/
namespace Sys2Proof.Machine

/-- Memory is in its canonical form: addresses strictly rising, no entry equal to what an unlisted address reads as (log entry
1). -/
def Memory.wf (m : List Host.Cell) : Bool := SMap.wf (fun _ => 0#8) m

/-- R525 to R529: the device summary agrees with what it sums up: INDEX with TOP_IDX_PEND, ERROR with TOP_ERR_SUM, and what the
node remembers of P with P (R526). No command leaves a line of cask space asked for in its own name. -/
def Inv (s : State) : Prop :=
  s.f F.TOP_INT_STAT_INDEX 0 = b2n ((List.range 64).any fun j => decide (s.reg .topIdxPend j ≠ 0)) ∧
  s.f F.TOP_INT_STAT_ERROR 0 = b2n (decide (s.reg .topErrSum 0 ≠ 0)) ∧
  s.intP = decide (s.intPending ≠ 0) ∧
  s.pool.needs = []

/-- The commands that act whatever clocks run: events of pins, supplies and references, and the always-on count (R504, R511, R540
to R550). -/
def actsStopped : Instr → Bool
  | .resetNAssert | .resetNRelease _ | .pwrGoodFall | .pwrGoodRise | .powerRemoved | .thermalTrip _ | .aonClkLoss
  | .referenceLoss _ | .aonClkReturn | .referenceReturn _ | .aonSupplyOn | .clkTimeTick | .jtagInstruction _ => true
  | _ => false

/-- R9, R522, R548: a source that may reach the registers now: every source but JTAG, and JTAG where its port is open. -/
def State.mayAccess (s : State) (src : Src) : Bool := src != .jtag || s.jtagOpen

/-- A command of a context that may take effect: its ring slot holds the request r, taken and not completed, with the command's
opcode; the context is ENABLED (R342, R343, R423); the node's clocks run; and its first operation has begun, or has its turn in
a quarter that is awake (R349, R501). -/
def Runs (s : State) (c q op : Nat) (r : Req) : Prop :=
  s.live = true ∧ s.pool.needs = [] ∧ s.req c q = some r ∧ r.work.mayRun = true ∧ descOp r.desc = op ∧ s.ctxState c = ctxEnabled ∧
    (r.begun = true ∨ (s.hasTurn c q = true ∧ s.partAwake (s.partOf c) = true))

/-- R10, R12 to R14: a register after a write of all of it: the fields that a write changes, the others as they were. -/
def State.rowWrite (s : State) (r : Reg) (i v : Nat) : State := s.setReg r i (r.merged i (s.reg r i) (v % 2 ^ 64) (2 ^ 64 - 1))

/-- R9, R556: a write of all of a register takes effect: the clocks run, its source may reach the registers, and no rule refuses or
ignores it. -/
def Takes (s : State) (src : Src) (r : Reg) (i v : Nat) : Prop :=
  s.live = true ∧ s.mayAccess src = true ∧
    s.refusesWrite r i (s.reg r i) (r.merged i (s.reg r i) (v % 2 ^ 64) (2 ^ 64 - 1)) = false ∧
    s.ignoresWrite r i (r.merged i (s.reg r i) (v % 2 ^ 64) (2 ^ 64 - 1)) = false

/-- The registers whose writes only store their fields: nothing starts, and no rule refuses or ignores them (R9, R10). -/
def storesOnly : Reg → Bool
  | .topScratch | .topPersist | .pwrGov | .pwrThermCfg | .fltWdog | .trlStore | .trlLimits | .trlSrc | .mergeCfg
  | .mergeScratch | .dirStore | .dirRec | .dirCfg | .poolCfg | .poolCat | .poolFrames | .nlWinBase | .nlWinCfg | .nlCtxVec
  | .cellarMapCache | .cellarParity | .cellarRetry | .cellarDebug | .vintRackCfg | .vintSpillCfg | .vintIdxLists | .vintIdxLoc
  | .vintTrig | .pressGroup | .pressShare | .fabTimers | .fabCompMap | .fabCompBcast | .fabCtxComp | .ctxSlowCfg | .ctxPt
  | .tileDispatch | .tileAttnCfg | .tileEmbCfg | .secLogSel => true
  | _ => false

/-- R9, R12: the address of a register, or of its upper half. -/
def halfAddr (r : Reg) (i : Nat) (upper : Bool) : Nat := r.addr i + if upper then 4 else 0

/-- R9, R12: the bits that an access to a register reaches: all of it, its lower half or its upper half. -/
def halfMask (wide upper : Bool) : Nat := if wide then 2 ^ 64 - 1 else if upper then 2 ^ 64 - 2 ^ 32 else 2 ^ 32 - 1

/-- R9, R12: the bits that a write carries, in their place in the register. -/
def halfBits (wide upper : Bool) (v : Nat) : Nat := if wide then v % 2 ^ 64 else if upper then v % 2 ^ 32 * 2 ^ 32 else v % 2 ^ 32

end Sys2Proof.Machine
end

