-- ==== Sys2Proof/Certificates/Slice0/Obligations.lean ====
section
/-! DEFINITION. The statements for the provers: what the rules of the manual say that a command does, command by command, and what
holds of the node as a whole. `s.after t` is the state after a command that found `s` and made `t` of it
(Obligations.EndOfCommandChangesTheSummaryAlone). -/
open Sys2Proof Sys2Proof.Machine

/-- (spec/00_scope.md) For every command c, queue l and state s: a step of s with c before l in its queue is c's effect on s with
l as its queue; a step on an empty queue changes nothing. The queue and the idling are the model's choice (log entry 2). -/
def Obligations.StepRunsTheFrontCommand : Prop :=
  ∀ (s : State) (c : Instr) (l : List Instr),
    step (s.withPending (c :: l)) = exec c (s.withPending l) ∧ step (s.withPending []) = .next (s.withPending [])

/-- (spec/00_scope.md) Every command that answers a next state leaves the queue of waiting commands as it was, and every step that
answers a next state leaves it without its front command. The queue is the model's choice (log entry 2). -/
def Obligations.CommandsLeaveTheQueue : Prop :=
  (∀ (c : Instr) (s t : State), exec c s = .next t → t.pending = s.pending) ∧
    ∀ s t : State, step s = .next t → t.pending = s.pending.tail

/-- (R548) Every command answers a next state in every state, with one exception: JTAG_INSTRUCTION with an instruction that the
manual does not name, while the fuse DEBUG_OFF is 0, is refused by name. No command faults. JTAG_INSTRUCTION completes for
BYPASS, SAMPLE, EXTEST and IDCODE on every part, which become the instruction of the TAP, and for every other instruction
where DEBUG_OFF is 1, which acts as BYPASS. The codes of the instructions are the model's (log entry 90). -/
def Obligations.OnlyPrivateJtagIsRefused : Prop :=
  (∀ (c : Instr) (s : State), (∃ t, exec c s = .next t) ∨
    ∃ ir, c = .jtagInstruction ir ∧ s.sec.fuses.debugOff = false ∧ exec c s = .refused .jtagPrivate) ∧
  ∀ (ir : BitVec 8) (s : State),
    (ir.toNat ∈ [tapExtest, tapSample, tapIdcode, tapBypass] →
      exec (.jtagInstruction ir) s = .next (s.after (s.setPins fun p => { p with tap := ir.toNat }))) ∧
    (ir.toNat ∉ [tapExtest, tapSample, tapIdcode, tapBypass] → s.sec.fuses.debugOff = true →
      exec (.jtagInstruction ir) s = .next (s.after (s.setPins fun p => { p with tap := tapBypass }))) ∧
    (ir.toNat ∉ [tapExtest, tapSample, tapIdcode, tapBypass] → s.sec.fuses.debugOff = false →
      exec (.jtagInstruction ir) s = .refused .jtagPrivate)

/-- (R525; R526; R529) An invariant that every step keeps, from any state: TOP_INT_STAT.INDEX is 1 exactly when some TOP_IDX_PEND
bit is 1, TOP_INT_STAT.ERROR is 1 exactly when TOP_ERR_SUM is not 0, what the node remembers of P is whether P (TOP_INT_STAT
AND TOP_INT_EN) is not 0, and no line of cask space is left asked for in the name of a command that has run (the model's own
bookkeeping). -/
def Obligations.SummaryFollowsItsSources : Prop :=
  ∀ s t : State, Inv s → step s = .next t → Inv t

/-- (R525; R531; spec/00_scope.md) At reset the device summary agrees with its sources and memory, with nothing listed, is in its
canonical form (addresses rising, no byte listed that equals what an unlisted one reads as). -/
def Obligations.ResetMeetsTheInvariants : Prop :=
  Inv State.reset ∧ Memory.wf State.reset.mem = true

/-- (R5; R531) At reset every register instance of the register map reads the value that the Reset columns of its field tables
give, no request, image, job or waiting command exists, both Nahel ports are DOWN, every context is DISABLED and every
partition EMPTY. A fuse or strap field reads what log entry 4 says. -/
def Obligations.ResetLeavesTheResetColumn : Prop :=
  (∀ r i, i < r.count → State.reset.reg r i = (r.fields i).foldl (fun a f => a + f.reset * 2 ^ f.lo) 0) ∧
    State.reset.pending = [] ∧ State.reset.ctxs = [] ∧ State.reset.jobs = [] ∧ State.reset.parts = [] ∧ State.reset.mem = [] ∧
    State.reset.nlState 0 = nlDown ∧ State.reset.nlState 1 = nlDown ∧
    ∀ c n : Nat, State.reset.ctxState c = ctxDisabled ∧ State.reset.trlState n = trlEmpty

/-- (R511; R540; R543; R547; R549) In a state in which a trip, a power-cycle request, PWR_GOOD low, RESET_N low or the loss of the
always-on or core reference stops the node, every command leaves the state as it is, but for the events of pins, supplies and
clocks themselves, the always-on time count and the instruction of the TAP. -/
def Obligations.StoppedNodeIgnoresCommands : Prop :=
  ∀ (c : Instr) (s : State), s.live = false → actsStopped c = false → exec c s = .next s

/-- (R525; R526; R529) The state after a command that found s and made t of it is t with the queue of s, with INDEX and ERROR of
TOP_INT_STAT as their sources say, and with the device interrupt sent when P has become nonzero: memory, check codes,
contexts, indexes, press units, cellar, fabric, faults, security, power and pins are those of t, every register but
TOP_INT_STAT and every other bit of TOP_INT_STAT too; the Nahel ports are those of t unless P became nonzero. -/
def Obligations.EndOfCommandChangesTheSummaryAlone : Prop :=
  ∀ s t : State,
    let u := s.after t
    u.pending = s.pending ∧ u.mem = t.mem ∧ u.ecc = t.ecc ∧ u.ctxs = t.ctxs ∧ u.tlb = t.tlb ∧ u.jobs = t.jobs ∧ u.idxs = t.idxs ∧
    u.press = t.press ∧ u.pressOut = t.pressOut ∧ u.toFree = t.toFree ∧ u.cellar = t.cellar ∧
    u.pool = { t.pool with needs := [] } ∧ u.parts = t.parts ∧ u.prefetch = t.prefetch ∧ u.episodes = t.episodes ∧ u.slow = t.slow ∧
    u.fab = t.fab ∧ u.flt = t.flt ∧ u.sec = t.sec ∧ u.pwr = t.pwr ∧ u.pins = t.pins ∧ u.free = t.free ∧
    (∀ r i, r.addr i ≠ Reg.topIntStat.addr 0 → u.reg r i = t.reg r i) ∧
    (∀ x ∈ Reg.topIntStat.fields 0, x ≠ F.TOP_INT_STAT_INDEX → x ≠ F.TOP_INT_STAT_ERROR → u.f x 0 = t.f x 0) ∧
    Inv u ∧ (u.intP = false ∨ t.intP = true → u.nl0 = t.nl0 ∧ u.nl1 = t.nl1)

/-- (R9; R520; R531) Two instances of registers of the register map that have the same address are the same instance of the same
register; every instance lies in window 0 at an 8-byte-aligned address; and the node finds at that address that register. -/
def Obligations.OneRegisterPerAddress : Prop :=
  (∀ (r q : Reg) (i j : Nat), i < r.count → j < q.count → r.addr i = q.addr j → r = q ∧ i = j) ∧
    ∀ (r : Reg) (i : Nat), i < r.count → r.addr i % 8 = 0 ∧ r.addr i + 8 ≤ 2 ^ 26 ∧ Reg.find (r.addr i) = some (r, i)

/-- (R10; R12; R13; R14) For every register, old value and write of bits w under a mask (the half or the whole that the access
reaches): an RW field takes the written bits where its meaning allows the value and keeps its own otherwise, a W1C field loses
exactly the bits that the write carries as 1 within the mask, every field of another access type keeps its value, and so does
every bit that no field names. Which values a field takes is the ValueRule of its table row (R14). -/
def Obligations.WritesReachOnlyWritableFields : Prop :=
  ∀ (r : Reg) (i old w mask : Nat), i < r.count → old < 2 ^ 64 →
    let new := r.merged i old w mask
    (∀ f ∈ r.fields i, bits new f.hi f.lo = match f.acc with
      | .rw =>
        let x := bits (clearBits old mask + (w &&& mask)) f.hi f.lo
        if f.rule.allows x then x else bits old f.hi f.lo
      | .w1c => clearBits (bits old f.hi f.lo) (bits (w &&& mask) f.hi f.lo)
      | _ => bits old f.hi f.lo) ∧
    ∀ k, (∀ f ∈ r.fields i, ¬ (f.lo ≤ k ∧ k ≤ f.hi)) → new.testBit k = old.testBit k

/-- (R9; R10; R12) For every register that only stores its fields, every instance, every source that may reach it, and a write of
8 bytes or of one half: REGISTER_WRITE completes; the register holds its fields as the write makes them within the bits that
the access reaches; every other register but TOP_INT_STAT reads as before, and memory, contexts, indexes, press units, the
cellar, the fabric and the pins are unchanged. -/
def Obligations.RegisterWriteStoresItsFields : Prop :=
  ∀ (s : State) (src : Src) (r : Reg) (i : Nat) (wide upper : Bool) (v : Word),
    s.live = true → s.mayAccess src = true → storesOnly r = true → i < r.count → (wide = true → upper = false) →
    ∃ t, exec (.registerWrite src (BitVec.ofNat 52 (halfAddr r i upper)) wide v) s = .next t ∧
      t.reg r i = r.merged i (s.reg r i) (halfBits wide upper v.toNat) (halfMask wide upper) % 2 ^ 64 ∧
      (∀ q j, q.addr j ≠ r.addr i → q.addr j ≠ Reg.topIntStat.addr 0 → t.reg q j = s.reg q j) ∧
      t.mem = s.mem ∧ t.ecc = s.ecc ∧ t.ctxs = s.ctxs ∧ t.idxs = s.idxs ∧ t.press = s.press ∧ t.cellar = s.cellar ∧ t.fab = s.fab ∧
      t.pins = s.pins

/-- (R521) For every source that may reach the registers and every address of window 0 that no register has or that is not aligned
to the width of the access: REGISTER_WRITE and RC_READ complete with the recorded event as their only effect, a read returns
0, the event sets TOP_ERR_SUM.ACCESS, and every register but TOP_ERR_SUM, TOP_ERR_CNT, TOP_ERR_FIRST and TOP_INT_STAT reads as
before; memory is unchanged. -/
def Obligations.RefusedAccessIsRecorded : Prop :=
  ∀ (s : State) (src : Src) (a : BitVec 52) (wide : Bool) (v : Word),
    s.live = true → s.mayAccess src = true → a.toNat < 2 ^ 26 →
    (a.toNat % (if wide then 8 else 4) ≠ 0 ∨ Reg.find (a.toNat - a.toNat % 8) = none) →
    exec (.registerWrite src a wide v) s = .next (s.after (s.recordErr .access src a.toNat true)) ∧
    exec (.rcRead src a wide) s = .next (s.after (s.recordErr .access src a.toNat false)) ∧
    (s.regRead src a.toNat wide).2 = 0 ∧
    ∀ w, let t := s.recordErr .access src a.toNat w
      t.f F.TOP_ERR_SUM_ACCESS 0 = 1 ∧ t.mem = s.mem ∧
      ∀ q j, q.addr j ≠ Reg.topErrSum.addr 0 → q.addr j ≠ Reg.topErrCnt.addr 0 → q.addr j ≠ Reg.topErrFirst.addr 0 → t.reg q j = s.reg q j

/-- (R9; R522; R528; R529; R548; R556) For every register instance: a REGISTER_WRITE of all of it that a rule refuses (the
configuration of an enabled object, a locked key, a tenant with enabled contexts and the like) has the recorded event as its
only effect, and the register keeps its value. Recording an event sets the bit of its kind in TOP_ERR_SUM and raises
TOP_ERR_CNT.COUNT by 1 up to its largest value; while TOP_ERR_FIRST.VALID is 0 it stores the address, kind, direction and
source and sets VALID, and while VALID is 1 TOP_ERR_FIRST keeps the earlier event. While the JTAG port is no source of
register accesses, a REGISTER_WRITE and an RC_READ from it change nothing at all. -/
def Obligations.RefusedAccessesChangeNothing : Prop :=
  (∀ (s : State) (src : Src) (r : Reg) (i : Nat) (v : Word),
    s.live = true → s.mayAccess src = true → i < r.count →
    s.refusesWrite r i (s.reg r i) (r.merged i (s.reg r i) v.toNat (2 ^ 64 - 1)) = true →
    exec (.registerWrite src (BitVec.ofNat 52 (r.addr i)) true v) s = .next (s.after (s.recordErr .access src (r.addr i) true)) ∧
    (s.recordErr .access src (r.addr i) true).reg r i = s.reg r i) ∧
  (∀ (s : State) (k : ErrKind) (src : Src) (a : Nat) (w : Bool),
    let t := s.recordErr k src a w
    t.f k.bit 0 = 1 ∧ t.f F.TOP_ERR_CNT_COUNT 0 = min (2 ^ 32 - 1) (s.f F.TOP_ERR_CNT_COUNT 0 + 1) ∧
    (s.f F.TOP_ERR_FIRST_VALID 0 = 0 → t.f F.TOP_ERR_FIRST_ADDR 0 = a % 2 ^ 52 ∧ t.f F.TOP_ERR_FIRST_KIND 0 = k.code ∧
      t.f F.TOP_ERR_FIRST_WRITE 0 = (if w then 1 else 0) ∧ t.f F.TOP_ERR_FIRST_SOURCE 0 = srcCode src ∧ t.f F.TOP_ERR_FIRST_VALID 0 = 1) ∧
    (s.f F.TOP_ERR_FIRST_VALID 0 ≠ 0 → t.reg .topErrFirst 0 = s.reg .topErrFirst 0)) ∧
  ∀ (s : State) (a : BitVec 52) (wide : Bool) (v : Word), s.live = true → s.jtagOpen = false →
    exec (.registerWrite .jtag a wide v) s = .next (s.after s) ∧ exec (.rcRead .jtag a wide) s = .next (s.after s)

/-- (R10; R12) RC_READ of a register, of 8 bytes or of one half, completes: of the fields of that register, an RC field loses the
bits that the access returns, every other field keeps its value, and every other register but TOP_INT_STAT reads as before;
memory is unchanged. Said of TOP_INT_STAT itself in states that meet the summary invariant, which every step keeps. -/
def Obligations.ReadsClearWhatTheyReturn : Prop :=
  ∀ (s : State) (src : Src) (r : Reg) (i : Nat) (wide upper : Bool),
    s.live = true → s.mayAccess src = true → i < r.count → (wide = true → upper = false) → (r = .topIntStat → Inv s) →
    ∃ t, exec (.rcRead src (BitVec.ofNat 52 (halfAddr r i upper)) wide) s = .next t ∧
      (∀ f ∈ r.fields i, t.f f i = if f.acc = .rc then clearBits (s.f f i) (bits (halfMask wide upper) f.hi f.lo) else s.f f i) ∧
      (∀ q j, q.addr j ≠ r.addr i → q.addr j ≠ Reg.topIntStat.addr 0 → t.reg q j = s.reg q j) ∧ t.mem = s.mem

/-- (R525; R526; R527) INTERRUPT_SUMMARY_WRITE to TOP_INT_STAT clears exactly the W1C fields' bits that are written as 1; to
TOP_INT_EN it sets the enables as RW fields; to TOP_IDX_PEND[j] it clears exactly the bits written as 1. Memory is unchanged
in each form, and the summary agrees with its sources afterwards. -/
def Obligations.SummaryRegistersAreWritten : Prop :=
  ∀ (s : State) (src : Src) (v : Word), s.live = true → s.mayAccess src = true →
    (∃ t, exec (.interruptSummaryWrite src .intStat v) s = .next t ∧ Inv t ∧ t.mem = s.mem ∧
      ∀ x ∈ Reg.topIntStat.fields 0, x.acc = .w1c → t.f x 0 = clearBits (s.f x 0) (bits v.toNat x.hi x.lo)) ∧
    (∃ t, exec (.interruptSummaryWrite src .intEn v) s = .next t ∧ Inv t ∧ t.mem = s.mem ∧
      t.reg .topIntEn 0 = Reg.topIntEn.merged 0 (s.reg .topIntEn 0) v.toNat (2 ^ 64 - 1)) ∧
    ∀ j : BitVec 6, ∃ t, exec (.interruptSummaryWrite src (.idxPend j) v) s = .next t ∧ Inv t ∧ t.mem = s.mem ∧
      t.reg .topIdxPend j.toNat = clearBits (s.reg .topIdxPend j.toNat) v.toNat

/-- (R56; R63; R75; R91; R95; R96) Where the write of VINT_IDX_CFG[i] takes effect: INDEX_ENABLE that sets ENABLE of a disabled
index whose configuration is in order enables it, INDEX_DISABLE that clears ENABLE of an enabled one disables it. An enabled
index has published and durable vintage 1, open vintage 2, no pin and no close; a disabled one has published, durable and open
vintage 0, no pin and no close. VINT_CLOSE that names an enabled index triggers its close. Enabling leaves memory as it was.
That the open vintage is 0 while disabled is the model's bookkeeping. -/
def Obligations.IndexRowsTakeEffect : Prop :=
  ∀ (s : State) (src : Src) (i : BitVec 12) (v : Word),
    (Takes s src .vintIdxCfg i.toNat v.toNat →
      let u := s.rowWrite .vintIdxCfg i.toNat v.toNat
      (u.on F.VINT_IDX_CFG_ENABLE i.toNat = true → (s.reg .vintIdxCfg i.toNat).testBit 0 = false → u.idxCfgOk i.toNat = true →
        exec (.indexEnable src i v) s = .next (s.after (u.enableIdx i.toNat))) ∧
      (u.on F.VINT_IDX_CFG_ENABLE i.toNat = false → (s.reg .vintIdxCfg i.toNat).testBit 0 = true →
        exec (.indexDisable src i v) s = .next (s.after (u.disableIdx i.toNat)))) ∧
    (Takes s src .vintClose 0 v.toNat → (s.rowWrite .vintClose 0 v.toNat).idxOn (bits v.toNat 11 0) = true →
      exec (.vintClose src v) s = .next (s.after ((s.rowWrite .vintClose 0 v.toNat).triggerClose (bits v.toNat 11 0)))) ∧
    (let t := s.enableIdx i.toNat
     t.published i.toNat = 1 ∧ t.durable i.toNat = 1 ∧ (t.idx i.toNat).openV = 2 ∧ (t.idx i.toNat).pins = [] ∧
      (t.idx i.toNat).close = none ∧ t.mem = s.mem) ∧
    (let t := s.disableIdx i.toNat
     t.published i.toNat = 0 ∧ t.durable i.toNat = 0 ∧ (t.idx i.toNat).openV = 0 ∧ (t.idx i.toNat).pins = [] ∧
      (t.idx i.toNat).close = none)

/-- (R239; R240; R248; R250; R261; R273; R553) Where the write takes effect: CHANNEL_START that sets ENABLE of a channel puts it
in TRAINING, CHANNEL_STOP that clears it stops the channel in OFF; CELLAR_START with START begins the cellar's start, and the
spare blocks are held against RO_SPARE as it then stands; NAMESPACE_ENABLE and NAMESPACE_DISABLE write the bit of their
namespace in CELLAR_NS_EN, whose newly set bits stand only for namespaces that may be enabled; LOG_TRIM_WRITE sets
CELLAR_LOG_TRIM, unless it would lower it, in which case it changes nothing. -/
def Obligations.CellarRowsTakeEffect : Prop :=
  ∀ (s : State) (src : Src) (c : BitVec 6) (n : BitVec 12) (v : Word),
    (Takes s src .cellarChCfg c.toNat v.toNat → c.toNat < 48 →
      let u := s.rowWrite .cellarChCfg c.toNat v.toNat
      (u.on F.CELLAR_CH_CFG_ENABLE c.toNat = true → (s.reg .cellarChCfg c.toNat).testBit 0 = false →
        exec (.channelStart src c v) s = .next (s.after (u.startChannel c.toNat)) ∧ (u.startChannel c.toNat).chState c.toNat = chTraining) ∧
      (u.on F.CELLAR_CH_CFG_ENABLE c.toNat = false → (s.reg .cellarChCfg c.toNat).testBit 0 = true →
        exec (.channelStop src c v) s = .next (s.after (u.stopChannel c.toNat chOff)))) ∧
    (Takes s src .cellarCfg 0 v.toNat → bit v.toNat 61 = true →
      exec (.cellarStart src v) s = .next (s.after ((s.rowWrite .cellarCfg 0 v.toNat).startCellar src).checkSpare)) ∧
    (Takes s src .cellarLogTrim 0 v.toNat →
      exec (.logTrimWrite src v) s = .next (s.after (s.rowWrite .cellarLogTrim 0 v.toNat)) ∧
        s.reg .cellarLogTrim 0 ≤ (s.rowWrite .cellarLogTrim 0 v.toNat).reg .cellarLogTrim 0) ∧
    (s.live = true → s.mayAccess src = true →
      Reg.cellarLogTrim.merged 0 (s.reg .cellarLogTrim 0) v.toNat (2 ^ 64 - 1) < s.reg .cellarLogTrim 0 →
      exec (.logTrimWrite src v) s = .next (s.after s)) ∧
    (s.live = true → s.mayAccess src = true →
      let j := n.toNat / 64
      exec (.namespaceEnable src n) s = .next (s.after (s.applyWrite src .cellarNsEn j
        (setBit (s.reg .cellarNsEn j) (n.toNat % 64) true % 2 ^ 64) (2 ^ 64 - 1))) ∧
      exec (.namespaceDisable src n) s = .next (s.after (s.applyWrite src .cellarNsEn j
        (setBit (s.reg .cellarNsEn j) (n.toNat % 64) false % 2 ^ 64) (2 ^ 64 - 1))))

/-- (R283; R296; R310; R330; R333; R335) Where the write takes effect: AGENT_LOST declares the agent lost; POOL_CAT_INVAL drops
from the catalog cache the slot that it names, or every slot with bit 13; TRELLIS_LOAD (LOAD without UNLOAD) of a partition
that no load or unload holds puts it in VERIFY with the image that TRL_SRC names, TRELLIS_UNLOAD of one that is not EMPTY puts
it in DRAIN. Memory is unchanged by each load and unload. -/
def Obligations.PoolAndTrellisRowsTakeEffect : Prop :=
  ∀ (s : State) (src : Src) (a : BitVec 18) (n : BitVec 3) (v : Word),
    (Takes s src .poolAgentLost 0 a.toNat →
      exec (.agentLost src a) s = .next (s.after ((s.rowWrite .poolAgentLost 0 a.toNat).declareLost (bits a.toNat 17 0)).wakeJobs)) ∧
    (Takes s src .poolCatInval 0 v.toNat →
      let u := s.rowWrite .poolCatInval 0 v.toNat
      exec (.poolCatInval src v) s = .next (s.after (u.catInval v.toNat)) ∧
        (bit v.toNat 13 = true → (u.catInval v.toNat).pool.catCache = []) ∧
        (bit v.toNat 13 = false → bits v.toNat 12 0 < Config.caskSlots →
          SMap.find (u.catInval v.toNat).pool.catCache (bits v.toNat 12 0) = none)) ∧
    (Takes s src .trlCtl n.toNat v.toNat →
      let u := s.rowWrite .trlCtl n.toNat v.toNat
      u.trlState n.toNat = trlEmpty ∨ u.trlState n.toNat = trlRunning →
      (bit v.toNat 1 = false → bit v.toNat 0 = true → ∃ t, exec (.trellisLoad src n v) s = .next (s.after t) ∧
        t.trlState n.toNat = trlVerify ∧ t.mem = s.mem ∧ (t.part n.toNat).run = some ⟨false, u.fAddr F.TRL_SRC_ADDR n.toNat,
          u.f F.TRL_SRC_SIZE_64K n.toNat * 65536, u.trlState n.toNat, u.f F.TRL_LIMITS_GAP_MAX 0, none, u.now⟩) ∧
      (bit v.toNat 1 = true → u.trlState n.toNat = trlRunning → ∃ t, exec (.trellisUnload src n v) s = .next (s.after t) ∧
        t.trlState n.toNat = trlDrain ∧ t.mem = s.mem ∧
        (t.part n.toNat).run = some ⟨true, 0, 0, trlRunning, 0, none, u.now⟩))

/-- (R341; R342; R347; R348; R350; R352; R354; R366; R367) Where the write takes effect: CONTEXT_ENABLE of a context that may be
enabled makes it ENABLED with empty rings and no request; CONTEXT_DISABLE of an enabled one aborts and closes it; PREEMPT of
an ENABLED context whose save area is large enough makes it SUSPENDING, RESUME of a SUSPENDED one with nothing saved makes it
ENABLED; ABORT aborts it; CONTEXT_RESET of a FAULTED one begins its reset; a DOORBELL of a context that is neither DISABLED
nor FAULTED, with each index that it sets in range, moves its tail and its head and gives back the slots between the heads;
CTX_TLB_INVAL drops the translations of the context that it names, or all with bit 12. -/
def Obligations.ContextRowsTakeEffect : Prop :=
  ∀ (s : State) (src : Src) (c : BitVec 12) (v : Word),
    (Takes s src .ctxCfg c.toNat v.toNat →
      let u := s.rowWrite .ctxCfg c.toNat v.toNat
      (u.on F.CTX_CFG_ENABLE c.toNat = true → (s.reg .ctxCfg c.toNat).testBit 0 = false → u.mayEnable c.toNat = true →
        exec (.contextEnable src c v) s = .next (s.after (u.enableCtx c.toNat)) ∧ (u.enableCtx c.toNat).ctxState c.toNat = ctxEnabled ∧
          ((u.enableCtx c.toNat).ctx c.toNat).reqs = [] ∧ (u.enableCtx c.toNat).mem = s.mem) ∧
      (u.on F.CTX_CFG_ENABLE c.toNat = false → (s.reg .ctxCfg c.toNat).testBit 0 = true →
        exec (.contextDisable src c v) s = .next (s.after (u.disableCtx c.toNat)))) ∧
    (Takes s src .ctxCtl c.toNat 1 →
      let u := s.rowWrite .ctxCtl c.toNat 1
      u.ctxState c.toNat = ctxEnabled → (u.ctx c.toNat).closing = false → u.saveLen c.toNat ≤ u.f F.CTX_SAVE_SIZE_MIB c.toNat * 2 ^ 20 →
      ∃ t, exec (.preempt src c) s = .next (s.after t) ∧ t.ctxState c.toNat = ctxSuspending ∧ t.mem = s.mem ∧ t.ctxs = s.ctxs) ∧
    (Takes s src .ctxCtl c.toNat 2 →
      let u := s.rowWrite .ctxCtl c.toNat 2
      u.ctxState c.toNat = ctxSuspended → (u.ctx c.toNat).reqs.filter (·.saved) = [] →
      ∃ t, exec (.resume src c) s = .next (s.after t) ∧ t.ctxState c.toNat = ctxEnabled ∧ t.mem = s.mem) ∧
    (Takes s src .ctxCtl c.toNat 4 →
      exec (.abort src c) s = .next (s.after (((s.rowWrite .ctxCtl c.toNat 4).setF F.CTX_CTL_ABORT c.toNat 0).abortCtx c.toNat))) ∧
    (Takes s src .ctxCtl c.toNat 8 → (s.rowWrite .ctxCtl c.toNat 8).ctxState c.toNat = ctxFaulted →
      exec (.contextReset src c) s =
        .next (s.after ((((s.rowWrite .ctxCtl c.toNat 8).setF F.CTX_CTL_RESET c.toNat 1).abandonOwned c.toNat).resetDue c.toNat))) ∧
    (Takes s src .ctxDb c.toNat v.toNat →
      let u := s.rowWrite .ctxDb c.toNat v.toNat
      u.ctxState c.toNat ≠ ctxDisabled → u.ctxState c.toNat ≠ ctxFaulted → 
      (bit v.toNat 32 = true → bits v.toNat 15 0 < u.sqDepth c.toNat) →
      let given := (bits v.toNat 31 16 + u.cqDepth c.toNat - (u.ctx c.toNat).cqHead) % u.cqDepth c.toNat
      (bit v.toNat 33 = true → bits v.toNat 31 16 < u.cqDepth c.toNat ∧ given ≤ (u.ctx c.toNat).cqUsed) →
      ∃ t, exec (.doorbell src c v) s = .next (s.after t) ∧ t.mem = s.mem ∧
        (t.ctx c.toNat).sqTail = (if bit v.toNat 32 then bits v.toNat 15 0 else (u.ctx c.toNat).sqTail) ∧
        (t.ctx c.toNat).cqHead = (if bit v.toNat 33 then bits v.toNat 31 16 else (u.ctx c.toNat).cqHead) ∧
        (t.ctx c.toNat).cqUsed = (if bit v.toNat 33 then (u.ctx c.toNat).cqUsed - given else (u.ctx c.toNat).cqUsed) ∧
        (t.ctx c.toNat).reqs = (u.ctx c.toNat).reqs) ∧
    (Takes s src .ctxTlbInval 0 v.toNat →
      ∃ t, exec (.ctxTlbInval src v) s = .next (s.after t) ∧ t.mem = s.mem ∧
        t.tlb = if bit v.toNat 12 then [] else s.tlb.filter fun x => x.ctx != bits v.toNat 11 0)

/-- (R371; R379; R383; R384; R385; R389; R393; R397; R401; R403; R409) Where the write takes effect: ADMIT begins the admission of
its node, LOST loses a valid peer, and a peer silent past its time is lost too; FABRIC_PORT_ENABLE that sets ENABLE brings the
port UP; writes of FAB_QUEUE, FAB_SHAPE and FAB_POLICE restart the credit or the tokens that their registers describe;
INSTALL, REMOVE and COMPOSITION_RESET, while none of the three runs on their slot, set their bit and begin. -/
def Obligations.FabricRowsTakeEffect : Prop :=
  ∀ (s : State) (src : Src) (n : BitVec 16) (p : BitVec 4) (q : BitVec 9) (k : BitVec 5) (m : BitVec 6) (v : Word),
    (Takes s src .fabPeerCtl 0 (n.toNat + 2 ^ 16) →
      exec (.admitPeer src n) s = .next (s.after ((s.rowWrite .fabPeerCtl 0 (n.toNat + 2 ^ 16)).startAdmit n.toNat))) ∧
    (Takes s src .fabPeerCtl 0 (n.toNat + 2 ^ 17) → (s.rowWrite .fabPeerCtl 0 (n.toNat + 2 ^ 17)).peerValid n.toNat = true →
      exec (.lost (.register src) n) s = .next (s.after ((s.rowWrite .fabPeerCtl 0 (n.toNat + 2 ^ 17)).losePeer n.toNat))) ∧
    (s.live = true → SMap.get 0 s.fab.heard n.toNat ≠ 0 → SMap.get 0 s.fab.heard n.toNat ≤ s.now → n.toNat ≠ s.self →
      s.peerOk n.toNat = true → exec (.lost .silence n) s = .next (s.after (s.losePeer n.toNat))) ∧
    (Takes s src .fabPortCfg p.toNat v.toNat →
      let u := s.rowWrite .fabPortCfg p.toNat v.toNat
      u.on F.FAB_PORT_CFG_ENABLE p.toNat = true → (s.reg .fabPortCfg p.toNat).testBit 0 = false →
        exec (.fabricPortEnable src p v) s = .next (s.after ((u.startPort src p.toNat).fabRefCheck p.toNat))) ∧
    (Takes s src .fabQueue q.toNat v.toNat →
      exec (.fabQueueWrite src q v) s = .next (s.after ((s.rowWrite .fabQueue q.toNat v.toNat).queueWritten q.toNat))) ∧
    (Takes s src .fabShape k.toNat v.toNat →
      exec (.fabShapeWrite src k v) s = .next (s.after ((s.rowWrite .fabShape k.toNat v.toNat).shapeWritten k.toNat))) ∧
    (Takes s src .fabPolice k.toNat v.toNat →
      exec (.fabPoliceWrite src k v) s = .next (s.after ((s.rowWrite .fabPolice k.toNat v.toNat).policeWritten k.toNat))) ∧
    (bits (s.reg .fabCompCtl m.toNat) 2 0 = 0 →
      let u (b : Nat) := (s.rowWrite .fabCompCtl m.toNat (2 ^ b)).setReg .fabCompCtl m.toNat (2 ^ b)
      (Takes s src .fabCompCtl m.toNat 1 → exec (.install src m) s = .next (s.after ((u 0).install m.toNat))) ∧
      (Takes s src .fabCompCtl m.toNat 2 → exec (.remove src m) s = .next (s.after ((u 1).removeComp m.toNat))) ∧
      (Takes s src .fabCompCtl m.toNat 4 → exec (.compositionReset src m) s = .next (s.after ((u 2).compReset m.toNat))))

/-- (R413; R414; R428) Where the write of NL_PORT_CFG takes effect and changes ENABLE: NAHEL_PORT_ENABLE, with the reference of
the port's edge present, starts its training; NAHEL_PORT_DISABLE takes the port DOWN. -/
def Obligations.NahelPortRowsTakeEffect : Prop :=
  ∀ (s : State) (src : Src) (p : BitVec 1) (v : Word), Takes s src .nlPortCfg p.toNat v.toNat →
    let u := s.rowWrite .nlPortCfg p.toNat v.toNat
    (u.on F.NL_PORT_CFG_ENABLE p.toNat = true → (s.reg .nlPortCfg p.toNat).testBit 0 = false →
      exec (.nahelPortEnable src p v) s = .next (s.after ((u.nlTrain p.toNat).nlRefCheck p.toNat))) ∧
    (u.on F.NL_PORT_CFG_ENABLE p.toNat = false → (s.reg .nlPortCfg p.toNat).testBit 0 = true →
      exec (.nahelPortDisable src p v) s = .next (s.after (((u.nlEnter p.toNat nlDown).nlDownNow p.toNat).nlRefCheck p.toNat)))

/-- (R433; R436; R438; R439; R440; R444; R445; R459) Where the write takes effect: KICK restarts the chip watchdog's time and
changes no memory; a write of FLT_RESET starts the reset, the power-cycle request or the self-test that its bits name; ENGINE
by truncation truncates the stack of a press block, ENGINE by damaged data in a tile that works for a request faults the
request's context with cause STAGE, PART by a failed unit takes the unit out, CHIP by the controller's state raises a chip
reset of class 0x0E. -/
def Obligations.FaultRowsTakeEffect : Prop :=
  ∀ (s : State) (src : Src) (t : BitVec 7) (n : BitVec 3),
    (Takes s src .fltKick 0 1 → ∃ u, exec (.kick src) s = .next (s.after u) ∧ u.flt.kickedAt = (s.rowWrite .fltKick 0 1).now ∧
      u.mem = s.mem ∧ u.ctxs = s.ctxs) ∧
    (let w := s.resetWord 0 (some t.toNat) none
     Takes s src .fltReset 0 w → bits (w % 2 ^ 64) 4 0 ≠ 0 →
      exec (.engine (.register src) t) s = .next (s.after ((s.rowWrite .fltReset 0 w).fltReset src (w % 2 ^ 64)))) ∧
    (let w := s.resetWord 1 none (some n.toNat)
     Takes s src .fltReset 0 w → bits (w % 2 ^ 64) 4 0 ≠ 0 →
      exec (.part (.register src) n) s = .next (s.after ((s.rowWrite .fltReset 0 w).fltReset src (w % 2 ^ 64)))) ∧
    (let w := s.resetWord 2 none none
     Takes s src .fltReset 0 w → bits (w % 2 ^ 64) 4 0 ≠ 0 →
      exec (.chip (.register src)) s = .next (s.after ((s.rowWrite .fltReset 0 w).fltReset src (w % 2 ^ 64)))) ∧
    (let w := s.resetWord 3 none none
     Takes s src .fltReset 0 w → bits (w % 2 ^ 64) 4 0 ≠ 0 →
      exec (.pcyc src) s = .next (s.after ((s.rowWrite .fltReset 0 w).fltReset src (w % 2 ^ 64)))) ∧
    (let w := s.resetWord 4 none none
     Takes s src .fltReset 0 w → bits (w % 2 ^ 64) 4 0 ≠ 0 →
      exec (.selftest src) s = .next (s.after ((s.rowWrite .fltReset 0 w).fltReset src (w % 2 ^ 64)))) ∧
    (s.live = true → 64 ≤ t.toNat → t.toNat < 72 →
      exec (.engine .trunc t) s = .next (s.after (s.trunc (t.toNat - 64)).serveWaiting)) ∧
    (∀ (c : BitVec 12) (q : BitVec 16) (r : Req), s.live = true → s.req c.toNat q.toNat = some r → t.toNat < 64 → s.keeps r = false →
      ((s.reqPers r).any fun p => s.tileOf (s.reqPart c.toNat r) p == t.toNat) = true →
      exec (.engine (.stage c q) t) s = .next (s.after (s.hangFault c.toNat causeStage (some q.toNat) r.slot .uncorrectable))) ∧
    (s.live = true → exec (.part .unitOut n) s = .next (s.after (s.unitOut n.toNat)) ∧
      exec (.chip .ctlState) s = .next (s.after (s.raise .chip 0x0E false 0)))

/-- (R452; R454; R456; R464) Where the write takes effect: CHECKPOINT, RESTORE and RESTORE_REPLAY start the run that FLT_CKPT then
names (operation 1, 2 or 3, the index and the namespace); HOLD that leaves HOLD as 1 or found it 0 only stores it; HOLD that
clears it stages the hand-offs that the slot holds back. -/
def Obligations.CheckpointAndHoldRowsTakeEffect : Prop :=
  ∀ (s : State) (src : Src) (i ns : BitVec 12) (n : BitVec 6) (v : Word),
    (∀ op, (op = 1 → Takes s src .fltCkpt 0 (ckptWord op i.toNat ns.toNat) →
        exec (.checkpoint src i ns) s = .next (s.after ((s.rowWrite .fltCkpt 0 (ckptWord op i.toNat ns.toNat)).startCkpt src))) ∧
      (op = 2 → Takes s src .fltCkpt 0 (ckptWord op i.toNat ns.toNat) →
        exec (.restore src i ns) s = .next (s.after ((s.rowWrite .fltCkpt 0 (ckptWord op i.toNat ns.toNat)).startCkpt src))) ∧
      (op = 3 → Takes s src .fltCkpt 0 (ckptWord op i.toNat ns.toNat) →
        exec (.restoreReplay src i ns) s = .next (s.after ((s.rowWrite .fltCkpt 0 (ckptWord op i.toNat ns.toNat)).startCkpt src)))) ∧
    (Takes s src .fltAdmit n.toNat v.toNat →
      let u := s.rowWrite .fltAdmit n.toNat v.toNat
      ((s.reg .fltAdmit n.toNat).testBit 0 = false ∨ u.on F.FLT_ADMIT_HOLD n.toNat = true →
        exec (.hold src n v) s = .next (s.after u)) ∧
      ((s.reg .fltAdmit n.toNat).testBit 0 = true → u.on F.FLT_ADMIT_HOLD n.toNat = false →
        exec (.hold src n v) s = .next (s.after (u.stageHolds n.toNat))))

/-- (R215; R233; R487; R496; R501; R513) Where the write takes effect: TABLE_ENABLE sets the bit of its table in TILE_EMB_EN if
the table may be enabled and is recorded as ENABLE otherwise; ADVANCE and REVOKE with nothing being burned begin the burn that
their fields name, or end at once with INVALID_ARG; CLK_WAKE asks for the domains that it names to be woken, and changes no
memory. -/
def Obligations.TableFuseAndClockRowsTakeEffect : Prop :=
  ∀ (s : State) (src : Src) (t : BitVec 10) (g : BitVec 7) (m : BitVec 4) (v : Word),
    (s.live = true → s.mayAccess src = true →
      let j := t.toNat / 64
      exec (.tableEnable src t) s = .next (s.after (s.applyWrite src .tileEmbEn j
        (setBit (s.reg .tileEmbEn j) (t.toNat % 64) true % 2 ^ 64) (2 ^ 64 - 1)))) ∧
    (Takes s src .secFuseProg 0 (g.toNat + 2 ^ 7 + 2 ^ 12) →
      exec (.advance src g) s = .next (s.after ((s.rowWrite .secFuseProg 0 (g.toNat + 2 ^ 7 + 2 ^ 12)).fuseGo src))) ∧
    (Takes s src .secFuseProg 0 (m.toNat * 2 ^ 8 + 2 ^ 12) →
      exec (.revoke src m) s = .next (s.after ((s.rowWrite .secFuseProg 0 (m.toNat * 2 ^ 8 + 2 ^ 12)).fuseGo src))) ∧
    (Takes s src .clkWake 0 v.toNat →
      exec (.clkWake src v) s = .next (s.after ((s.rowWrite .clkWake 0 v.toNat).clkWake v.toNat)) ∧
      ((s.rowWrite .clkWake 0 v.toNat).clkWake v.toNat).mem = s.mem)

/-- (R15; R343; R368; R422) Where a descriptor may be taken, reads without an error and waits for no earlier request:
TAKE_DESCRIPTOR adds to the requests of the context the request of that slot with the 128 bytes of the ring, moves SQ_HEAD by
one slot around the ring and changes no memory. The request has ended already with RESET where the ingress is fenced, with
ABORTED where the partition is EMPTY and with INVALID_ARG where the common header is not in order, the largest code that
applies; otherwise it has not begun. -/
def Obligations.DescriptorIsTaken : Prop :=
  ∀ (s : State) (c : BitVec 12), s.live = true → s.mayTake c.toNat = true →
    let head := s.f F.CTX_STAT_SQ_HEAD c.toNat
    let a := s.fAddr F.CTX_SQ_ADDR c.toNat + 128 * head
    let d := s.peek a 128
    s.readCode a 128 = .ok → (bit (byteAt d 6) 1 = false ∨ (s.ctx c.toNat).reqs = []) →
    ∃ t, exec (.takeDescriptor c) s = .next (s.after t) ∧ t.mem = s.mem ∧ t.ecc = s.ecc ∧
      (t.ctx c.toNat).reqs = (s.ctx c.toNat).reqs ++ [newReq head d s.now
        (if s.fencedFor (s.partOf c.toNat) [persIngress] then .finished (Compl.code .reset)
         else if s.trlState (s.partOf c.toNat) = trlEmpty then .finished (Compl.code .aborted)
         else if !headerOk d c.toNat then .finished (Compl.code .invalidArg) else .fresh) false] ∧
      t.f F.CTX_STAT_SQ_HEAD c.toNat = (head + 1) % s.sqDepth c.toNat % 2 ^ 16

/-- (R342; R344; R424) Where the oldest request of a context has ended, its completion may be written and the completion ring has
room: WRITE_COMPLETION stores the 32 bytes of the completion at the tail of the ring; every byte of HBM outside them reads as
before; the request is gone, the ring holds one more, the phase turns where the tail wraps, and the context's interrupt is
raised where the descriptor asks for it; then a context that is closing or being reset and has no request left ends that. -/
def Obligations.CompletionIsWritten : Prop :=
  ∀ (s : State) (c : BitVec 12) (r : Req) (rest : List Req) (k : Compl),
    s.live = true → (s.ctx c.toNat).reqs = r :: rest → r.work = .finished k →
    (s.ctxState c.toNat ≠ ctxSuspended ∨ (s.ctx c.toNat).release = true) → (s.ctx c.toNat).cqUsed < s.cqDepth c.toNat →
    let tail := s.f F.CTX_STAT_CQ_TAIL c.toNat
    let a := s.fAddr F.CTX_CQ_ADDR c.toNat + 32 * tail
    let d := complBytes r c.toNat (s.ctx c.toNat).phase k
    let next := (tail + 1) % s.cqDepth c.toNat
    let u := ((s.store a d).setF F.CTX_STAT_CQ_TAIL c.toNat next).setCtx c.toNat fun x =>
      { x with reqs := rest, cqUsed := x.cqUsed + 1, phase := if next = 0 then !x.phase else x.phase, progress := s.now }
    let t := (if bit (byteAt r.desc 6) 0 then u.ctxIntr c.toNat else u).ctxIdle c.toNat
    exec (.writeCompletion c) s = .next (s.after t) ∧ t.mem = (s.store a d).mem ∧ t.ecc = (s.store a d).ecc ∧
      ∀ b, inHbm a d.length = true → inHbm b 1 = true → (b < a ∨ a + d.length ≤ b) → (s.store a d).peek b 1 = s.peek b 1

/-- (R100; R101; R102; R118; R119; R120) For every store of bytes that lie in HBM, in every state of the check code and under both
address mappings: reading those bytes returns what was stored, every byte of HBM outside them reads as before, and memory
keeps its canonical form. Two bytes of HBM never share a physical place. -/
def Obligations.MemoryReadsBack : Prop :=
  ∀ (s : State) (a : Nat) (d : Bytes), inHbm a d.length = true →
    (s.store a d).peek a d.length = d ∧
    (∀ b, inHbm b 1 = true → (b < a ∨ a + d.length ≤ b) → (s.store a d).peek b 1 = s.peek b 1) ∧
    (Memory.wf s.mem = true → Memory.wf (s.store a d).mem = true) ∧
    ∀ x y, inHbm x 1 = true → inHbm y 1 = true → s.phys x = s.phys y → x = y

/-- (R118; R119) For every nonzero error in one of the four data symbols of a codeword, the syndromes name that symbol: the pair
(e, α^i·e) reads as corrected at symbol i. A pair with e = 0 names check symbol 5, or the poison mark, and a zero second
syndrome check symbol 4. -/
def Obligations.SingleSymbolIsCorrected : Prop :=
  (∀ (e : BitVec 64) (i : Nat), e ≠ 0#64 → i < 4 → (Syn.mk e (mulAlphaN i e)).read = .corrected i) ∧
    (∀ e : BitVec 64, e ≠ 0#64 → (Syn.mk e 0#64).read = .corrected 4 ∧
      (Syn.mk 0#64 e).read = if e = 0x8000000000000000#64 then .poisoned else .corrected 5) ∧ (Syn.mk 0#64 0#64).read = .clean

/-- (R350; R351; R356) SUSPEND_DONE of a SUSPENDING context makes it SUSPENDED, clears PREEMPT, marks every request that runs on
as saved, empties its press slots and writes the save area alone: the bytes that stand there are free values. SLOWDOWN_LATCH
at the end of a period latches the figures of every tenant, starts a period of the length that CTX_SLOW_CFG then names and
changes no memory. -/
def Obligations.SuspendAndSlowdown : Prop :=
  ∀ (s : State) (c : BitVec 12), s.live = true →
    (s.ctxState c.toNat = ctxSuspending → ∃ t, exec (.suspendDone c) s = .next (s.after t) ∧ t.ctxState c.toNat = ctxSuspended ∧
      t.f F.CTX_CTL_PREEMPT c.toNat = 0 ∧
      t.mem = ((s.draw.1.clearSlots c.toNat).store (s.fAddr F.CTX_SAVE_ADDR c.toNat)
        ((List.range (s.saveLen c.toNat)).map (Config.saveByte s.free))).mem ∧
      (t.ctx c.toNat).reqs.length = (s.ctx c.toNat).reqs.length) ∧
    (s.slowPer = 0 ∨ s.due s.slowAt (1000 * s.slowPer) = true → ∃ t, exec .slowdownLatch s = .next (s.after t) ∧ t.slow = [] ∧
      t.slowPer = s.f F.CTX_SLOW_CFG_PERIOD_MS 0 ∧ t.mem = s.mem ∧ t.ctxs = s.ctxs)

/-- (R81; R90; R261; R348; R359; R422; R470) REQUEST_TIMEOUT ends a request whose limit has passed, unless it completes normally,
with TIMEOUT; SYNC_TIMEOUT ends a request that waits at a SYNC object past its own time with TIMEOUT and counts it;
SPILL_WAIT_TIMEOUT and LOG_WAIT_TIMEOUT end an update that has waited 100 ms for a block or for the log with QUOTA;
REQUEST_REVOKE ends a query whose vintage has fallen too far behind with ABORTED and counts it. -/
def Obligations.RequestsTimeOut : Prop :=
  ∀ (s : State) (c : BitVec 12) (q : BitVec 16) (r : Req), s.live = true → s.req c.toNat q.toNat = some r →
    (∀ t, r.limit = some t → t ≤ s.now → s.keeps r = false →
      exec (.requestTimeout c q) s = .next (s.after (s.endReq c.toNat q.toNat .timeout))) ∧
    (∀ i ep n since, r.work = .sync i (.wait ep) n since → opN r.desc 16 3 ≠ 0 → s.due since (opN r.desc 16 3) = true →
      exec (.syncTimeout c q) s =
        .next (s.after ((s.finishCode c.toNat q.toNat .timeout).addF F.SYNC_STAT_TIMEOUTS (i / 1024) 1))) ∧
    (∀ t, r.work = .blockWait t → s.due t 100000 = true →
      exec (.spillWaitTimeout c q) s = .next (s.after ((s.detach c.toNat q.toNat).finishCode c.toNat q.toNat .quota))) ∧
    (∀ t, r.work = .logWait t → s.due t 100000 = true →
      exec (.logWaitTimeout c q) s = .next (s.after ((s.detach c.toNat q.toNat).finishCode c.toNat q.toNat .quota))) ∧
    (∀ i, r.index = some i → r.work.isStamped = false → r.work.ended = false → r.vintage + Config.vintageGap ≤ (s.idx i).openV →
      exec (.requestRevoke c q) s = .next (s.after ((s.endReq c.toNat q.toNat .aborted).addF F.VINT_STAT_PIN_REVOKED i 1)))

/-- (R30; R344; R356; R435) When a request ends with a completion, the request of that slot has ended and its completion is that
one; memory, check codes, every register, every other context, indexes, press units, the cellar, the pool, the fabric, faults
and power are as before. -/
def Obligations.EndOfRequestChangesLittle : Prop :=
  ∀ (s : State) (c q : Nat) (k : Compl),
    let t := s.finish c q k
    t.mem = s.mem ∧ t.ecc = s.ecc ∧ (∀ r i, t.reg r i = s.reg r i) ∧ t.idxs = s.idxs ∧ t.press = s.press ∧ t.cellar = s.cellar ∧
      t.pool = s.pool ∧ t.fab = s.fab ∧ t.flt = s.flt ∧ t.pwr = s.pwr ∧ t.jobs = s.jobs ∧ (t.ctx c).progress = s.now ∧
      (∀ e, e ≠ c → t.ctx e = s.ctx e) ∧ (∀ r, s.req c q = some r → { r with work := .finished k } ∈ (t.ctx c).reqs) ∧
      (t.ctx c).reqs.length = (s.ctx c).reqs.length

/-- (R80; R423) A PIN that may run, with its fields in order, an index that it may use, a vintage that may be pinned and room for
it adds a pin with the first handle that no pin of this node's contexts on the index has; on an index of this node alone it
completes with that handle, on a global one it asks the other nodes of the composition for the pin and waits for their
answers. An UNPIN of a pin of its own tenant removes it, here and on the other nodes, and completes; PIN_REVOKE of a pin that
is too far behind the open vintage removes it and counts it. On an index of this node alone neither changes memory. Which
handle a pin gets is the model's choice (log entry 44). -/
def Obligations.PinsAreHeldAndReleased : Prop :=
  ∀ (s₀ : State) (c : BitVec 12) (q : BitVec 16) (r₀ : Req),
    let s := s₀.begin c.toNat q.toNat r₀
    let r := s₀.accept c.toNat r₀
    let i := opN r.desc 2 2
    (∀ v, Runs s₀ c.toNat q.toNat 0x04 r₀ → opZero r.desc 1 1 = true → i < 4096 → opZero r.desc 4 4 = true → opZero r.desc 16 80 = true →
      s.idxCheck c.toNat i = none → s.pinVintage i (opN r.desc 8 8) = some v → (s.idx i).pins.length < 16 →
      let h := freshHandle (s.idx i).pins
      let u := s.setIdx i fun x => { x with pins := x.pins ++ [⟨h, v, c.toNat, false, none⟩] }
      let t := u.pinPeers c.toNat q.toNat i h v r.desc
      (t.pool.needs = [] → exec (.pin c q) s₀ = .next (s₀.after t)) ∧ (∀ p ∈ (s.idx i).pins, p.home = none → p.handle ≠ h) ∧
        (s.idxComp i = none → t = u.finish c.toNat q.toNat (Compl.success false false false 0 h) ∧ t.mem = s₀.mem ∧
          exec (.pin c q) s₀ = .next (s₀.after t))) ∧
    (Runs s₀ c.toNat q.toNat 0x05 r₀ → opZero r.desc 1 1 = true → i < 4096 → opZero r.desc 6 90 = true → s.idxCheck c.toNat i = none →
      let h := opN r.desc 4 2
      ((s.idx i).pins.any fun p => p.handle == h && !p.ckpt && p.home.isNone && s.tenant p.ctx == s.tenant c.toNat) = true →
      let t := ((s.dropPin i h).unpinPeers i h).finishCode c.toNat q.toNat .ok
      (t.pool.needs = [] → exec (.unpin c q) s₀ = .next (s₀.after t)) ∧
        (s.on F.VINT_IDX_CFG_SCOPE i = false → t = (s.dropPin i h).finishCode c.toNat q.toNat .ok ∧ t.mem = s₀.mem ∧
          exec (.unpin c q) s₀ = .next (s₀.after t))) ∧
    ∀ (s : State) (j : BitVec 12) (h : BitVec 16), s.live = true →
      let old (p : Pin) : Bool := p.handle == h.toNat && decide (p.vintage + Config.vintageGap ≤ (s.idx j.toNat).openV)
      (s.idx j.toNat).pins.any old = true →
      let t := ((s.setIdx j.toNat fun x => { x with pins := dropFirst old x.pins }).addF F.VINT_STAT_PIN_REVOKED j.toNat 1).idxIntr j.toNat
      exec (.pinRevoke j h) s = .next (s.after t) ∧ t.mem = s.mem

/-- (R68; R69; R70; R71; R73; R423) An INSERT, DELETE or BATCH that may run, on an index that it may use whose partition holds an
update tile that is not fenced, with updates that are in order and that the index stages, leaves the state with those updates
staged and its request waiting, stamped with the open vintage and with the number of updates; requests whose vintage is
complete already complete at once. Said where the descriptor's space needs no line of cask space that the node lacks. -/
def Obligations.UpdatesAreStamped : Prop :=
  ∀ (s₀ s1 s2 : State) (c : BitVec 12) (q : BitVec 16) (op : Nat) (r₀ : Req) (us : List Upd) (k v : Nat),
    let s := s₀.begin c.toNat q.toNat r₀
    let r := s₀.accept c.toNat r₀
    Runs s₀ c.toNat q.toNat op r₀ → opN r.desc 2 2 < 4096 → byteAt r.desc 33 < 2 → opZero r.desc 24 8 = true →
    let i := opN r.desc 2 2
    s.updCheck c.toNat i op = none → s.hasPers (s.f F.VINT_IDX_CFG_PARTITION i) persUpdate = true →
    s.fencedFor (s.f F.VINT_IDX_CFG_PARTITION i) [persUpdate] = false → s.updates c.toNat i r.desc = (s1, .ok us) → us ≠ [] →
    s1.stage i us = .ok (s2, k, v) →
    let t := (s2.setReq c.toNat q.toNat fun x => { x with work := .stamped v (bit (byteAt r.desc 33) 0) k, index := some i, vintage := v
                                                  }).completeUpdates i
    t.pool.needs = [] →
    (op = 1 → exec (.insert c q) s₀ = .next (s₀.after t)) ∧ (op = 2 → exec (.delete c q) s₀ = .next (s₀.after t)) ∧
      (op = 3 → exec (.batch c q) s₀ = .next (s₀.after t))

/-- (R73; R75; R76; R78; R94; R261; R450) CLOSE_INTERVAL of an enabled index of a lone node or of rank 0 whose timer has passed
starts a close; CLOSE takes the vintage that is open for a close that has none, which opens the next one; VINTAGE_PUBLISH of a
close whose marker is in the log, on a lone node, publishes its vintage and ends the close; VINTAGE_DURABLE of a marker that
is durable raises the durable vintage and completes the updates that waited for it. Said of an index that is local or that an
installed map lists: a global index that none lists takes no close. -/
def Obligations.VintagesCloseAndPublish : Prop :=
  ∀ (s : State) (i : BitVec 12), s.live = true → s.idxOn i.toNat = true → s.idxLost i.toNat = false →
    (s.f F.VINT_TRIG_INTERVAL_US i.toNat ≠ 0 → s.due (s.idx i.toNat).timer (max 50 (s.f F.VINT_TRIG_INTERVAL_US i.toNat)) = true →
      s.idxRank i.toNat = 0 → (s.idx i.toNat).awaiting = false →
      exec (.closeInterval i) s = .next (s.after (s.startClose i.toNat)) ∧ (s.startClose i.toNat).mem = s.mem ∧
        ((s.startClose i.toNat).idx i.toNat).close.isSome = true) ∧
    (∀ k, (s.idx i.toNat).close = some k → k.vintage = 0 →
      exec (.close i) s = .next (s.after (s.takeClose i.toNat (s.idx i.toNat).openV))) ∧
    (∀ k, (s.idx i.toNat).close = some k → k.handed = true → s.idxRank i.toNat = 0 → s.idxComp i.toNat = none →
      k.vintage ≤ s.durable i.toNat + 1024 → s.allPrepared i.toNat k.vintage = true →
      exec (.vintagePublish i) s = .next (s.after (s.endClose i.toNat k)) ∧ (s.handMarker i.toNat) = s) ∧
    (∀ v n sq rest, (s.idx i.toNat).markers = (v, n, sq) :: rest → (List.range (n + 1)).all s.logDurable = true →
      let u := (s.setF F.VINT_DURABLE_VINTAGE i.toNat (max v (s.durable i.toNat))).setIdx i.toNat fun x =>
        { x with markers := rest, durSeq := sq }
      exec (.vintageDurable i) s = .next (s.after (u.completeUpdates i.toNat)) ∧
        u.durable i.toNat = max v (s.durable i.toNat) % 2 ^ 64 ∧ u.mem = s.mem)

/-- (R82; R83; R85; R86; R87; R90; R99; R261; R447) At a place of a list: RACKING of a block that may be racked leaves it racked,
with its next block where both fit one; AGE_REBASE of one that is due rewrites it against the horizon; SPILL_MOVE moves an
entry that may move; BLOCK_REPAIR rewrites a damaged block. BLOCK_FREE of a block that waits for no running pass and no
running search marks it free, and a spill block is no longer counted. LOG_FLUSH writes the log's buffer out when its oldest
record is old enough, and whole pages of it when it holds some. -/
def Obligations.BlocksAreKept : Prop :=
  ∀ (s t : State) (i : BitVec 12) (a : BlockAt) (k : BitVec 8) (u : BitVec 9) (b : BitVec 24) (p : Place) (o : RackOut),
    s.live = true →
    (s.placeIn i.toNat a.list.toNat a.chain.toNat a.block.toNat = some p →
      (s.mayRack i.toNat p a.block.toNat = true → s.rackBlock i.toNat p a.block.toNat = some t →
        exec (.racking i a) s = .next (s.after t)) ∧
      (s.mayRebase i.toNat p a.block.toNat = true →
        s.rackAt i.toNat p [a.block.toNat] (s.horizon i.toNat) (s.horizon i.toNat) false = some (t, o) →
        exec (.ageRebase i a) s = .next (s.after t)) ∧
      (∀ cs, s.chains i.toNat a.list.toNat = .ok cs → s.mayMove i.toNat p a.block.toNat k.toNat = true →
        s.moveEntry i.toNat p cs a.block.toNat k.toNat = .ok t → exec (.spillMove i a k) s = .next (s.after t)) ∧
      (s.mayRepair i.toNat p a.block.toNat = true → s.repairBlock i.toNat p a.block.toNat = some t →
        exec (.blockRepair i a) s = .next (s.after t))) ∧
    (let mine (x : ToFree) : Bool := x.unit == u.toNat && x.block == b.toNat && (x.passes.all fun y => !(s.pu y.1).passes.contains y.2) &&
       x.jobs.all fun id => (s.job id).isNone
     s.toFree.any mine = true →
      ∃ w, exec (.blockFree u b) s = .next (s.after w) ∧ w.toFree = dropFirst mine s.toFree ∧
        w.mem = (s.setFree u.toNat b.toNat true).mem ∧
        ((s.hdr u.toNat b.toNat).spill = true →
          w.f F.VINT_SPILL_CFG_SPILL_USED 0 = s.f F.VINT_SPILL_CFG_SPILL_USED 0 - 1)) ∧
    (let since := (s.cellar.logBuf.head?.map (·.since)).getD 0
     s.cellar.logBuf ≠ [] → (s.due since (s.f F.CELLAR_CFG_LOG_FLUSH_US 0) = true →
        exec .logFlush s = .next (s.after (s.flushLog true))) ∧
      (s.due since (s.f F.CELLAR_CFG_LOG_FLUSH_US 0) = false → 128 ≤ s.cellar.logBuf.length →
        exec .logFlush s = .next (s.after (s.flushLog false))))

/-- (R66; R138; R139; R141; R144; R395; R423; R555) A SEARCH, SEARCH_GRAPH or SEARCH_DELETE not yet begun, whose checks pass,
whose vintage may be pinned, with at least one query, whose partition has the personalities it needs and no fence, and whose
composition is not being removed: the request is pinned to that vintage of its index and to the epoch of its map, and the
search begins at once where GROUP_WAIT_NS is 0 or the search is over a graph or over bitmaps. Otherwise it is held for its
pass until the time that GROUP_WAIT_NS then gives; where it fills the slots of the pass, every search held for the pass
begins. PASS_GROUP_TIMEOUT begins the held searches of a pass once it is full or the wait of one is over, and does nothing
before. -/
def Obligations.SearchesBegin : Prop :=
  (∀ (s₀ : State) (c : BitVec 12) (q : BitVec 16) (r₀ : Req) (v op : Nat) (i : Instr),
    (i, op) ∈ [(Instr.search c q, 0x10), (.searchGraph c q, 0x11), (.searchDelete c q, 0x12)] →
    Runs s₀ c.toNat q.toNat op r₀ → r₀.work = .fresh →
    let s := s₀.begin c.toNat q.toNat r₀
    let r := s₀.accept c.toNat r₀
    let d := r.desc
    let x := opN d 2 2 % 4096
    let t := (s.searchChecks c.toNat d).1
    let p := t.f F.VINT_IDX_CFG_PARTITION x
    (s.searchChecks c.toNat d).2.bad = false → t.pinVintage x (opN d 24 8) = some v → opN d 4 2 ≠ 0 → t.searchPers p d = true →
    (srDelete d = true → t.hasPers p persUpdate = true) → t.fencedFor p [persRoute, persDispatch, persMerge] = false →
    (∀ n m, t.idxComp x = some (n, m) → (t.comp n).removing = false) →
    let e := t.idxEpoch x
    let r' : Req := { r with index := some x, vintage := v, comp := e.1, epoch := e.2 }
    let u := t.setReq c.toNat q.toNat fun y => { y with index := some x, vintage := v, comp := e.1, epoch := e.2 }
    let wait := t.f F.TILE_DISPATCH_GROUP_WAIT_NS p
    let now' := (u.beginSearch c.toNat q.toNat r').closePasses
    let held := u.setWork c.toNat q.toNat (.grouped (u.now + ceilDiv wait 1000))
    (srGraph d = true ∨ srBitmap d = true ∨ wait = 0 → now'.pool.needs = [] → exec i s₀ = .next (s₀.after now')) ∧
    (srGraph d = false → srBitmap d = false → wait ≠ 0 →
      (held.grouped r' < held.passSlots x → held.pool.needs = [] → exec i s₀ = .next (s₀.after held)) ∧
      (held.passSlots x ≤ held.grouped r' → (held.beginGroup r').pool.needs = [] →
        exec i s₀ = .next (s₀.after (held.beginGroup r'))))) ∧
  (∀ (s : State) (c : BitVec 12) (q : BitVec 16) (r : Req) (t i : Nat), s.live = true → s.req c.toNat q.toNat = some r →
    r.work = .grouped t → r.index = some i → s.ctxState c.toNat = ctxEnabled →
    (s.passSlots i ≤ s.grouped r ∨ t ≤ s.now → (s.beginGroup r).pool.needs = [] →
      exec (.passGroupTimeout c q) s = .next (s.after (s.beginGroup r))) ∧
    (s.grouped r < s.passSlots i → s.now < t → exec (.passGroupTimeout c q) s = .next (s.after s)))

/-- (R166; R168; R169; R173; R181; R182; R183; R193; R194; R209) A combination of parts keeps the k best candidates, or all where
there are fewer: each is one of the parts', no later one has a higher score than an earlier one. SELECT of a row of this node,
with fields in order and addresses that the context reaches, runs its selection as a job and ends; one over a composition that
is not being removed sends its sub-requests and runs as a job. ATTEND and ATTEND_BWD with a readable lengths table, fields in
order, reachable operands, page lists of pages that exist and the personalities they need: every group is attended in order,
what the groups give is stored, and the request ends with the number of heads (ATTEND) or 0; a group that meets a code ends
the command with it. -/
def Obligations.SelectionAndAttention : Prop :=
  (∀ (m : Bool) (k : Nat) (l : List Part),
    let all := l.flatMap (·.cands)
    let out := (combine false m k l).part.cands
    out.length = min k all.length ∧ (∀ x ∈ out, x ∈ all) ∧ out.Pairwise (fun x y => fLt x.score y.score = false) ∧ (combine false m k l).dups = 0) ∧
  (∀ (s₀ : State) (c : BitVec 12) (q : BitVec 16) (r₀ : Req), Runs s₀ c.toNat q.toNat 0x14 r₀ →
    let s := s₀.begin c.toNat q.toNat r₀
    let d := r₀.desc
    let n := opN d 8 8 % 2 ^ 40
    let part := s.partOf c.toNat
    let a := s.reach c.toNat (opN d 16 8) (n * (fmtBits (opN d 2 1 % 3) / 8)) false
    let b := if bit (opN d 1 1) 2 then a.1.reach c.toNat (opN d 24 8) (8 * n) false else (a.1, Code.ok)
    let e := b.1.reach c.toNat (opN d 32 8) (64 + 16 * (opN d 4 4 % 2 ^ 21)) true
    let t := e.1
    selectOk d = true → a.2 = .ok → b.2 = .ok → e.2 = .ok → (t.selStage part (opN d 4 4 % 2 ^ 21)).isSome = true →
    t.fencedFor part [persMerge] = false →
    (bit (opN d 1 1) 3 = false → ∀ (u : State) (x : QJob), t.selectHere (.ctx c.toNat q.toNat) (t.tenant c.toNat) part d 0 = (u, .ok x) →
      let w := u.selectOwn c.toNat q.toNat part d x
      w.pool.needs = [] → exec (.select c q) s₀ = .next (s₀.after w)) ∧
    (bit (opN d 1 1) 3 = true → ∀ (slot id : Nat) (m : CompMap) (u : State), t.ctxComp c.toNat = some (slot, m) → (t.comp slot).removing = false →
      t.distSelect (.ctx c.toNat q.toNat) (t.tenant c.toNat) part slot m d (decide (m.members.length ≤ 16) || m.rank % 16 == 0) m.selectAsks
        (List.range m.members.length) = (u, .ok id) →
      let w := (u.setReq c.toNat q.toNat fun r => { r with work := .job id, comp := some slot, epoch := m.epoch }).runJob 64 id
      w.pool.needs = [] → exec (.select c q) s₀ = .next (s₀.after w))) ∧
  (∀ (s₀ : State) (c : BitVec 12) (q : BitVec 16) (r₀ : Req) (i : Instr) (op : Nat),
    (i, op) ∈ [(Instr.attend c q, 0x18), (.attendBwd c q, 0x19)] → Runs s₀ c.toNat q.toNat op r₀ →
    let s := s₀.begin c.toNat q.toNat r₀
    let r := s₀.accept c.toNat r₀
    let a := attOf r.desc (r.snap.headD 0)
    let part := s.partOf c.toNat
    let nseq := opN a.d 12 2
    let g := s.ctxLoad c.toNat (opN a.d 24 8) (32 * nseq)
    let seqs := seqsOf g.2.1 nseq
    let total := (seqs.map (·.count)).sum
    let x := g.1.reach c.toNat (opN a.d 32 8) (total * a.heads * a.qs) false
    let y := if a.bwd then x.1.reach c.toNat (opN a.d 48 8) (nseq * a.hkv * a.ls) false
      else x.1.reach c.toNat (opN a.d 40 8) (total * a.heads * a.rs) true
    let t := y.1
    g.2.2.bad = false → a.ok = true → ((List.range nseq).all fun k => seqOk (slice g.2.1 (32 * k) 32)) = true →
    (x.2.worst y.2).bad = false → (a.bwd = true → t.listsOk c.toNat a seqs = true) → t.attPers part a = true →
    t.fencedFor part [persRoute, persDispatch, if a.bwd then persVector else persMerge] = false →
    (∀ (u : State) (l : List (Nat × Bytes)), t.attendGroups c.toNat part total a seqs = (u, .ok l) →
      let w := (u.ctxStores c.toNat l).1.finish c.toNat q.toNat (Compl.of (u.ctxStores c.toNat l).2 (if a.bwd then 0 else total * a.heads) 0)
      w.pool.needs = [] → exec i s₀ = .next (s₀.after w)) ∧
    (∀ (u : State) (k : Code), t.attendGroups c.toNat part total a seqs = (u, .error k) →
      let w := (u.failAttn c.toNat a total k).finishCode c.toNat q.toNat k
      w.pool.needs = [] → exec i s₀ = .next (s₀.after w)))

/-- (R215; R216; R217; R219; R220; R222; R225; R226; R227; R228) A GATHER or SCATTER whose checks pass and none of whose owners is
down: with every row on this node, or in a prefetched copy that is still fresh, it reads, combines and reports, or sums and
applies the gradients, and ends; with rows of other nodes it sends one sub-request to each owner and waits for them. A SCATTER
that only writes gradients sums them, asks the owners of other nodes' rows for them first, stores its list and ends. ROW_WRITE
of a table that no older gather pins, with no older write of it that waits, writes its rows at the open version, reports it
and ends, or waits. PUBLISH of a table that is still enabled raises its version by one; it reports the version and ends. -/
def Obligations.EmbeddingCommandsRun : Prop :=
  ∀ (s₀ : State) (c : BitVec 12) (q : BitVec 16) (r₀ : Req),
    let s := s₀.begin c.toNat q.toNat r₀
    let r := s₀.accept c.toNat r₀
    let x := embOf r.desc
    let d := r.desc
    (Runs s₀ c.toNat q.toNat 0x20 r₀ → ∀ (t : State) (b : Tab) (cm : Option (Nat × CompMap)) (g : Batch),
      s.embChecks c.toNat r x x.gatherOk (fun b => !x.third || b.shadow) false
        [(opN x.d 40 8, x.outs * x.os (r.tab x.t), true), (opN x.d 48 8, 64, true)] = (t, .ok (b, cm, g)) →
      let u := t.issueGather c.toNat x b
      let asks := u.gatherAsks c.toNat r x b (cm.map (·.2)) g
      u.anyDown cm (asks.map (·.1)) = false →
      (asks = [] → let w := u.finishGather c.toNat q.toNat r x b (cm.map (·.2)) g
        w.pool.needs = [] → exec (.gather c q) s₀ = .next (s₀.after w)) ∧
      (asks ≠ [] → ∀ n m, cm = some (n, m) →
        let w := u.askRows c.toNat q.toNat r.desc x.third n m asks
        w.pool.needs = [] → exec (.gather c q) s₀ = .next (s₀.after w))) ∧
    (Runs s₀ c.toNat q.toNat 0x21 r₀ → ∀ (t u : State) (b : Tab) (cm : Option (Nat × CompMap)) (g : Batch) (grads : List (List F32)),
      s.embChecks c.toNat r x x.scatterOk (fun b => x.third || !b.shadow) (!x.third) [(opN x.d 48 8, 64, true)] = (t, .ok (b, cm, g)) →
      t.gradsOf c.toNat x b g = (u, .ok grads) →
      let sums := rowSums x b g grads
      let asks := remoteRows b (cm.map (·.2)) (sums.map (·.1))
      u.anyDown cm (asks.map (·.1)) = false →
      (x.third = false → let w := u.applyGrads c.toNat q.toNat r x b cm asks sums
        w.pool.needs = [] → exec (.scatter c q) s₀ = .next (s₀.after w)) ∧
      (x.third = true → asks = [] → let w := u.emitGrads c.toNat q.toNat r x b (cm.map (·.2)) sums
        w.pool.needs = [] → exec (.scatter c q) s₀ = .next (s₀.after w)) ∧
      (x.third = true → asks ≠ [] → ∀ n m, cm = some (n, m) → let w := u.askRows c.toNat q.toNat r.desc false n m asks
        w.pool.needs = [] → exec (.scatter c q) s₀ = .next (s₀.after w))) ∧
    (Runs s₀ c.toNat q.toNat 0x22 r₀ → ∀ (b : Tab) (cm : Option (Nat × CompMap)),
      s.tabArg c.toNat r (opN d 2 2) (rowWriteOk d) = .ok (b, cm) →
      let y := s.reach c.toNat (opN d 48 8) 64 true
      let z := y.1.ctxLoad c.toNat (opN d 16 8) (opN d 8 4 * b.rs)
      let rows := (pieces b.rs z.2.1).map fun x => (leAt x 0 8, x)
      let t := z.1
      y.2 = .ok → z.2.2 = .ok → t.tilesCode b.part = .ok → b.recsOk (cm.map (·.2)) rows = true →
      t.coldCodes b true (rows.map (·.1)) = .ok →
      (t.writeWaits r b = false →
        let ver := t.openVer r b.t
        let v := (t.writeRows b rows ver).ctxStore c.toNat (opN d 48 8) (EmbRep.bytes ⟨.ok, 0, 0, 0, 0, 0, ver, 0, 0, 0⟩)
        let w := v.1.finish c.toNat q.toNat (Compl.of v.2 (opN d 8 4) ver)
        w.pool.needs = [] → exec (.rowWrite c q) s₀ = .next (s₀.after w)) ∧
      (t.writeWaits r b = true → let w := t.holdWrite c.toNat q.toNat r b
        w.pool.needs = [] → exec (.rowWrite c q) s₀ = .next (s₀.after w))) ∧
    (Runs s₀ c.toNat q.toNat 0x23 r₀ → ∀ (b : Tab) (cm : Option (Nat × CompMap)),
      s.tabArg c.toNat r (opN d 2 2) (publishOk d) = .ok (b, cm) →
      let y := s.reach c.toNat (opN d 48 8) 64 true
      let t := y.1
      y.2 = .ok → t.tilesCode b.part = .ok →
      let ver := t.openVer r b.t
      let u := if t.tabOn b.t then t.setF F.TILE_EMB_VER_VERSION b.t ver else t
      let v := u.ctxStore c.toNat (opN d 48 8) (EmbRep.bytes ⟨.ok, 0, 0, 0, 0, 0, ver, 0, 0, 0⟩)
      let w := v.1.finish c.toNat q.toNat (Compl.of v.2 0 ver)
      (w.pool.needs = [] → exec (.publish c q) s₀ = .next (s₀.after w)) ∧
        (t.tabOn b.t = true → ver = t.tabVer b.t + 1 ∧ u.tabVer b.t = ver % 2 ^ 64))

/-- (R249; R250; R251; R253; R254; R257; R258; R263; R264) A cellar command whose checks pass: CELLAR_READ with reachable memory
reads its slots, piece by piece, and ends or waits for those that come from flash; CELLAR_WRITE of at least one slot, with
readable data and not refused for want of space, writes its slots one after another; CELLAR_DISCARD of at least one slot
discards them. A slot in state zero and not in the write buffer reads as 4,096 zero bytes with no flash access; a LOST one is
lost; after a write the buffer gives the data written; after a discard the slot reads as zeros. A discard leaves memory as it
was where its namespace has no resident map. -/
def Obligations.CellarCommandsRun : Prop :=
  (∀ (s₀ : State) (c : BitVec 12) (q : BitVec 16) (r₀ : Req),
    let s := s₀.begin c.toNat q.toNat r₀
    let r := s₀.accept c.toNat r₀
    let x := celOf r.desc
    (Runs s₀ c.toNat q.toNat 0x30 r₀ → s.celCheck c.toNat r x 0x30 = none → ∀ (t : State) (l : List (Nat × Nat)),
      s.ctxMap c.toNat x.addr x.len true = (t, .ok l) →
      let y := t.readPieces c.toNat q.toNat x (if x.dead = 0 then none else some (r.takenAt + x.dead))
      let w := if y.2.1 = 0 then y.1.finishCode c.toNat q.toNat y.2.2 else y.1.setWork c.toNat q.toNat (.reading y.2.1 y.2.2)
      w.pool.needs = [] → exec (.cellarRead c q) s₀ = .next (s₀.after w)) ∧
    (Runs s₀ c.toNat q.toNat 0x31 r₀ → s.celCheck c.toNat r x 0x31 = none →
      let y := s.ctxLoad c.toNat x.addr x.len
      y.2.2.bad = false → x.len ≠ 0 → y.1.writeRefused r.nsDesc.kind = false →
      let w := y.1.writeSlots c.toNat q.toNat x y.2.1
      w.pool.needs = [] → exec (.cellarWrite c q) s₀ = .next (s₀.after w)) ∧
    (Runs s₀ c.toNat q.toNat 0x32 r₀ → s.celCheck c.toNat r x 0x32 = none → x.len / 4096 ≠ 0 →
      let w := s.discardSlots c.toNat q.toNat x
      w.pool.needs = [] → exec (.cellarDiscard c q) s₀ = .next (s₀.after w))) ∧
  ∀ (s : State) (n k : Nat) (d : Bytes) (p : Purpose),
    (SMap.find s.cellar.buffer (mapKey n k) = none →
      (entryState (s.mapEntry (mapKey n k)) = 0 → s.slotRead n k = .here (zeros 4096)) ∧
      (2 ≤ entryState (s.mapEntry (mapKey n k)) → s.slotRead n k = .lost)) ∧
    (s.discardSlot n k).slotRead n k = .here (zeros 4096) ∧
    ((s.nsOn (mapKey n k / 2 ^ 40) && (s.nsDesc (mapKey n k / 2 ^ 40)).resident) = false → (s.discardSlot n k).mem = s.mem) ∧
    (s.writeSlot n k d p).slotRead n k = .here d

/-- (R238; R245; R251; R255; R256; R258; R259; R260) LUN_DISPATCH of an idle LUN of a READY channel starts its next operation: the
timed read with the earliest deadline, else the oldest read of a command or of a rerank; with none the program of the lowest
stream number; with none a relocation read; with none an erase of a block that no read under way resolved to; where the
channel's group sleeps, work that waits wakes it first; a LUN at work is left alone. FRAME_READ_DONE delivers, moves or loses
the frame of the read; a read given up at its deadline leaves the LUN idle alone. READ_DEADLINE counts the read and ends it
with TIMEOUT, no earlier than its deadline. PROGRAM_DONE makes the frames of its page take effect, PROGRAM_FAILURE retires the
block and rewrites the page, ERASE_DONE frees the block or retires it; an erased block holds no frame and has one P/E cycle
more. -/
def Obligations.LunsServeTheirQueues : Prop :=
  ∀ (s : State) (c : BitVec 6) (tg : BitVec 3) (n : BitVec 2) (o : DecodeOut) (id : Nat), s.live = true →
    let key := lunKey c.toNat tg.toNat n.toNat
    ((s.chIsReady c.toNat && (s.lunsOf c.toNat).contains (tg.toNat, n.toNat)) = true → (s.lunSt key).op = .idle →
      let g := 40 + groupOfCh c.toNat
      (s.depth g = 0 → exec (.lunDispatch c tg n) s = .next (s.after (s.dispatchLun key))) ∧
      (s.depth g ≠ 0 → s.lunWaits key = true → exec (.lunDispatch c tg n) s = .next (s.after (s.wakeFor g)))) ∧
    ((s.lunSt key).op ≠ .idle → exec (.lunDispatch c tg n) s = .next (s.after s)) ∧
    (∀ r, (s.lunSt key).op = .read id → (s.cellar.reads.find? fun r => r.id == id) = some r → s.stageMay (entryPlace r.entry) o = true →
      (s.frameRead key r o).pool.needs = [] → exec (.frameReadDone c tg n o) s = .next (s.after (s.frameRead key r o))) ∧
    ((s.lunSt key).op = .read id → (s.cellar.reads.find? fun r => r.id == id) = none →
      exec (.frameReadDone c tg n o) s =
        .next (s.after ((s.setLun key fun l => { l with op := .idle }).addF F.CELLAR_CH_STAT_READS c.toNat 1))) ∧
    (∀ r t, (s.cellar.reads.find? fun r => r.id == id) = some r → r.deadline = some t →
      (s.now < t → exec (.readDeadline id) s = .next (s.after s)) ∧
      (t ≤ s.now → (s.abandonRead r).pool.needs = [] → exec (.readDeadline id) s = .next (s.after (s.abandonRead r)))) ∧
    (∀ p, (s.lunSt key).op = .program p →
      let u := s.setLun key fun l => { l with op := .idle }
      exec (.programDone c tg n) s = .next (s.after ((u.addF F.CELLAR_CH_STAT_PROGRAMS c.toNat 1).pageDone p).eraseEmptied) ∧
      exec (.programFailure c tg n) s = .next (s.after
        ((u.addF F.CELLAR_ERR_B_PROG_FAIL (groupOfCh c.toNat) 1).loseBlock (memberKey p.ch p.tg p.lun p.block) [p]))) ∧
    (∀ k, (s.lunSt key).op = .erase k →
      exec (.eraseDone c tg n true) s = .next (s.after (s.erased key k).noteWear.retryWaiting) ∧
      exec (.eraseDone c tg n false) s = .next (s.after
        (((s.erased key k).addF F.CELLAR_ERR_B_ERASE_FAIL (groupOfCh c.toNat) 1).retire k).noteWear.retryWaiting) ∧
      (∀ p f, (p, f) ∈ (s.erased key k).cellar.flash → placeMember p ≠ k) ∧
      ((s.erased key k).blockSt k).pe = (s.blockSt k).pe + 1 ∧ ((s.erased key k).blockSt k).taken = false ∧
      ((s.erased key k).lunSt key).op = .idle ∧ (s.erased key k).mem = s.mem) ∧
    (∀ l : List ReadReq, l.any (·.deadline.isSome) = true → ∃ r ∈ l, nextRead l = some r ∧ r.deadline.isSome = true ∧
      ∀ x ∈ l, ∀ t, x.deadline = some t → r.deadline.getD 0 ≤ t)

/-- (R239; R240; R245; R250; R255; R256; R265; R266; R268; R553; R560) CHANNEL_TRAINING_END takes a channel from TRAINING to
FAILED_PART where a target is not accepted, to FAILED_TRAIN where training failed, and to READY otherwise; FAILED_RUN stops a
READY channel; CELLAR_START_END ends a start: START reads 0, USER_SLOTS has its value. GARBAGE_COLLECTION empties a closed and
verified superblock with the fewest live frames, WEAR_LEVELLING, while the wear is uneven, the one with the least-worn block.
SUPERBLOCK_VERIFY of a settled superblock counts the reads of its frames, moves the weak ones, those that did not decode in
hard decision or with more corrected bits than VERIFY_LIMIT, and marks it verified; MAP_SEGMENT_FLUSH writes the changed
segments; ZQ_SHORT_CALIBRATION is done every 100 ms; TEMPERATURE_SAMPLE counts each second the hottest target of each group;
an access to window 3 changes nothing, or is recorded where it is refused. -/
def Obligations.CellarKeepsItsFlash : Prop :=
  ∀ (s : State) (c : BitVec 6) (ts : List TargetReport) (tr : Bool), s.live = true →
    (c.toNat < 48 → s.chState c.toNat = chTraining →
      let n := SMap.get 0 s.cellar.chTargets c.toNat
      let t := s.setCel fun x => { x with geom := (s.acceptTargets n ts).2 }
      ((s.acceptTargets n ts).1 = false → exec (.channelTrainingEnd c ts tr) s =
        .next (s.after ((t.setF F.CELLAR_CH_STAT_STATE c.toNat chFailedPart).event F.TOP_INT_STAT_CELLAR))) ∧
      ((s.acceptTargets n ts).1 = true → exec (.channelTrainingEnd c ts false) s =
        .next (s.after ((t.setF F.CELLAR_CH_STAT_STATE c.toNat chFailedTrain).event F.TOP_INT_STAT_CELLAR))) ∧
      ((s.acceptTargets n ts).1 = true →
        let u := t.channelUp c.toNat n ts
        exec (.channelTrainingEnd c ts true) s = .next (s.after (if u.cellar.started then u.addSpare c.toNat else u)) ∧
        u.chState c.toNat = chReady ∧ u.mem = s.mem)) ∧
    (c.toNat < 48 → s.chState c.toNat = chReady → exec (.failedRun c) s =
      .next (s.after (((s.stopChannel c.toNat chFailedRun).linkLost (0x120 + c.toNat)).event F.TOP_INT_STAT_CELLAR))) ∧
    (∀ n, s.cellar.starting = some n → exec .cellarStartEnd s = .next (s.after (s.endStart n).noteWear.checkSpare) ∧
      (s.endStart n).cellar.started = true ∧ (s.endStart n).cellar.starting = none ∧ (s.endStart n).f F.CELLAR_CFG_START 0 = 0 ∧
      (s.endStart n).f F.CELLAR_CAP_USER_SLOTS 0 = n % 2 ^ 40 ∧ (s.endStart n).mem = s.mem) ∧
    (∀ b, leastBy s.liveIn s.idleSupers = some b → exec .garbageCollection s = .next (s.after (s.leaveSuper b false)) ∧
      b ∈ s.idleSupers ∧ ∀ x ∈ s.idleSupers, s.liveIn b ≤ s.liveIn x) ∧
    (∀ b, s.unevenWear = true → leastBy s.leastPe s.idleSupers = some b →
      exec .wearLevelling s = .next (s.after (s.closeReloc.leaveSuper b true)) ∧ b ∈ s.idleSupers ∧ ∀ x ∈ s.idleSupers, s.leastPe b ≤ s.leastPe x) ∧
    (∀ sb reads b, (s.cellar.supers.find? fun b => b.id == sb) = some b → b.verified = false → s.settled b = true →
      exec (.superblockVerify sb reads) s = .next (s.after
        ((((s.placesOf b).filter (s.isWeak reads)).foldl State.verifyMove ((s.placesOf b).foldl State.noteRead s)).modSuper sb
          fun b => { b with verified := true }).retryWaiting)) ∧
    (∀ (reads : List (Nat × Bool × Nat)) (p : Nat), s.isWeak reads p = true ↔
      ∃ x ∈ reads, x.1 = p ∧ (x.2.1 = false ∨ s.f F.CELLAR_CFG_VERIFY_LIMIT 0 < x.2.2)) ∧
    exec .mapSegmentFlush s = .next (s.after s.flushSegments) ∧
    (s.chIsReady c.toNat = true → s.due (SMap.get 0 s.cellar.zqAt c.toNat) 100000 = true →
      exec (.zqShortCalibration c) s = .next (s.after (s.setCel fun x => { x with zqAt := SMap.ins x.zqAt c.toNat s.now }))) ∧
    (∀ temps, s.f F.CELLAR_CFG_TEMP_FEAT 0 ≠ 0 → s.due s.cellar.sampled 1000000 = true →
      exec (.temperatureSample temps) s =
        .next (s.after ((List.range 4).foldl (State.countTemps temps) (s.setCel fun x => { x with sampled := s.now })))) ∧
    (∀ src (a : BitVec 52) (n : BitVec 13) wr,
      (s.debugOpen a.toNat n.toNat = true → exec (.debugWindowAccess src a n wr) s = .next (s.after s)) ∧
      (s.debugOpen a.toNat n.toNat = false → exec (.debugWindowAccess src a n wr) s = .next (s.after (s.recordErr .access src a.toNat wr)))) ∧
    ∀ (u : State) (a n : Nat), (u.debugRead a n).length = n

/-- (R282; R284; R285; R286; R288; R301; R302; R303; R304; R308) CASK_HINT and CASK_FLUSH over a range whose fields are in order
and whose casks the tenant may reach start their work page by page and end, or wait for the parts that were started.
CASK_LEND, CASK_RECLAIM and CASK_WITHDRAW of a context of the administering tenant, with fields in order: a lend lends its
casks and ends with OK; a reclaim withdraws every agent of its casks, which are lent; a withdrawal fences the named agents and
recalls their lines, and with none of them joined it ends with OK at once. Another tenant's command ends with DENIED and
changes no memory. -/
def Obligations.CaskCommandsRun : Prop :=
  ∀ (s₀ : State) (c : BitVec 12) (q : BitVec 16) (r₀ : Req),
    let c' := c.toNat
    let q' := q.toNat
    let s := s₀.begin c' q' r₀
    let r := s₀.accept c' r₀
    let d := r.desc
    (∀ i op, (i, op) ∈ [(Instr.caskHint c q, 0x40), (.caskFlush c q, 0x41)] → Runs s₀ c' q' op r₀ → caskFieldsOk d op = true →
      let y := s.caskNames c' (opN d 8 8) (opN d 16 8)
      (y.2.any fun x => x.1.isNone) = false →
      let z := y.1.caskParts c' q' r op y.2
      let w := (if z.2.1 = 0 then z.1.finishCode c' q' z.2.2 else z.1.setWork c' q' (.cask z.2.1 z.2.2)).poolTick
      w.pool.needs = [] → exec i s₀ = .next (s₀.after w)) ∧
    (∀ i op, (i, op) ∈ [(Instr.caskLend c q, 0x42), (.caskReclaim c q, 0x43), (.caskWithdraw c q, 0x44)] → Runs s₀ c' q' op r₀ →
      s.f F.POOL_CFG_ADMIN_TENANT 0 ≠ s.tenant c' →
      exec i s₀ = .next (s₀.after (s.finishCode c' q' .denied)) ∧ (s.finishCode c' q' .denied).mem = s₀.mem) ∧
    (Runs s₀ c' q' 0x42 r₀ → s.f F.POOL_CFG_ADMIN_TENANT 0 = s.tenant c' → s.f F.DIR_STORE_SIZE 0 ≠ 0 → s.fAddr F.DIR_REC_ADDR 0 ≠ 0 →
      lendFieldsOk d = true → s.lendBad (opN d 1 1 == 1) (opN d 2 2) (opN d 4 2) (opN d 6 2) (opN d 8 2) (opN d 16 8) = false →
      let w := (s.lend (opN d 1 1 == 1) (opN d 2 2) (opN d 4 2) (opN d 6 2) (opN d 8 2) (opN d 16 8)).finishCode c' q' .ok
      w.pool.needs = [] → exec (.caskLend c q) s₀ = .next (s₀.after w)) ∧
    (Runs s₀ c' q' 0x43 r₀ → s.f F.POOL_CFG_ADMIN_TENANT 0 = s.tenant c' →
      let casks := (List.range (opN d 4 2)).map (opN d 6 2 + ·)
      opZero d 1 3 = true → opZero d 8 56 = true → 0 < opN d 4 2 → opN d 6 2 < 1024 → opN d 6 2 + opN d 4 2 ≤ 1024 →
      casks.all (fun k => (s.lentCask k).isSome) = true →
      let w := (s.startReclaim c' q' casks).poolTick.poolTick
      w.pool.needs = [] → exec (.caskReclaim c q) s₀ = .next (s₀.after w)) ∧
    (Runs s₀ c' q' 0x44 r₀ → s.f F.POOL_CFG_ADMIN_TENANT 0 = s.tenant c' →
      let k := opN d 2 2
      let a := opN d 4 4
      let named := ((s.agentsOf k).map (·.2.1)).filter fun x => a == 0x3FFFF || x == a
      opZero d 1 1 = true → opZero d 8 88 = true → k < 1024 → a < 2 ^ 18 → (s.lentCask k).isSome = true → (agentKind a ≠ 3 ∨ a = 0x3FFFF) →
      (named = [] → exec (.caskWithdraw c q) s₀ = .next (s₀.after (s.finishCode c' q' .ok))) ∧
      (named ≠ [] → let w := ((s.setWork c' q' (.cask 1 .ok)).startWithdraw k named (some (c', q'))).poolTick
        w.pool.needs = [] → exec (.caskWithdraw c q) s₀ = .next (s₀.after w)))

/-- (R289; R290; R292; R293; R294; R295; R296) RD_S, RD_M, RD_NC, WR_NC, WB and DROP of an agent that is not lost, for a cask that
this node lends: the request joins the line queue, in which every request is served in its turn; one of a lost agent is
dropped and counted. Served for a line of state I: RD_NC reads memory, WR_NC merges into memory, WB is discarded and counted,
DROP is answered; RD_S and RD_M take a free entry as S or M. In S: RD_S adds the agent, RD_NC reads; RD_M waits for the recall
of every other holder, WR_NC for that of every holder. In M: the owner's WB writes the line and frees the entry, its reads
leave the entry; a read or write of another agent recalls the owner first; another agent's WB is discarded and counted, its
DROP answered. -/
def Obligations.LenderServesByItsTable : Prop :=
  (∀ (s : State) (a : BitVec 18) (k : BitVec 32) (l : BitVec 24) (g : BitVec 16) (m : Word) (d : Bytes), s.live = true →
    let go (op : LineOp) (m : BitVec 64) (d : Bytes) : State :=
      ((s.lenderTake ⟨if a.toNat = s.ownAgent then .cache else .agent, a.toNat, caskLocal k.toNat, l.toNat, op, m, slice d 0 64, 0⟩ g.toNat)).wakeJobs
    caskLender k.toNat = s.self → k.toNat < 2 ^ 26 → agentKind a.toNat ≠ 3 →
    (s.pool.lost.contains a.toNat = false →
      exec (.rdS a k l g) s = .next (s.after (go .rdS 0 [])) ∧ exec (.rdM a k l g) s = .next (s.after (go .rdM 0 [])) ∧
      exec (.rdNc a k l g) s = .next (s.after (go .rdNc 0 [])) ∧ exec (.wrNc a k l g m d) s = .next (s.after (go .wrNc m d)) ∧
      exec (.wb a k l g d) s = .next (s.after (go .wb 0 d)) ∧ exec (.drop a k l g) s = .next (s.after (go .drop 0 []))) ∧
    (s.pool.lost.contains a.toNat = true → exec (.rdM a k l g) s = .next (s.after (s.addF F.DIR_STAT_LATE_DROP 0 1).wakeJobs))) ∧
  ∀ (s : State) (r : LineReq) (n f : Nat) (e : DirEnt),
    let serve := State.serveLine (f + 1) s r
    let late := (s.addF F.DIR_STAT_LATE_DROP 0 1).answer r .ok none
    (s.dirFind r.cask r.line = none →
      (r.op = .rdNc → serve = (s.grantLine r none 0 0, true)) ∧ (r.op = .wrNc → serve = (s.writeNc r, true)) ∧
      (r.op = .wb → serve = (late, true)) ∧ (r.op = .drop → serve = (s.answer r .ok none, true)) ∧
      (∀ u i, s.dirAlloc r.cask r.line = (u, some i) → (r.op = .rdS → serve = (u.grantLine r none 1 i, true)) ∧
        (r.op = .rdM → serve = (u.grantLine r none 2 i, true)))) ∧
    (s.dirFind r.cask r.line = some (n, e) → e.st = dirS →
      let rest := (s.holders r.cask e).filter (· != r.agent)
      (r.op = .rdS → serve = (s.grantLine r (some (n, e)) 1 n, true)) ∧ (r.op = .rdNc → serve = ((s.dirTouch n).grantLine r (some (n, e)) 0 0, true)) ∧
      (r.op = .rdM → rest = [] → serve = (s.grantLine r (some (n, e)) 2 n, true)) ∧
      (r.op = .rdM → rest ≠ [] → (s.startRecall r.cask r.line rest r).2 = false → serve = ((s.startRecall r.cask r.line rest r).1, true)) ∧
      (r.op = .wrNc → (s.startRecall r.cask r.line (s.holders r.cask e) r).2 = false →
        serve = ((s.startRecall r.cask r.line (s.holders r.cask e) r).1, true)) ∧
      (r.op = .wb → serve = (late, true))) ∧
    (s.dirFind r.cask r.line = some (n, e) → e.st = dirM →
      (e.owner = r.agent → (r.op = .wb → serve = (((s.writeLine r.cask r.line r.data).dirFree n).answer r .ok none, true)) ∧
        (r.op = .rdS ∨ r.op = .rdM ∨ r.op = .rdNc → serve = ((s.dirTouch n).grantLine r (some (n, e)) 0 0, true))) ∧
      (e.owner ≠ r.agent → (r.op = .wb → serve = (late, true)) ∧ (r.op = .drop → serve = (s.answer r .ok none, true)) ∧
        (r.op = .rdS ∨ r.op = .rdM ∨ r.op = .rdNc ∨ r.op = .wrNc → (s.startRecall r.cask r.line [e.owner] r).2 = false →
          serve = ((s.startRecall r.cask r.line [e.owner] r).1, true))))

/-- (R291; R292; R293; R295; R296; R306; R307) SNP_INV and SNP_DATA take the line from this node's pool cache and answer the
lender: with the line where the cache owned it, without it where it held a copy, not held otherwise. SNP_ACK at the lender is
taken where a recall waits for its agent; with nobody waiting, or from a lost agent, it is dropped and counted, and nothing
else changes. DATA and CMP end the request of this node that they answer, and only such a one: without it they change nothing.
RECALL_TIMEOUT of a recall past its time, while the agent still has not answered, counts it and declares the agent lost; the
lost agent's later messages are dropped. -/
def Obligations.SnoopsAndAnswersAreTaken : Prop :=
  ∀ (s : State) (n : BitVec 16) (a : BitVec 18) (k : BitVec 32) (k' : BitVec 10) (l : BitVec 24) (g : BitVec 16) (ans : SnoopAns)
      (st : Byte) (b : Bytes), s.live = true →
    exec (.snpInv n k l) s = .next (s.after (s.cacheSnoop n.toNat k.toNat l.toNat)) ∧
    exec (.snpData n k l) s = .next (s.after (s.cacheSnoop n.toNat k.toNat l.toNat)) ∧
    (n.toNat = s.self → s.cacheLine k.toNat l.toNat = none →
      s.cacheSnoop n.toNat k.toNat l.toNat =
        (s.cacheDrop k.toNat l.toNat).snoopAnswer (s.cacheDrop k.toNat l.toNat).ownAgent (caskLocal k.toNat) l.toNat .notHeld) ∧
    (∀ x, n.toNat = s.self → s.cacheLine k.toNat l.toNat = some x →
      s.cacheSnoop n.toNat k.toNat l.toNat =
        (s.cacheDrop k.toNat l.toNat).snoopAnswer (s.cacheDrop k.toNat l.toNat).ownAgent (caskLocal k.toNat) l.toNat
          (if x.owned then .withLine x.bytes else .without)) ∧
    (caskLender k.toNat = s.self → s.pool.lost.contains a.toNat = false → s.compat = false →
      exec (.snpAck a k l g ans) s = .next (s.after (s.snoopAnswer a.toNat (caskLocal k.toNat) l.toNat ans).wakeJobs) ∧
      ((s.pool.recalls.find? fun r => r.cask == caskLocal k.toNat && r.line == l.toNat && r.waits.contains a.toNat) = none →
        s.snoopAnswer a.toNat (caskLocal k.toNat) l.toNat ans = s.addF F.DIR_STAT_LATE_DROP 0 1)) ∧
    (caskLender k.toNat = s.self → s.pool.lost.contains a.toNat = true →
      exec (.snpAck a k l g ans) s = .next (s.after (s.addF F.DIR_STAT_LATE_DROP 0 1).wakeJobs)) ∧
    (∀ r, s.pool.sent.find? (answerFits none k.toNat l.toNat true) = some r →
      let d := if Code.ofNum st.toNat == .ok then some (slice b 0 64) else none
      exec (.data k l st b) s = .next (s.after
        ((s.setPool fun p => { p with sent := dropFirst (answerFits none k.toNat l.toNat true) p.sent }).answerAt k.toNat r
          (Code.ofNum st.toNat) d).wakeJobs)) ∧
    (s.pool.sent.find? (answerFits none k.toNat l.toNat true) = none → exec (.data k l st b) s = .next (s.after s)) ∧
    (∀ r, s.pool.sent.find? (answerFits none k.toNat l.toNat false) = some r →
      exec (.cmp k l st) s = .next (s.after
        ((s.setPool fun p => { p with sent := dropFirst (answerFits none k.toNat l.toNat false) p.sent }).answerAt k.toNat r
          (Code.ofNum st.toNat) none).wakeJobs)) ∧
    (s.pool.sent.find? (answerFits none k.toNat l.toNat false) = none → exec (.cmp k l st) s = .next (s.after s)) ∧
    ((s.pool.recalls.any fun r => r.cask == k'.toNat && r.line == l.toNat && r.waits.contains a.toNat && decide (r.due ≤ s.now)) = true →
      exec (.recallTimeout a k' l) s = .next (s.after ((s.addF F.DIR_STAT_RECALL_TIMEOUTS 0 1).declareLost a.toNat).wakeJobs)) ∧
    (agentKind a.toNat ≠ 3 → a.toNat ∈ (s.declareLost a.toNat).pool.lost)

/-- (R297; R299; R300; R304; R307; R314) PAGE_FETCH of a page that is not resident, not moving and asked for starts its fetch, or
gives a waiting one a frame. PAGE_FETCH_DONE puts the 16 slots of the page into its frame: the page is resident, clean and no
longer moves, and its fetch is over. PAGE_EVICTION with too few free frames starts to evict the first page in the order COLD
before NORMAL, lower counter, lower local index, lower page: never a HOT, PIN, moving or poisoned one. COUNTER_HALVING after
its period halves the counters and takes the next period. FETCH_TIMEOUT after 100 ms without a frame ends the requests for the
page with QUOTA; DRAIN_TIMEOUT ends the drain of its withdrawals, outside the compatibility mode. -/
def Obligations.PagesMove : Prop :=
  ∀ (s : State) (k : BitVec 10) (g : BitVec 14), s.live = true →
    let c := k.toNat
    let p := g.toNat
    (s.isFlash c = true → s.fetching c p = false → (s.pageEnt c p).resident = false → (s.pageEnt c p).moving = false →
      (s.pool.queue.any fun r => r.cask == c && pageOfLine r.line == p) = true →
      exec (.pageFetch k g) s = .next (s.after (s.startFetch c p none))) ∧
    (s.isFlash c = true → s.fetching c p = true → exec (.pageFetch k g) s = .next (s.after (s.giveFrame c p))) ∧
    (∀ f l n, (s.pool.fetches.find? fun f => f.cask == c && f.page == p) = some f → s.lentCask c = some l → f.frame = some n →
      exec (.pageFetchDone k g) s = .next (s.after (((s.pageIn c p n l).caskPart f.owner .ok).poolTick).wakeJobs) ∧
      (s.pageIn c p n l).fetching c p = false) ∧
    (s.frameGroups ≠ [] → s.freeFrames < s.f F.DIR_CFG_LOW_FRAMES_K 0 * 1024 →
      let t := s.setPool fun p => { p with evicting := true }
      let high := max (s.f F.DIR_CFG_LOW_FRAMES_K 0 * 1024) (s.f F.DIR_CFG_HIGH_FRAMES_K 0 * 1024)
      t.freeFrames < high → t.freeFrames + (t.pool.pageJobs.filter (·.evict)).length < high →
      (∀ x y rest, sortBy evictBefore t.evictable = (x, y) :: rest →
        exec .pageEviction s = .next (s.after ((t.startPageJob x y.1 true none).poolTick).wakeJobs) ∧
        y.2.1.moving = false ∧ y.2.1.poisoned = false ∧ (y.2.1.hint = 0 ∨ y.2.1.hint = 2) ∧
        ∀ z ∈ t.evictable, evictBefore z (x, y) = false)) ∧
    (s.due s.pool.halvedAt (1000 * s.pool.halvePer) = true → s.pool.halvePer ≠ 0 →
      exec .counterHalving s = .next (s.after (s.halveCounts.setPool fun x => { x with halvedAt := s.halveCounts.now, halvePer := s.halveCounts.f F.DIR_CFG_COUNT_PERIOD_MS 0 }))) ∧
    (s.pool.halvePer ≠ 0 → s.due s.pool.halvedAt (1000 * s.pool.halvePer) = false → exec .counterHalving s = .next (s.after s)) ∧
    (∀ f, (s.pool.fetches.find? fun f => f.cask == c && f.page == p && f.frame.isNone) = some f →
      (s.due f.since 100000 = true →
        exec (.fetchTimeout k g) s = .next (s.after (((s.dropFetch c p f).caskPart f.owner .quota).poolTick).wakeJobs)) ∧
      (s.due f.since 100000 = false → exec (.fetchTimeout k g) s = .next (s.after s))) ∧
    (let late := s.pool.withdraws.filter fun w => w.cask == c && !w.drained && decide (w.due ≤ s.now)
     (s.compat = false → late ≠ [] → exec (.drainTimeout k) s = .next (s.after ((s.cutDrain c late).poolTick).wakeJobs)) ∧
     (s.compat = true → exec (.drainTimeout k) s = .next (s.after s)))

/-- (R316; R328; R330; R331; R337; R338) VERIFY_DONE of a partition in VERIFY: an image that fails a check ends the load with the
number of that check, the partition is as it was before; one that passes is stored, its tiles and press units are held, and
the partition goes on to PROGRAM where it was EMPTY and to DRAIN otherwise. DRAIN_END, with nothing running any more or
DRAIN_MS over, ends what runs and goes on: an unload leaves the partition EMPTY, a load goes on to PROGRAM; before that it
changes nothing. PROGRAM_END writes the image: the partition is RUNNING with RESULT 0, LOAD reads 0, and the event is
measured. -/
def Obligations.ImagesAreLoaded : Prop :=
  ∀ (s : State) (k : BitVec 3) (r : LoadRun), s.live = true →
    let n := k.toNat
    (s.part n).run = some r →
    (s.trlState n = trlVerify →
      let res := (s.checkImage n r.src r.size r.gapMax).1
      let b := (s.checkImage n r.src r.size r.gapMax).2
      let g := imgOf b
      let d := slice b 0 g.bytes
      let v := s.noteBytes r.src b.length
      (res ≠ 0 → exec (.verifyDone k) s = .next (s.after (v.failLoad n res)) ∧ (v.failLoad n res).trlState n = r.before % 8 ∧
        (v.failLoad n res).mem = s.mem ∧ ((v.failLoad n res).part n).img = (s.part n).img ∧ ((v.failLoad n res).part n).run = none) ∧
      (res = 0 → v.plainHbm (v.storeSlot n) g.bytes = true → (v.store (v.storeSlot n) d).peek (v.storeSlot n) g.bytes = d →
        let t := (v.store (v.storeSlot n) d).holdImage n r g
        exec (.verifyDone k) s = .next (s.after t) ∧ t.mem = (v.store (v.storeSlot n) d).mem ∧
          t.trlState n = if r.before = trlEmpty then trlProgram else trlDrain)) ∧
    (s.trlState n = trlDrain →
      ((s.partHolds n = false ∨ s.due r.started (1000 * s.f F.TRL_CTL_DRAIN_MS n) = true) →
        exec (.drainEnd k) s = .next (s.after ((s.clearPart n .aborted .aborted).leaveDrain n r))) ∧
      (s.partHolds n = true → s.due r.started (1000 * s.f F.TRL_CTL_DRAIN_MS n) = false →
        exec (.drainEnd k) s = .next (s.after s))) ∧
    (∀ u : State, r.unload = false → (u.leaveDrain n r).trlState n = trlProgram ∧ (u.leaveDrain n r).mem = u.mem) ∧
    (∀ g, s.trlState n = trlProgram → r.img = some g →
      exec (.programEnd k) s = .next (s.after
        (((((s.programImage n g).setF F.TRL_CTL_LOAD n 0).appendLog (0x10 + n) 2 n g.keySlot g.digest).trlEvent n).retake n)) ∧
      (s.programImage n g).trlState n = trlRunning ∧ ((s.programImage n g).part n).img = some g ∧ ((s.programImage n g).part n).run = none ∧
      (s.programImage n g).f F.TRL_STAT_RESULT n = 0 ∧ (s.programImage n g).mem = s.mem)

/-- (R357; R358; R359; R361; R362; R423) A SYNC command with its fields in order acts on object 1,024 × partition + number.
SYNC_ARM with a count from 1 to the image's count, of an object that is not ARMED and is UNARMED or of the same tenant, arms
it: ARMED, no arrival, PRODUCED and CONSUMED 0, owned by the context; re-arming an abandoned one raises its episode. On an
ARMED object of the tenant: SYNC_ARRIVE counts an arrival, and with WAIT waits for the episode; SYNC_WAIT for an earlier
episode ends at once, else it waits, bound to the composition of a tree object whose tree reaches the root, or ends with the
code that says why not; SYNC_POST adds to PRODUCED, and past 2^32 − 1 it ends with QUOTA and changes nothing; SYNC_TAKE waits
in arrival order; SYNC_DISARM by the owner releases the waiters with ABORTED and leaves it UNARMED, by another context it ends
with DENIED. An UNARMED object answers INVALID_ARG, another tenant's DENIED, an abandoned one OWNER_LOST. With nobody waiting
a completed episode leaves no arrival, CONSUMED 0 and the next episode. -/
def Obligations.SyncCommandsRun : Prop :=
  ∀ (s₀ : State) (c : BitVec 12) (q : BitVec 16) (r₀ : Req),
    let c' := c.toNat
    let q' := q.toNat
    let s := s₀.begin c' q' r₀
    let r := s₀.accept c' r₀
    let i := 1024 * s.partOf c' + opN r.desc 2 2 % 1024
    let n := opN r.desc 4 4
    (Runs s₀ c' q' 0x50 r₀ → syncFieldsOk r.desc 0x50 = true → n ≠ 0 → (∃ b, s.barrier i = some b ∧ n ≤ b.count) →
      s.f F.SYNC_OBJ_STATE i ≠ syncArmed → (s.f F.SYNC_OBJ_STATE i = syncUnarmed ∨ s.f F.SYNC_OBJ_TENANT i = s.tenant c') →
      s.syncTreeCheck c' i = none →
      let t := s.armSync i c' n
      let w := t.endSync i c' q' 0 (t.episode i)
      w.pool.needs = [] → exec (.syncArm c q) s₀ = .next (s₀.after w)) ∧
    (∀ cmd op, (cmd, op) ∈ [(Instr.syncArrive c q, 0x51), (.syncWait c q, 0x52), (.syncDisarm c q, 0x53), (.syncPost c q, 0x54),
        (.syncTake c q, 0x55)] → Runs s₀ c' q' op r₀ → syncFieldsOk r.desc op = true → ∀ k, s.syncCheck c' i = some k →
      exec cmd s₀ = .next (s₀.after (s.finishCode c' q' k))) ∧
    (s.syncCheck c' i = none →
      (Runs s₀ c' q' 0x51 r₀ → syncFieldsOk r.desc 0x51 = true → s.syncTreeCheck c' i = none →
        (syncArrive s i c' q' r).pool.needs = [] → exec (.syncArrive c q) s₀ = .next (s₀.after (syncArrive s i c' q' r))) ∧
      (Runs s₀ c' q' 0x52 r₀ → syncFieldsOk r.desc 0x52 = true →
        let ep := if opN r.desc 8 8 = 0 then s.episode i else opN r.desc 8 8
        let w := if ep < s.episode i then s.endSync i c' q' (s.f F.SYNC_OBJ_COUNT i) ep else (s.bindSync i c' q').syncWait i c' q' (.wait ep)
        (ep < s.episode i ∨ s.syncTreeCheck c' i = none → w.pool.needs = [] → exec (.syncWait c q) s₀ = .next (s₀.after w)) ∧
        (∀ k, s.episode i ≤ ep → s.syncTreeCheck c' i = some k →
          exec (.syncWait c q) s₀ = .next (s₀.after (s.finishCode c' q' k)))) ∧
      (Runs s₀ c' q' 0x53 r₀ → syncFieldsOk r.desc 0x53 = true →
        (s.f F.SYNC_OBJ_OWNER i ≠ c' → exec (.syncDisarm c q) s₀ = .next (s₀.after (s.finishCode c' q' .denied))) ∧
        (s.f F.SYNC_OBJ_OWNER i = c' →
          let t := (s.dropWaiters i .aborted).setF F.SYNC_OBJ_STATE i syncUnarmed
          let w := t.endSync i c' q' (s.f F.SYNC_OBJ_ARRIVED i) (t.episode i)
          w.pool.needs = [] → exec (.syncDisarm c q) s₀ = .next (s₀.after w))) ∧
      (Runs s₀ c' q' 0x54 r₀ → syncFieldsOk r.desc 0x54 = true →
        let p := s.f F.SYNC_CNT_PRODUCED i + n
        (2 ^ 32 ≤ p → exec (.syncPost c q) s₀ = .next (s₀.after (s.finishCode c' q' .quota))) ∧
        (p < 2 ^ 32 →
          let t := s.setF F.SYNC_CNT_PRODUCED i p
          let u := t.endSync i c' q' (t.f F.SYNC_OBJ_ARRIVED i) (t.episode i)
          let w := State.serveTakes u i (u.waiters i)
          w.pool.needs = [] → exec (.syncPost c q) s₀ = .next (s₀.after w) ∧ t.f F.SYNC_CNT_PRODUCED i = p)) ∧
      (Runs s₀ c' q' 0x55 r₀ → syncFieldsOk r.desc 0x55 = true → n ≠ 0 →
        let t := s.syncWait i c' q' (.take n)
        let w := State.serveTakes t i (t.waiters i)
        w.pool.needs = [] → exec (.syncTake c q) s₀ = .next (s₀.after w))) ∧
    (s.f F.SYNC_OBJ_STATE i = syncUnarmed → s.syncCheck c' i = some .invalidArg) ∧
    (let t := s.armSync i c' n
     t.f F.SYNC_OBJ_STATE i = syncArmed ∧ t.f F.SYNC_OBJ_COUNT i = n % 2 ^ 16 ∧ t.f F.SYNC_OBJ_ARRIVED i = 0 ∧
       t.f F.SYNC_OBJ_OWNER i = c' % 2 ^ 12 ∧ t.f F.SYNC_CNT_PRODUCED i = 0 ∧ t.f F.SYNC_CNT_CONSUMED i = 0 ∧ t.mem = s.mem ∧
       t.episode i = if s.f F.SYNC_OBJ_STATE i = syncAbandoned then s.episode i + 1 else s.episode i) ∧
    (s.waiters i = [] →
      let t := s.completeEpisode i
      t.f F.SYNC_OBJ_ARRIVED i = 0 ∧ t.f F.SYNC_CNT_CONSUMED i = 0 ∧ t.episode i = s.episode i + 1 ∧ t.mem = s.mem)

/-- (R105; R107; R108; R112; R117; R123) A press command whose OP is its row's, to a unit of its tile's partition, with its head
in order, joins the end of the unit's queue, unless 64 commands wait or the unit's press block is fenced; QUEUE_PEAK follows.
Any other is refused: REFUSED of the stack is counted, no unit or memory changes, and where the head is at fault the request
that issued it ends with INVALID_ARG. A unit that runs a window takes nothing more; a free unit whose base die sleeps asks for
its wake; an awake one with nothing else waiting, and no plain access waiting in its stack, takes a windowed command at once,
for LEN cycles on BANKS (a damaged page ends the request of an ATTN or QK as well). DISCARD on such a unit ends at once with
its status word. LUT_LOAD goes to every unit of the stack that UNITS names, or, when one of them is not of the tile's
partition or a head is not in order, to none. -/
def Obligations.PressCommandsQueue : Prop :=
  ∀ (s : State) (t : BitVec 6) (u : BitVec 9) (st : BitVec 3) (cmd data : Bytes) (en : List Bool), s.live = true →
    (∀ c op j, (c, op, j) ∈ [(Instr.scan t u cmd, opScan, (⟨t.toNat, cmd, [], []⟩ : PressJob)), (.attn t u cmd, opAttn, ⟨t.toNat, cmd, [], []⟩),
        (.qk t u cmd, opQk, ⟨t.toNat, cmd, [], []⟩), (.write t u cmd data en, opWrite, ⟨t.toNat, cmd, data, en⟩),
        (.rack t u cmd, opRack, ⟨t.toNat, cmd, [], []⟩), (.discard t u cmd, opDiscard, ⟨t.toNat, cmd, [], []⟩)] →
      let n := u.toNat
      let mine := s.pressOwner n = some ((s.tileOwner t.toNat).getD 8)
      let head := pcOp cmd = op ∧ pcHeadOk cmd ((s.tileOwner t.toNat).getD 8) (s.hdr n (leAt cmd 32 4)).next = true
      let good := mine ∧ head
      let ref := s.addF F.PRESS_ERR_REFUSED (n / 64) 1
      let w := s.setPu n fun p => { p with queue := p.queue ++ [j] }
      let w := w.setF F.PRESS_LOAD_QUEUE_PEAK n (max (s.f F.PRESS_LOAD_QUEUE_PEAK n) ((s.pu n).queue.length + 1))
      exec c s = .next (s.after (s.pressCmd t.toNat n op j true)) ∧
      ref.press = s.press ∧ ref.mem = s.mem ∧ (¬ mine → s.pressCmd t.toNat n op j true = ref) ∧
      (mine → ¬ head → s.pressCmd t.toNat n op j true = ref.endPressReq j .invalidArg) ∧
      (good → (64 ≤ (s.pu n).queue.length ∨ (s.pressFenced n = true ∧ op ≠ opWrite)) → s.pressCmd t.toNat n op j true = s) ∧
      (good → (s.pu n).queue.length < 64 → (s.pressFenced n = false ∨ op = opWrite) →
        ((s.pu n).win ≠ none → s.pressCmd t.toNat n op j true = w ∧ (w.pu n).queue = (s.pu n).queue ++ [j] ∧ w.mem = s.mem) ∧
        ((s.pu n).win = none → w.pressHalted n = false → s.depth (14 + n / 64) ≠ 0 → (∀ j, w.nextPress n = some j →
          s.pressCmd t.toNat n op j true = w.wakeFor (14 + n / 64))) ∧
        ((s.pu n).win = none → (s.pu n).queue = [] → w.pressHalted n = false → s.depth (14 + n / 64) = 0 → w.stackWaits (n / 64) = false →
          op ≠ opDiscard →
          ∃ v x, (s.pressCmd t.toNat n op j true = v ∨ ((op = opAttn ∨ op = opQk) ∧ ∃ k, s.pressCmd t.toNat n op j true = v.endPressReq j k)) ∧
            (v.pu n).win = some x ∧ x.job = j ∧ x.len = pcLen cmd ∧ x.banks = pcBanks cmd) ∧
        ((s.pu n).win = none → (s.pu n).queue = [] → w.pressHalted n = false → s.depth (14 + n / 64) = 0 → op = opDiscard →
          (s.pressCmd t.toNat n op j true).pressOut = s.pressOut ++
            [⟨n, t.toNat, statusWord (pcPass cmd) opDiscard 0 0 Config.noBlock 0 0⟩]))) ∧
    (let units := (onesBelow 64 (leAt cmd 32 8)).map (64 * st.toNat + ·)
     let part := (s.tileOwner t.toNat).getD 8
     let mine := ∀ u ∈ units, s.pressOwner u = some part
     let head := pcOp cmd = opLut ∧ pcHeadOk cmd part 0 = true ∧ slotDescOk data = true
     (mine → head → exec (.lutLoad t st cmd data) s = .next (s.after
        (units.foldl (fun s u => s.pressCmd t.toNat u opLut ⟨t.toNat, cmd, data, []⟩ true) s))) ∧
     (¬ mine → exec (.lutLoad t st cmd data) s = .next (s.after (s.addF F.PRESS_ERR_REFUSED st.toNat 1))) ∧
     (mine → ¬ head → exec (.lutLoad t st cmd data) s =
       .next (s.after ((s.addF F.PRESS_ERR_REFUSED st.toNat 1).endPressReq ⟨t.toNat, cmd, data, []⟩ .invalidArg))))

/-- (R111; R112; R113; R115; R116; R117; R121) WINDOW_GRANT of a unit that runs a window changes nothing. WINDOW_END ends the
window that runs: its status word and then its records go to the tile, a LAST window of the second class ends its pass, no
slot changes, PRESS_WIN_LEN reads 0, the window's cycles are counted, up to GAP_MAX accesses that waited go on before the next
grant and the others after it; without a window it changes nothing. ACCOUNTING_PERIOD charges each unit of the stack with what
went beyond its budget, and with the cycles of a window in progress that are still to come (a free value: log entry 48), and
starts the shares anew. REFRESH of a bank that no window holds is counted; of one that a window holds it waits.
CORRECTED_REWRITE writes back the first corrected codeword of the unit, unless a window holds its bank. -/
def Obligations.PressUnitsKeepTime : Prop :=
  ∀ (s : State) (u : BitVec 9) (st : BitVec 3) (b : BitVec 4), s.live = true →
    let n := u.toNat
    (exec (.windowGrant u) s = .next (s.after (State.grantPress 65 s n)) ∧ ((s.pu n).win ≠ none → State.grantPress 65 s n = s)) ∧
    ((s.pu n).win = none → exec (.windowEnd u) s = .next (s.after s)) ∧
    (∀ w, (s.pu n).win = some w →
      exec (.windowEnd u) s = .next (s.after (State.grantPress 65 ((s.endWindow n).gap n) n).serveWaiting) ∧
      ((s.endWindow n).pu n).slots = (s.pu n).slots ∧
      (s.endWindow n).f F.PRESS_WIN_STAT_WIN_CYCLES n = satAdd 32 (s.f F.PRESS_WIN_STAT_WIN_CYCLES n) w.len ∧
      ((s.endWindow n).pu n).win = none ∧ ((s.endWindow n).pu n).queue = (s.pu n).queue ∧ (s.endWindow n).mem = s.mem ∧
      (s.endWindow n).f F.PRESS_WIN_LEN_LEN n = 0 ∧
      (w.status ≠ [] → w.records ≠ [] → (s.endWindow n).pressOut = s.pressOut ++ [⟨n, w.job.tile, w.status⟩, ⟨n, w.job.tile, w.records⟩]) ∧
      (pcLast w.job.cmd = true → pressClass w.job = 1 → passTag w.job.cmd ∉ ((s.endWindow n).pu n).passes) ∧
      ((pcLast w.job.cmd = false ∨ pressClass w.job ≠ 1) →
        ((s.endWindow n).pu n).passes = (s.pu n).passes)) ∧
    (exec (.accountingPeriod st) s = .next (s.after
      (((s.press.map (·.1)).filter fun u => u / 64 == st.toNat).foldl (fun s u => State.grantPress 65 (s.endPeriod u) u) s))) ∧
    ((s.pu n).win = none → s.endPeriod n = s.setPu n fun p => { p with used := p.used - s.pressBudget n, usedWr := 0, usedRack := 0 }) ∧
    (∀ w, (s.pu n).win = some w → ∃ rest, rest ≤ w.rest ∧ ((s.endPeriod n).pu n).win = some { w with rest := rest } ∧
      ((s.endPeriod n).pu n).used = ((s.pu n).used - rest - s.pressBudget n) + rest) ∧
    ((∀ w, (s.pu n).win = some w → bit w.banks b.toNat = false) →
      exec (.refresh u b) s = .next (s.after (s.setPu n fun p => { p with refreshes := p.refreshes + 1 }))) ∧
    (∀ w, (s.pu n).win = some w → bit w.banks b.toNat = true → exec (.refresh u b) s = .next (s.after s)) ∧
    ((s.pu n).rewrites = [] → exec (.correctedRewrite u) s = .next (s.after s)) ∧
    (∀ cw rest, (s.pu n).rewrites = cw :: rest →
      let bank := 4 * quartet (physBlock (32 * cw)) + cw / 32 % 4
      ((∀ w, (s.pu n).win = some w → bit w.banks bank = false) →
        exec (.correctedRewrite u) s = .next (s.after ((s.repairCw cw).setPu n fun p => { p with rewrites := rest }))) ∧
      (∀ w, (s.pu n).win = some w → bit w.banks bank = true → exec (.correctedRewrite u) s = .next (s.after s)))

/-- (R375; R376; R380; R381; R385) A frame of each of these types that passes every check of the door, whole and next in its flow,
with nothing ahead of a gap and no frame of this node's unacknowledged, counts as delivered and its message is handled; then
frames held ahead follow. The door drops and counts, in this order: a frame on a port that is not UP (nothing changes), with
headers that are not the node's, failing MACsec, with a malformed header, from a sender that may not send, over its policer. A
repeated frame is owed an ACK only; one within 64 ahead of a gap is kept and a NAK goes out once. A frame that begins a global
message of another operation than its row's changes nothing. -/
def Obligations.FramesPassTheDoorInOrder : Prop :=
  ∀ (s : State) (p : BitVec 4) (f : Frame), s.live = true →
    let p' := p.toNat
    let n := f.src.toNat
    let q := f.queue.toNat
    (∀ cmd type op, (cmd, type, op) ∈ [(Instr.subreq p f, 1, none), (.reply p f, 2, none), (.moved p f, 3, none), (.coherenceFrame p f, 4, none),
        (.globalArrive p f, 5, some 1), (.globalRelease p f, 5, some 2), (.closeTrigger p f, 5, some 3), (.prepare p f, 5, some 4),
        (.prepared p f, 5, some 5), (.commit p f, 5, some 6), (.globalReset p f, 5, some 7), (.resetDone p f, 5, some 8),
        (.bcastData p f, 5, some 9), (.bcastDone p f, 5, some 10)] →
      (∀ o, op = some o → byteAt f.payload 0 ≠ o → (s.flow n q).partial_ = [] → (s.flow n q).rxNext = f.seq.toNat →
        exec cmd s = .next (s.after s)) ∧
      ((∀ o, op = some o → byteAt f.payload 0 = o) →
        exec cmd s = .next (s.after (s.throughDoor p' type f fun t => t.takeFrame p' type f)) ∧
        ∀ t u, s.portIsUp p' = true → s.flt.forceBad.contains (0x100 + p') = false → s.headersOk p' f = true → s.macsecTake p' f = some t →
          t.drivoOk p' f = true → t.senderOk p' type f = true → t.policeTake p' type f = some u →
          let h := u.hear n
          let fl := h.flow n q
          let v := h.setFlow n q fun fl => { fl with rxNext := (fl.rxNext + 1) % 2 ^ 32, nakSent := false, partial_ := [],
                                                     owed := fl.owed + 1, owedAt := if fl.owed = 0 then h.now else fl.owedAt }
          fl.unacked = [] →
          (fl.rxNext = f.seq.toNat → fl.partial_ = [] → f.more = false →
            exec cmd s = .next (s.after (State.deliverAhead 65 (v.takeMsg type p' f (v.arrival f)) p' n q))) ∧
          (let ahead := (f.seq.toNat + 2 ^ 32 - fl.rxNext) % 2 ^ 32
           (2 ^ 31 ≤ ahead → exec cmd s = .next (s.after (h.setFlow n q fun fl =>
              { fl with owed := fl.owed + 1, owedAt := if fl.owed = 0 then h.now else fl.owedAt }))) ∧
           (ahead ≠ 0 → ahead ≤ 64 → fl.ahead.length < 64 → (fl.ahead.any fun x => x.2.seq == f.seq) = false → fl.nakSent = true →
              exec cmd s = .next (s.after (h.setFlow n q fun fl => { fl with ahead := fl.ahead ++ [(type, f)] }))) ∧
           (ahead ≠ 0 → ahead ≤ 64 → fl.ahead.length < 64 → (fl.ahead.any fun x => x.2.seq == f.seq) = false → fl.nakSent = false →
              exec cmd s = .next (s.after (((h.setFlow n q fun fl => { fl with ahead := fl.ahead ++ [(type, f)] }).setFlow n q
                fun fl => { fl with nakSent := true }).sendFlowControl n q 7 (leBytes 4 fl.rxNext))))))) ∧
    (∀ (type : Nat) (go : State → State),
      (s.portIsUp p' = false → s.throughDoor p' type f go = s) ∧
      (s.portIsUp p' = true → s.flt.forceBad.contains (0x100 + p') = false →
        (s.headersOk p' f = false → s.throughDoor p' type f go = s.addF F.FAB_DROP_UNKNOWN p' 1) ∧
        (s.headersOk p' f = true → s.macsecTake p' f = none → s.throughDoor p' type f go = s.addF F.FAB_DROP_MACSEC p' 1) ∧
        ∀ t, s.headersOk p' f = true → s.macsecTake p' f = some t →
          (t.drivoOk p' f = false → s.throughDoor p' type f go = t.addF F.FAB_DROP_MALFORMED p' 1) ∧
          (t.drivoOk p' f = true → t.senderOk p' type f = false → s.throughDoor p' type f go = t.addF F.FAB_DROP_UNKNOWN p' 1) ∧
          (t.drivoOk p' f = true → t.senderOk p' type f = true → t.policeTake p' type f = none →
            s.throughDoor p' type f go = t.addF F.FAB_DROP_POLICED p' 1)))

/-- (R377; R390; R391; R395; R396; R397; R398) A message under the current epoch, or under the one before while its drain runs, is
served by the rank it names; another rank's is answered MOVED with its node, a down rank's FENCED; the next epoch's, and one
for a composition without a map, is held; any other is answered ROUTE_STALE. A REPLY or MOVED that no sub-request waits for is
counted as late; a REPLY ends its sub-request; a first MOVED sends it once more to the node named. A global operation that is
served does on the tree what R396 gives it: ARRIVE goes up and is counted at the root, RELEASE, PREPARE, COMMIT and RESET go
down and act here, PREPARED and RESET_DONE gather, BCAST_DATA is written and goes down, BCAST_DONE gathers. COMMIT of a
published vintage changes nothing more. -/
def Obligations.MessagesAreServedByTheirEpoch : Prop :=
  ∀ (s : State) (p : Nat) (f : Frame) (a : Arrival),
    let e := f.epoch.toNat
    let r := f.rank.toNat
    let pl := f.payload
    let num := leAt pl 4 4
    let v := leAt pl 8 8
    (∀ k m, s.slotOfComp f.comp.toNat = some k → (s.comp k).map = some m →
      (e = m.epoch → r = m.rank → s.routeMsg f.comp.toNat e r = .serve k m) ∧
      (∀ m', e + 1 = m.epoch → (s.comp k).prev = some m' → r = m.rank → s.routeMsg f.comp.toNat e r = .serve k m') ∧
      (e = m.epoch → r ≠ 0xFFFF → r ≠ m.rank → r < m.members.length → r ∉ (s.comp k).down →
        s.routeMsg f.comp.toNat e r = .moved (m.node r) m.epoch) ∧
      (e = m.epoch → r ≠ 0xFFFF → r ≠ m.rank → r < m.members.length → r ∈ (s.comp k).down → s.routeMsg f.comp.toNat e r = .fenced) ∧
      (e = m.epoch + 1 → s.routeMsg f.comp.toNat e r = .hold) ∧
      (m.epoch + 1 < e → s.routeMsg f.comp.toNat e r = .stale) ∧
      (e + 1 < m.epoch → s.routeMsg f.comp.toNat e r = .stale) ∧
      (e + 1 = m.epoch → (s.comp k).prev = none → s.routeMsg f.comp.toNat e r = .stale)) ∧
    (s.slotOfComp f.comp.toNat = none → s.routeMsg f.comp.toNat e r = .hold) ∧
    (s.chipFenced = false → f.comp.toNat ≠ 0 →
      (∀ k m, s.routeMsg f.comp.toNat e r = .serve k m → s.loadingPart (slice pl 32 128) = none → s.takeMsg 1 p f a = s.serveSub p f k m a) ∧
      (∀ k m, s.routeMsg f.comp.toNat e r = .serve k m → (LineOp.ofCode (byteAt pl 0)).isSome = true →
        s.takeMsg 4 p f a = s.serveCoherence f) ∧
      (∀ x y, s.routeMsg f.comp.toNat e r = .moved x y → s.takeMsg 1 p f a = s.answerMoved f x y ∧ s.takeMsg 5 p f a = s.answerMoved f x y) ∧
      (s.routeMsg f.comp.toNat e r = .hold → s.takeMsg 1 p f a = s.holdMsg 1 p f a ∧ s.takeMsg 5 p f a = s.holdMsg 5 p f (s.arrival f)) ∧
      (s.routeMsg f.comp.toNat e r = .stale → s.takeMsg 1 p f a = s.refuseStale 1 f ∧ s.takeMsg 5 p f a = s.refuseStale 5 f) ∧
      (s.routeMsg f.comp.toNat e r = .fenced → s.takeMsg 1 p f a = s.replyTo f .fenced [])) ∧
    (s.chipFenced = true → s.takeMsg 1 p f a = s.replyTo f .fenced []) ∧
    (s.openSub f.tag.toNat f.src.toNat = none →
      (f.tag.toNat ≠ globalTag → s.takeMsg 2 p f a = s.addF F.FAB_GLB_STAT_LATE 0 1) ∧ s.takeMsg 3 p f a = s.addF F.FAB_GLB_STAT_LATE 0 1) ∧
    (∀ o, s.openSub f.tag.toNat f.src.toNat = some o →
      (f.tag.toNat ≠ globalTag → s.takeMsg 2 p f a = s.endSub o (Code.ofNum (byteAt pl 0)) (pl.drop 64)) ∧
      (o.retried = true → s.takeMsg 3 p f a = s.endSub o .routeStale []) ∧
      (o.retried = false → s.peerOk (leAt pl 0 2) = false → s.takeMsg 3 p f a = s.endSub o .fenced []) ∧
      (o.retried = false → s.peerOk (leAt pl 0 2) = true → (∀ id n, o.owner ≠ .job id n) →
        let o' := { o with node := leAt pl 0 2, epoch := leAt pl 4 4, retried := true, due := s.subDue }
        s.takeMsg 3 p f a = (s.setFab fun x => { x with subs := x.subs.map fun y => if y.tag = o.tag then o' else y }).sendMsg
          (leAt pl 0 2) o.comp (leAt pl 4 4) o.queue 1 o.tag o.rank 0 o.payload)) ∧
    (∀ k m, s.routeMsg f.comp.toNat e r = .serve k m →
      let from_ := m.rankOf f.src.toNat
      let i := num % 4096
      s.takeMsg 5 p f a = s.serveGlobal f k m ∧
      (byteAt pl 0 = 1 → m.rank ≠ 0 → s.serveGlobal f k m = s.sendGlobal m (treeParent m.rank) opArrive num v []) ∧
      (byteAt pl 0 = 1 → m.rank = 0 → num < 8192 → s.f F.SYNC_OBJ_STATE num = syncArmed → s.serveGlobal f k m = s.countArrival num) ∧
      (byteAt pl 0 = 2 → ¬ (num < 8192 ∧ s.f F.SYNC_OBJ_STATE num = syncArmed) →
        s.serveGlobal f k m = s.sendChildren k m opRelease num v []) ∧
      (byteAt pl 0 = 2 → num < 8192 → s.f F.SYNC_OBJ_STATE num = syncArmed → s.episode num = v → m.members.length = 1 →
        s.serveGlobal f k m = s.completeEpisode num) ∧
      (byteAt pl 0 = 3 → s.serveGlobal f k m = s.triggerClose i) ∧
      (byteAt pl 0 = 4 → s.idxOn i = false → s.serveGlobal f k m = s.sendChildren k m opPrepare num v []) ∧
      (byteAt pl 0 = 4 → s.idxOn i = true → v < (s.idx i).openV →
        s.serveGlobal f k m = (s.sendChildren k m opPrepare num v []).reportPrepared i) ∧
      (byteAt pl 0 = 4 → s.idxOn i = true → (s.idx i).openV ≤ v → s.serveGlobal f k m = s.takeClose i v) ∧
      (byteAt pl 0 = 5 → s.serveGlobal f k m = (s.notePrepared k i v m.epoch from_).reportPrepared i) ∧
      (byteAt pl 0 = 6 → s.serveGlobal f k m = (s.sendChildren k m opCommit num v []).takeCommit k i v) ∧
      (s.idxOn i = true → v ≤ s.published i → s.takeCommit k i v = s) ∧
      (byteAt pl 0 = 7 → s.serveGlobal f k m = s.takeReset k m) ∧
      (byteAt pl 0 = 8 → m.rank ≠ 0 → from_ = treeParent m.rank → s.serveGlobal f k m = s.endCompReset k m) ∧
      (byteAt pl 0 = 8 → m.rank = 0 →
        s.serveGlobal f k m = (s.setComp k fun x => { x with answered := v :: x.answered }).settleReset k m) ∧
      (byteAt pl 0 = 9 → s.serveGlobal f k m = s.bcastHere k m num v (pl.drop 16)) ∧
      (byteAt pl 0 = 10 → from_ = 0 → m.rank ≠ 0 → s.serveGlobal f k m = s.endBcastReq k num (Code.ofNum v)) ∧
      (byteAt pl 0 = 10 → m.rank = 0 → s.serveGlobal f k m = (s.hearBcast k num from_ (Code.ofNum v)).settleBcast k num))

/-- (R372; R376; R377; R379; R382; R383; R407) A control frame passes the door of R380 and no flow. ACK acknowledges the frames of
the flow it names before its number; NAK does too, and the rest go again; KEEPALIVE is heard. ADMIT_HELLO of an admission
takes the peer's nonce once and sends this node's certificate; ADMIT_CERT collects the peer's chain: longer than 8,192 bytes,
or not verified, the peer is refused; verified, the proof goes out; ADMIT_PROOF admits a peer whose proof verifies and refuses
another; ADMIT_TIMEOUT after 100 ms refuses. RETRANSMIT_TIMEOUT past its time resends, then moves to the next port, then
holds. ACK_TIMER after 8 frames, or 10 µs, sends an ACK; KEEPALIVE_TIMER past its time sends a KEEPALIVE; SUBREQ_TIMEOUT ends
a sub-request past its time with TIMEOUT. FRAME_TRANSMIT sends a control frame first, else the head of the next queue.
FABRIC_PORT_FAILED of an enabled port fails it. -/
def Obligations.ControlFramesAndFabricTimers : Prop :=
  ∀ (s : State) (p : BitVec 4) (f : Frame) (peer : BitVec 16) (queue : BitVec 5) (tag : BitVec 32), s.live = true →
    let p' := p.toNat
    let n := f.src.toNat
    (∀ type, (type = 6 ∨ type = 7 ∨ type = 8 ∨ 0x10 ≤ type) → ∀ t, s.portIsUp p' = true → s.flt.forceBad.contains (0x100 + p') = false →
      s.headersOk p' f = true → s.macsecTake p' f = some t → t.drivoOk p' f = true → t.senderOk p' type f = true →
      let h := t.hear n
      let q := f.tag.toNat % 32
      (type = 6 → exec (.ack p f) s = .next (s.after (h.ackFlow n q f.ack.toNat))) ∧
      (type = 7 → ∀ k, k = (h.ackFlow n q f.ack.toNat).ackFlow n q (leAt f.payload 0 4) →
        ((k.flow n q).held = true → exec (.nak p f) s = .next (s.after k)) ∧
        ((k.flow n q).held = false →
          exec (.nak p f) s = .next (s.after ((k.setFlow n q fun fl => { fl with rtoDue := k.rto }).resendFlow n q)))) ∧
      (type = 8 → exec (.keepalive p f) s = .next (s.after (h.ackFlow n f.queue.toNat f.ack.toNat))) ∧
      (t.admission n = none →
        (type = 0x10 → exec (.admitHello p f) s = .next (s.after t)) ∧ (type = 0x11 → exec (.admitCert p f) s = .next (s.after t)) ∧
        (type = 0x12 → exec (.admitProof p f) s = .next (s.after t))) ∧
      (∀ a, t.admission n = some a →
        (type = 0x10 → (a.hello = true → exec (.admitHello p f) s = .next (s.after t)) ∧
          (a.hello = false → exec (.admitHello p f) s =
            .next (s.after ((t.setAdmission n fun a => { a with theirs := slice f.payload 0 32, hello := true }).sendCert n)))) ∧
        (let chain := a.chain ++ f.payload
         let good := Config.chainVerifies chain t.sec.fuses.root = true ∧ sha256 (Config.leafKey chain) = t.peek (t.peerAddr n + 32) 32
         type = 0x11 → a.cert = false →
          (8192 < chain.length → exec (.admitCert p f) s = .next (s.after (t.refusePeer n))) ∧
          (chain.length ≤ 8192 → f.more = true →
            exec (.admitCert p f) s = .next (s.after (t.setAdmission n fun a => { a with chain := chain }))) ∧
          (chain.length ≤ 8192 → f.more = false → good → exec (.admitCert p f) s = .next (s.after
            ((t.setAdmission n fun a => { a with chain := chain, cert := true }).sendFlowControl n 0 0x12
              (slice (Config.deviceSign (proofMsg a.mine a.theirs t.self n)) 0 384)))) ∧
          (chain.length ≤ 8192 → f.more = false → ¬ good → exec (.admitCert p f) s = .next (s.after (t.refusePeer n)))) ∧
        (let good := a.hello = true ∧ a.cert = true ∧ rsaVerify (Config.leafModulus a.chain) (Config.leafExponent a.chain) 384
            (sha256 (proofMsg a.theirs a.mine n t.self)) (slice f.payload 0 384) = true
         type = 0x12 → (good → exec (.admitProof p f) s = .next (s.after (t.admitPeer n))) ∧
          (¬ good → exec (.admitProof p f) s = .next (s.after (t.refusePeer n)))))) ∧
    (∀ a, s.admission peer.toNat = some a →
      (s.due a.started 100000 = true → exec (.admitTimeout peer) s = .next (s.after (s.refusePeer peer.toNat))) ∧
      (s.due a.started 100000 = false → exec (.admitTimeout peer) s = .next (s.after s))) ∧
    (let fl := s.flow peer.toNat queue.toNat
     ((fl.unacked = [] ∨ fl.held = true ∨ s.now < fl.rtoDue) → exec (.retransmitTimeout peer queue) s = .next (s.after s)) ∧
     (fl.unacked ≠ [] → fl.held = false → fl.rtoDue ≤ s.now →
      (fl.resends < s.f F.FAB_TIMERS_RETRIES 0 → exec (.retransmitTimeout peer queue) s = .next (s.after ((s.setFlow peer.toNat queue.toNat
        fun fl => { fl with resends := fl.resends + 1, rtoDue := s.rto }).resendFlow peer.toNat queue.toNat))) ∧
      (s.f F.FAB_TIMERS_RETRIES 0 ≤ fl.resends → (s.upPorts peer.toNat).length ≤ fl.tried + 1 →
        exec (.retransmitTimeout peer queue) s = .next (s.after ((s.setFlow peer.toNat queue.toNat
          fun fl => { fl with held := true, moves := fl.moves + 1 }).event F.TOP_INT_STAT_FAB_FLOW))) ∧
      (s.f F.FAB_TIMERS_RETRIES 0 ≤ fl.resends → fl.tried + 1 < (s.upPorts peer.toNat).length →
        exec (.retransmitTimeout peer queue) s = .next (s.after ((s.setFlow peer.toNat queue.toNat
          fun fl => { fl with moves := fl.moves + 1, tried := fl.tried + 1, resends := 1, rtoDue := s.rto }).resendFlow peer.toNat
            queue.toNat)))) ∧
     ((8 ≤ fl.owed ∨ (fl.owed ≠ 0 ∧ s.due fl.owedAt 10 = true)) → exec (.ackTimer peer queue) s = .next (s.after
        ((s.setFlow peer.toNat queue.toNat fun fl => { fl with owed := 0 }).sendFlowControl peer.toNat queue.toNat 6 []))) ∧
     (fl.owed < 8 → (fl.owed = 0 ∨ s.due fl.owedAt 10 = false) → exec (.ackTimer peer queue) s = .next (s.after s))) ∧
    (let due := peer.toNat ≠ s.self ∧ s.peerOk peer.toNat = true ∧ p' ∈ s.upPorts peer.toNat ∧
        SMap.get 0 s.fab.spoke (peer.toNat * 16 + p') ≤ s.now
     (due → exec (.keepaliveTimer peer p) s = .next (s.after ((s.sendControl p' peer.toNat 8 0 []).spoken peer.toNat p'))) ∧
     (¬ due → exec (.keepaliveTimer peer p) s = .next (s.after s))) ∧
    (∀ o, (s.fab.subs.find? fun o => o.tag == tag.toNat && o.answer.isNone && o.due != 0 && decide (o.due ≤ s.now)) = some o →
      exec (.subreqTimeout tag) s = .next (s.after (s.endSub o .timeout []))) ∧
    (s.mayTransmit p' = false → exec (.frameTransmit p) s = .next (s.after s)) ∧
    (s.mayTransmit p' = true →
      (∀ g rest, SMap.get [] s.fab.control p' = g :: rest → exec (.frameTransmit p) s = .next (s.after
        ((s.setFab fun x => { x with control := SMap.put [] x.control p' rest }).putOnWire p' g))) ∧
      (SMap.get [] s.fab.control p' = [] →
        (∀ q, s.nextQueue p' = some q → exec (.frameTransmit p) s = .next (s.after (s.sendHead p' q))) ∧
        (s.nextQueue p' = none → exec (.frameTransmit p) s = .next (s.after s)))) ∧
    (s.on F.FAB_PORT_CFG_ENABLE p' = true →
      exec (.fabricPortFailed p) s = .next (s.after ((s.stopPort p' portFailed).linkLost (0x100 + p')))) ∧
    (s.on F.FAB_PORT_CFG_ENABLE p' = false → exec (.fabricPortFailed p) s = .next (s.after s))

/-- (R386; R389; R390; R395; R398; R456) BROADCAST with its fields in order, of a context bound to a composition that stays and
whose root is up, reads its bytes, takes a number and waits; at the root its own part is done at once, elsewhere the data goes
to the root. Without such a binding it ends with DENIED, with fields that are not in order INVALID_ARG, with a composition
that is being removed ROUTE_STALE, with the root down FENCED, with bytes that cannot be read their code, the largest of those
that apply; with no bytes it succeeds. A node's part writes the data where its region holds it and sends it down.
EPOCH_DRAIN_END ends a drain, and a removal, that is past its time, and changes nothing before. HELD_MESSAGE_TIMEOUT past its
time answers ROUTE_STALE. HOLD_TIMEOUT of a hand-off that cannot be staged answers QUOTA after 100 ms. -/
def Obligations.BroadcastsAndCompositionTimers : Prop :=
  ∀ (s₀ : State) (c : BitVec 12) (q : BitVec 16) (r₀ : Req) (k : BitVec 6) (id : Nat),
    let c' := c.toNat
    let q' := q.toNat
    let s := s₀.begin c' q' r₀
    let d := r₀.desc
    let len := opN d 16 8
    let off := opN d 24 8
    let fieldsOk := opZero d 1 7 = true ∧ opN d 8 8 < 2 ^ 52 ∧ len < 2 ^ 32 ∧ off < 2 ^ 40 ∧ opZero d 32 64 = true
    (Runs s₀ c' q' 0x60 r₀ → s.ctxComp c' = none → exec (.broadcast c q) s₀ = .next (s₀.after (s.finishCode c' q' .denied))) ∧
    (∀ n m, Runs s₀ c' q' 0x60 r₀ → ¬ fieldsOk → s.ctxComp c' = some (n, m) →
      exec (.broadcast c q) s₀ = .next (s₀.after (s.finishCode c' q' .invalidArg))) ∧
    (∀ n m t bytes code, Runs s₀ c' q' 0x60 r₀ → fieldsOk → s.ctxComp c' = some (n, m) → s.ctxLoad c' (opN d 8 8) len = (t, bytes, code) →
      t.pool.needs = [] →
      let tree : Code := if (t.comp n).removing then .routeStale else if (t.comp n).down.contains 0 then .fenced else .ok
      let all := tree.worst code
      (all.bad = true → exec (.broadcast c q) s₀ = .next (s₀.after (t.finishCode c' q' all))) ∧
      (all.bad = false → len = 0 → exec (.broadcast c q) s₀ = .next (s₀.after (t.finishCode c' q' .ok))) ∧
      (all.bad = false → len ≠ 0 →
        let num := m.rank * 65536 + t.draw.2 % 65536
        let w := t.draw.1.setReq c' q' fun r => { r with work := .global num, comp := some n, epoch := m.epoch }
        (m.rank = 0 → (w.bcastHere n m num off bytes).pool.needs = [] →
          exec (.broadcast c q) s₀ = .next (s₀.after (w.bcastHere n m num off bytes))) ∧
        (m.rank ≠ 0 → (w.sendGlobal m 0 opBcastData num off bytes).pool.needs = [] →
          exec (.broadcast c q) s₀ = .next (s₀.after (w.sendGlobal m 0 opBcastData num off bytes))))) ∧
    ∀ s : State,
    (s.live = true →
      let n := k.toNat
      let x := s.comp n
      let ended := x.prev.isSome = true ∧ x.drainAt ≤ s.now
      (¬ ended → ¬ (x.removing = true ∧ x.removeAt ≤ s.now) → exec (.epochDrainEnd k) s = .next (s.after s)) ∧
      (ended → x.removing = false → exec (.epochDrainEnd k) s = .next (s.after (s.endPrev n)) ∧ ((s.endPrev n).comp n).prev = none) ∧
      (¬ ended → x.removing = true → x.removeAt ≤ s.now → exec (.epochDrainEnd k) s = .next (s.after (s.endRemove n)) ∧
        ((s.endRemove n).comp n).map = none ∧ (s.endRemove n).f F.FAB_COMP_CTL_REMOVE n = 0) ∧
      (∀ h, (s.fab.held.find? fun h => h.id == id && decide (h.due ≤ s.now)) = some h → exec (.heldMessageTimeout id) s = .next (s.after
        ((s.setFab fun x => { x with held := x.held.filter fun y => y.id != id }).refuseStale h.type h.frame))) ∧
      ((s.fab.held.find? fun h => h.id == id && decide (h.due ≤ s.now)) = none → exec (.heldMessageTimeout id) s = .next (s.after s)) ∧
      (∀ h, (s.fab.holds.find? fun h => h.id == id) = some h →
        let gone (s : State) : State := s.setFab fun x => { x with holds := x.holds.filter fun y => y.id != id }
        (s.on F.FLT_ADMIT_HOLD h.slot = true → s.due h.since 100000 = true →
          exec (.holdTimeout id) s = .next (s.after (gone (s.replyTo h.frame .quota [])))) ∧
        (s.on F.FLT_ADMIT_HOLD h.slot = true → s.due h.since 100000 = false → exec (.holdTimeout id) s = .next (s.after s)) ∧
        (∀ t, s.on F.FLT_ADMIT_HOLD h.slot = false → s.stageHandoff h.frame = some t →
          exec (.holdTimeout id) s = .next (s.after (gone t))))) ∧
    (∀ (n : Nat) (m : CompMap) (num off : Nat) (b : Bytes),
      off + b.length ≤ s.f F.FAB_COMP_BCAST_SIZE_MIB n * 2 ^ 20 → inHbm (s.fAddr F.FAB_COMP_BCAST_ADDR n + off) b.length = true →
        s.bcastHere n m num off b =
          (((s.store (s.fAddr F.FAB_COMP_BCAST_ADDR n + off) b).sendChildren n m opBcastData num off b).setFab fun x =>
            { x with collects := x.collects ++ [⟨opBcastDone, n, 0, num, m.epoch, [], .ok⟩] }).settleBcast n num)

/-- (R413; R414; R415; R416; R427; R429) TRAINING_STATE_END takes a port from DETECT to EQUALIZE, to ALIGN and to ACTIVE with
fresh numbers and credits, and from RETRAIN to ACTIVE with the old ones, REVERSED and POLARITY reported; in another state it
changes nothing. TRAINING_TIMEOUT past the state's bound is a failed attempt: the third fails the port, an earlier one goes
back to DETECT, or stays in RETRAIN. ALIGNMENT_BLOCK is kept in ALIGN and RETRAIN alone. A flit, whichever of the three rows
brings it, acts in ACTIVE alone: one whose checks fail is counted and answered by a NAK; a good one acknowledges; NAK resends
from its number; DATA next in order hands its payload to the packet stream, one ahead of its turn gets a NAK, one behind is
dropped; IDLE ahead gets a NAK. REPLAY_TIMEOUT past its time resends from the oldest flit kept. MODERATION_TIMER past the
interval of a vector ends it, and an event that fell inside it leaves. -/
def Obligations.NahelLinkRuns : Prop :=
  ∀ (s : State) (p : BitVec 1) (rev : Bool) (pol : BitVec 4) (lane : BitVec 2) (num : Byte) (flit : Bytes) (vec : BitVec 16), s.live = true →
    let p' := p.toNat
    let st := s.nlState p'
    let told := s.setFs p' [(F.NL_PORT_STAT_REVERSED, b2n rev), (F.NL_PORT_STAT_POLARITY, pol.toNat)]
    (st = nlDetect → exec (.trainingStateEnd p rev pol) s = .next (s.after (s.nlEnter p' nlEqualize))) ∧
    (st = nlEqualize → exec (.trainingStateEnd p rev pol) s = .next (s.after (s.nlEnter p' nlAlign))) ∧
    (st = nlAlign → exec (.trainingStateEnd p rev pol) s = .next (s.after (told.nlActivate p' true))) ∧
    (st = nlRetrain → exec (.trainingStateEnd p rev pol) s = .next (s.after (told.nlActivate p' false))) ∧
    (st ≠ nlDetect → st ≠ nlEqualize → st ≠ nlAlign → st ≠ nlRetrain → exec (.trainingStateEnd p rev pol) s = .next (s.after s)) ∧
    (st = nlDown ∨ st = nlActive ∨ st = nlFailed ∨ s.due (s.nl p').stateAt (nlBound st) = false →
      exec (.trainingTimeout p) s = .next (s.after s)) ∧
    (st ≠ nlDown → st ≠ nlActive → st ≠ nlFailed → s.due (s.nl p').stateAt (nlBound st) = true →
      let t := s.setNl p' fun n => { n with attempts := n.attempts + 1 }
      (2 ≤ (s.nl p').attempts → exec (.trainingTimeout p) s = .next (s.after (t.nlFail p'))) ∧
      ((s.nl p').attempts < 2 →
        exec (.trainingTimeout p) s = .next (s.after (t.nlEnter p' (if st = nlRetrain then nlRetrain else nlDetect))))) ∧
    ((st = nlAlign ∨ st = nlRetrain) → exec (.alignmentBlock p lane num) s = .next (s.after (s.setNl p' fun n =>
      { n with aligned := (n.aligned.filter fun x => x.1 != lane.toNat) ++ [(lane.toNat, num.toNat)] }))) ∧
    (st ≠ nlAlign → st ≠ nlRetrain → exec (.alignmentBlock p lane num) s = .next (s.after s)) ∧
    (∀ cmd, cmd ∈ [Instr.dataFlit p flit, .idleFlit p flit, .nakFlit p flit] →
      (st ≠ nlActive → exec cmd s = .next (s.after s)) ∧
      (st = nlActive →
        let z := s.setFlt fun x => { x with forceBad := x.forceBad.filter (· != 0x110 + p') }
        ((s.flt.forceBad.contains (0x110 + p') = true ∨ openFlit flit = none) →
          exec cmd s = .next (s.after ((z.addF F.NL_LINK_ERR_CRC_FAIL p' 1).nlNak p'))) ∧
        ∀ g fixed, s.flt.forceBad.contains (0x110 + p') = false → openFlit flit = some (g, fixed) →
          let y := if fixed then z.addF F.NL_LINK_ERR_FEC_CORR p' 1 else z
          let q := leAt g 2 2 % 4096
          let k := y.nlAck p' (leAt g 4 2 % 4096)
          let ahead := (q + 4096 - (k.nl p').rxSeq) % 4096
          (byteAt g 0 = 2 → exec cmd s = .next (s.after ((k.nlAck p' q).nlResend p' q))) ∧
          (byteAt g 0 = 0 → (ahead = 0 ∨ 2048 ≤ ahead) → exec cmd s = .next (s.after k)) ∧
          (byteAt g 0 ≤ 1 → ahead ≠ 0 → ahead < 2048 → exec cmd s = .next (s.after (k.nlNak p'))) ∧
          (byteAt g 0 = 1 → ahead = 0 → exec cmd s = .next (s.after (State.takePayload p'
            (k.setNl p' fun n => { n with rxSeq := (n.rxSeq + 1) % 4096, nakFor := none }) (slice g 8 228)))) ∧
          (byteAt g 0 = 1 → 2048 ≤ ahead → exec cmd s = .next (s.after k)))) ∧
    (∀ x rest, (s.nl p').replay = x :: rest →
      let late := s.due (s.nl p').progress (ceilDiv (16 * max 1 (s.f F.NL_PORT_CFG_REPLAY_16NS p')) 1000)
      (st = nlActive → late = true → exec (.replayTimeout p) s = .next (s.after (s.nlResend p' x.1))) ∧
      ((st ≠ nlActive ∨ late = false) → exec (.replayTimeout p) s = .next (s.after s))) ∧
    ((s.nl p').replay = [] → exec (.replayTimeout p) s = .next (s.after s)) ∧
    (((s.nl p').quiet.find? fun x => x.1 == vec.toNat) = none → exec (.moderationTimer p vec) s = .next (s.after s)) ∧
    (∀ x, ((s.nl p').quiet.find? fun x => x.1 == vec.toNat) = some x →
      let late := s.due x.2 (ceilDiv (s.f F.NL_PORT_CFG_MOD_100NS p') 10)
      let t := s.setNl p' fun n => { n with quiet := n.quiet.filter fun x => x.1 != vec.toNat, owed := n.owed.filter (· != vec.toNat) }
      (late = false → exec (.moderationTimer p vec) s = .next (s.after s)) ∧
      (late = true → (s.nl p').owed.contains vec.toNat = true →
        exec (.moderationTimer p vec) s = .next (s.after (t.raiseIntr p' vec.toNat))) ∧
      (late = true → (s.nl p').owed.contains vec.toNat = false → exec (.moderationTimer p vec) s = .next (s.after t)))

/-- (R417; R418; R419; R420; R421; R425; R485) A packet acts on an ACTIVE port alone. One without a credit is counted as malformed
and does nothing else; one whose form is wrong is counted too, its credit goes back, and a RD, or a WR with NP, gets a CPL of
INVALID_ARG. A RD or WR whose bank is free, with nothing waiting, is performed at once: in recovery and outside its window's
checks it is answered DENIED, on a fenced chip FENCED; in the register window it reads or writes the register, in HBM the
memory, and its credit goes back. An access passes its window only within it, with the window VALID and its permission given.
A COH message of a wrong form is malformed, one outside its window DENIED. MGMT of class 1 is an SPDM message, of class 2
STATUS, WRITE or RUN; any other gets INVALID_ARG. CREDIT returns credits; INTR from the adapter is malformed. -/
def Obligations.NahelPacketsAreServed : Prop :=
  ∀ (s : State) (p : BitVec 1) (k : Packet), s.live = true →
    let p' := p.toNat
    (∀ cmd type, (cmd, type) ∈ [(Instr.rdPacket p k, 1), (.wrPacket p k, 2), (.cohPacket p k, 4), (.intrReceived p k, 5),
        (.mgmtPacket p k, 6), (.credit p k, 7)] →
      (s.nlState p' ≠ nlActive → exec cmd s = .next (s.after s)) ∧
      (∀ c, s.nlState p' = nlActive → rxClass type k.np = some c → (s.nl p').rxCred.getD c 0 = 0 →
        exec cmd s = .next (s.after (s.addF F.NL_TXN_ERR_MALFORMED p' 1))) ∧
      (∀ c, s.nlState p' = nlActive → rxClass type k.np = some c → (s.nl p').rxCred.getD c 0 ≠ 0 →
        let z := s.setNl p' fun n => { n with rxCred := n.rxCred.modify c (· - 1) }
        let m := (z.addF F.NL_TXN_ERR_MALFORMED p' 1).nlFree p' (some c)
        (packetOk type k = false → exec cmd s = .next (s.after (if asksCpl type k then m.sendCpl p' k .invalidArg [] else m))) ∧
        (packetOk type k = true → s.compat = false →
          (type = 1 ∨ type = 2 → exec cmd s = .next (s.after (z.takeAccess p' type k))) ∧
          (type = 4 → exec cmd s = .next (s.after ((z.takeCoh p' k).nlFree p' (some 2)))) ∧
          (type = 5 → exec cmd s = .next (s.after ((z.addF F.NL_TXN_ERR_MALFORMED p' 1).nlFree p' (some 0)))) ∧
          (type = 6 → exec cmd s = .next (s.after ((z.takeMgmt p' k).nlFree p' (some 1)))))) ∧
      (s.nlState p' = nlActive → type = 7 → packetOk 7 k = true → exec cmd s = .next (s.after (s.takeCredit p' k)))) ∧
    (∀ type, devWindow (pktAddr k) ≠ some 2 → s.nl0.inq = [] → s.nl1.inq = [] →
      let r : HostReq := ⟨type, s.draw.2, s.windowOk (16 * p' + k.win.toNat) (pktAddr k) (accessLen type k) (type == 1) (type == 2), k⟩
      let w := s.draw.1.setNl p' fun x => { x with inq := x.inq ++ [r] }
      w.hostWaits r = false → s.takeAccess p' type k = (w.setNl p' fun n => { n with inq := n.inq.drop 1 }).performHost p' r) ∧
    (∀ r : HostReq, r.pkt = k →
      let back (t : State) : State := t.nlFree p' (rxClass r.type k.np)
      (s.bootState = bootRecovery → s.performHost p' r = back (s.sendCpl p' k .denied [])) ∧
      (s.bootState ≠ bootRecovery → s.chipFenced = true → s.performHost p' r = back (s.answerHost p' r.type k .fenced [])) ∧
      (s.bootState ≠ bootRecovery → s.chipFenced = false →
        (r.passed = false → s.performHost p' r = back ((s.addF F.NL_TXN_ERR_DENIED p' 1).answerHost p' r.type k .denied [])) ∧
        (r.passed = true → devWindow (pktAddr k) = some 0 →
          (r.type = 1 → (rdLen k = 4 ∨ rdLen k = 8) →
            let (t, v) := s.regRead (srcOf p') (pktAddr k) (rdLen k == 8)
            s.performHost p' r = back (t.answerHost p' 1 k .ok (leBytes (rdLen k) v))) ∧
          (r.type = 2 → (k.body.length = 4 ∨ k.body.length = 8) →
            s.performHost p' r = back ((s.regWrite (srcOf p') (pktAddr k) (k.body.length == 8) (leNat k.body)).answerHost p' 2 k .ok []))) ∧
        (r.passed = true → devWindow (pktAddr k) = some 1 →
          (r.type = 1 →
            let (t, d, code) := s.load (pktAddr k) (rdLen k)
            s.performHost p' r = back (t.answerHost p' 1 k code d)) ∧
          (r.type = 2 → s.performHost p' r = back (((s.noteParts (pktAddr k) k.body.length).store (pktAddr k) k.body).answerHost p' 2 k .ok []))))) ∧
    (∀ w a len rd wr, s.windowOk w a len rd wr = true → s.on F.NL_WIN_CFG_VALID w = true ∧ s.fAddr F.NL_WIN_BASE_BASE w ≤ a ∧
      a + len ≤ s.fAddr F.NL_WIN_BASE_BASE w + s.f F.NL_WIN_CFG_SIZE_64K w * 65536 ∧
      (rd = true → s.on F.NL_WIN_CFG_READ w = true) ∧ (wr = true → s.on F.NL_WIN_CFG_WRITE w = true)) ∧
    (cohFits k = false → s.takeCoh p' k = s.addF F.NL_TXN_ERR_MALFORMED p' 1) ∧
    (cohFits k = true → s.chipFenced = true → s.takeCoh p' k = s.cohRefuse p' k .fenced) ∧
    (cohFits k = true → s.chipFenced = false →
      s.windowOk (16 * p' + k.win.toNat) (pktAddr k) 64 (cohNeeds (byteAt k.body 0)).1 (cohNeeds (byteAt k.body 0)).2 = false →
      s.takeCoh p' k = (s.addF F.NL_TXN_ERR_DENIED p' 1).cohRefuse p' k .denied) ∧
    (let b := k.body
     ((b.length < 9 ∨ allZero b 1 7 = false) → s.takeMgmt p' k = s.mgmtCpl p' k.tag.toNat .invalidArg []) ∧
     (9 ≤ b.length → allZero b 1 7 = true →
      (byteAt b 0 = 1 → s.takeMgmt p' k = s.spdmMessage (.nahel (p' == 1)) k.tag.toNat (b.drop 8)) ∧
      (byteAt b 0 = 2 → byteAt b 8 = 1 → s.takeMgmt p' k = s.rcvStatus p' k.tag.toNat) ∧
      (byteAt b 0 = 2 → byteAt b 8 = 2 → 16 ≤ b.length → s.takeMgmt p' k = s.rcvWrite p' k.tag.toNat (leAt b 12 4) (b.drop 16)) ∧
      (byteAt b 0 = 2 → byteAt b 8 = 3 → 13 ≤ b.length → allZero b 9 3 = true →
        s.takeMgmt p' k = s.rcvRun p' k.tag.toNat (bit (byteAt b 12) 0)) ∧
      (byteAt b 0 ≠ 1 → byteAt b 0 ≠ 2 → s.takeMgmt p' k = s.mgmtCpl p' k.tag.toNat .invalidArg [])))

/-- (R481; R485; R486; R487; R490; R491; R492; R493; R496) STATUS answers the boot status and the bytes received; WRITE of 64 to
4,096 bytes in order within 16 MiB takes them, of other sizes or before a session it answers INVALID_ARG; RUN in recovery
boots an image that passes its checks and answers OK, another leaves recovery with its RESULT; in firmware RUN with PERSIST
programs the flash. Turned away, each answers DENIED; on a port that is not ACTIVE, nothing. FUSE_ BURN_END sets the fuse
bits, RESULT and GO. An SPDM request is answered once its transport is up: with an ERROR while the identity block failed and
it needs it, or while the connection has not come far enough, else with its answer, and the connection advances. ENTDAA takes
the address; SET_ENDPOINT_ID the endpoint; the MCTP control commands are answered once an address is taken. -/
def Obligations.RecoveryFusesAndAttestation : Prop :=
  ∀ (s : State) (p : BitVec 1) (tag : BitVec 16) (off : BitVec 32) (d : Bytes) (persist : Bool) (t : Transport) (body : Bytes)
      (slot : BitVec 4) (o l : BitVec 16) (ix : Byte) (addr : BitVec 7) (eid : Byte), s.live = true →
    let p' := p.toNat
    let g := tag.toNat
    (∀ cmd, cmd ∈ [Instr.status p tag, .recoveryWrite p tag off d, .run p tag persist] →
      (s.nlState p' ≠ nlActive → exec cmd s = .next (s.after s)) ∧
      (s.nlState p' = nlActive → s.rcvDenied p' = true → exec cmd s = .next (s.after (s.mgmtCpl p' g .denied [])))) ∧
    (s.nlState p' = nlActive → s.rcvDenied p' = false →
      exec (.status p tag) s = .next (s.after (s.mgmtCpl p' g .ok (leBytes 8 (s.reg .secBootStat 0) ++ leBytes 4 s.rcvCount))) ∧
      (let n := d.length
       let good := off.toNat % 64 = 0 ∧ n % 64 = 0 ∧ 64 ≤ n ∧ n ≤ 4096 ∧ off.toNat + n ≤ 2 ^ 24 ∧ (off = 0 ∨ s.sec.session ≠ none)
       let old : RcvSession := if off.toNat = 0 then ⟨p', [], 0⟩ else s.sec.session.getD ⟨p', [], 0⟩
       let img := ((List.range n).zip d).foldl (fun (m : SMap Byte) x => SMap.put 0#8 m (off.toNat + x.1) x.2) old.bytes
       (¬ good → exec (.recoveryWrite p tag off d) s = .next (s.after (s.mgmtCpl p' g .invalidArg []))) ∧
       (good → exec (.recoveryWrite p tag off d) s = .next (s.after (((s.setSec fun x =>
          { x with session := some ⟨p', img, old.count + n⟩ }).setF F.SEC_BOOT_STAT_RCV_PORT 0 p').mgmtCpl p' g .ok [])))) ∧
      (let b := match s.sec.session with | some x => x.image | none => zeros 64
       let r := fwCheck b s.sec.fuses
       let u := s.bootImage b 1
       (s.bootState = bootRecovery → r = 0 →
        exec (.run p tag persist) s = .next (s.after (u.mgmtCpl p' g .ok [])) ∧ u.bootState = bootFirmware) ∧
       (s.bootState = bootRecovery → r ≠ 0 →
        exec (.run p tag persist) s = .next (s.after (u.mgmtCpl p' g .invalidArg [BitVec.ofNat 8 r])) ∧ u.bootState = bootRecovery ∧
          u.f F.SEC_BOOT_STAT_RESULT 0 = r) ∧
       (s.bootState ≠ bootRecovery → persist = false → exec (.run p tag persist) s = .next (s.after (s.mgmtCpl p' g .invalidArg []))) ∧
       (s.bootState ≠ bootRecovery → persist = true → r ≠ 0 →
        exec (.run p tag persist) s = .next (s.after (s.mgmtCpl p' g .invalidArg [BitVec.ofNat 8 r]))) ∧
       (s.bootState ≠ bootRecovery → persist = true → r = 0 →
        exec (.run p tag persist) s = .next (s.after ((s.setSec fun x =>
          { x with nor := norProgram x.nor (slice b 0 (leAt b 8 4)), session := none }).mgmtCpl p' g .ok []))))) ∧
    (s.sec.burn = [] → s.sec.burnRev = 0 → exec .fuseBurnEnd s = .next (s.after s)) ∧
    ((s.sec.burn ≠ [] ∨ s.sec.burnRev ≠ 0) → ∃ u : State, exec .fuseBurnEnd s = .next (s.after u) ∧
      u.sec.fuses.rollback = BitVec.ofNat 64 (burnBits s.sec.fuses.rollback.toNat s.sec.burn) ∧
      u.sec.fuses.revoke = s.sec.fuses.revoke ||| BitVec.ofNat 4 s.sec.burnRev ∧ u.sec.burn = [] ∧ u.sec.burnRev = 0 ∧
      u.f F.SEC_FUSE_PROG_RESULT 0 = 0 ∧ u.f F.SEC_FUSE_PROG_GO 0 = 0 ∧ u.f F.TOP_INT_STAT_FUSE 0 = 1 ∧ u.mem = s.mem) ∧
    (let c := s.sec.chainDer
     let part := (c.drop o.toNat).take (min l.toNat 1024)
     let head := spdmStd 0x83 body ++ sha256 c
     ∀ cmd needId least af ans, (cmd, needId, least, af, ans) ∈
        [(Instr.getVersion t tag body, false, 0, (fun _ => 1 : Nat → Nat), spdmStd 0x84 body),
         (.getCapabilities t tag body, false, 1, fun _ => 2, spdmStd 0xE1 body),
         (.negotiateAlgorithms t tag body, false, 2, fun _ => 3, spdmStd 0xE3 body),
         (.getDigests t tag body, true, 3, id, spdmStd 0x81 body ++ sha256 c),
         (.getCertificate t tag slot o l, true, 3, id, if slot.toNat ≠ 0 ∨ c.length ≤ o.toNat then spdmError spdmInvalid
           else spdmStd 0x82 (leBytes 1 slot.toNat ++ leBytes 2 o.toNat ++ leBytes 2 l.toNat) ++ leBytes 2 part.length ++
             leBytes 2 (c.length - o.toNat - part.length) ++ part),
         (.challenge t tag body, true, 3, id, if byteAt body 2 ≠ 0 then spdmError spdmInvalid else head ++ Config.deviceSign (body ++ head))] →
      let up := match t with | .nahel q => s.nlState q.toNat == nlActive | .i3c => s.sec.i3cAddr != 0#7
      let st := SMap.get 0 s.sec.spdm (transportKey t)
      (up = false → exec cmd s = .next (s.after s)) ∧
      (up = true → needId = true → s.on F.SEC_BOOT_STAT_IDENT_OK 0 = false →
        exec cmd s = .next (s.after (s.spdmSend t g (spdmError spdmUnspecified)))) ∧
      (up = true → (needId = false ∨ s.on F.SEC_BOOT_STAT_IDENT_OK 0 = true) →
        (st < least → exec cmd s = .next (s.after (s.spdmSend t g (spdmError spdmUnexpected)))) ∧
        (least ≤ st → exec cmd s = .next (s.after
          ((s.setSec fun x => { x with spdm := SMap.put 0 x.spdm (transportKey t) (af st) }).spdmSend t g ans))))) ∧
    exec (.getMeasurements t tag ix body) s = .next (s.after (s.spdmMeasurements t g ix.toNat body)) ∧
    exec (.entdaa addr) s = .next (s.after (s.setSec fun x => { x with i3cAddr := addr })) ∧
    (∀ cmd code asked own, (cmd, code, asked, own) ∈ [(Instr.getEndpointId, 2, ([] : Bytes), [s.sec.eid]), (.getMctpVersionSupport ix, 4, [ix], []),
        (.getMessageTypeSupport, 5, [], [5#8])] →
      (s.sec.i3cAddr = 0#7 → exec cmd s = .next (s.after s)) ∧
      (s.sec.i3cAddr ≠ 0#7 → exec cmd s = .next (s.after
        (s.setSec fun x => { x with i3cOut := x.i3cOut ++ pieces 64 (spdmStd code asked ++ own) })))) ∧
    (s.sec.i3cAddr = 0#7 → exec (.setEndpointId eid) s = .next (s.after s)) ∧
    (s.sec.i3cAddr ≠ 0#7 → exec (.setEndpointId eid) s = .next (s.after
      (s.setSec fun x => { x with eid := eid, i3cOut := x.i3cOut ++ pieces 64 (spdmStd 1 [eid] ++ [eid]) })))

/-- (R433; R435; R436; R440; R441; R444; R445; R446; R448; R449; R454; R459) A context watchdog past its time without progress
tears the context down, ending a request that waits with TIMEOUT; under a reset that covers the context it only adds its cause
to that reset's record. A tile watchdog resets its engine, a partition watchdog its partition, the chip watchdog the chip once
firmware runs, or asks for a power cycle when the chip is under a reset: each only while its time is set and work waits.
FENCE_DRAIN_END once the domain holds nothing, or its drain time is over, runs the reset; UNFENCE ends one that has run, a
chip's once firmware runs; RESET_BOUND_PASSED past the bound escalates it, a chip's to a power cycle. SELFTEST_END of a test
that runs records what is out. STACK_RETRAIN makes a stack wait once; its end lets it go on, and the third failure resets the
chip, as PLL_LOCK_LOSS does. INJECTION of an enabled entry whose period has passed acts on its target; otherwise it changes
nothing. CHECKPOINT_RUN_END writes the checkpoint or restores the index. -/
def Obligations.WatchdogsResetsAndRepairs : Prop :=
  ∀ (s : State) (c : BitVec 12) (cell : BitVec 9) (n : BitVec 3) (d : Domain) (tiles : Word) (press : List Nat) (ok : Bool) (j : BitVec 3),
      s.live = true →
    let c' := c.toNat
    (let due := s.f F.FLT_WDOG_CTX_MS 0 ≠ 0 ∧ (s.ctxState c' = ctxEnabled ∨ s.ctxState c' = ctxSuspending) ∧
        (s.ctx c').reqs.all Req.unwatched = false ∧ s.due (s.ctx c').progress (1000 * s.f F.FLT_WDOG_CTX_MS 0) = true
     (¬ due → exec (.contextWatchdog c) s = .next (s.after s)) ∧
     (∀ v, due → s.coverOf c' = some v → exec (.contextWatchdog c) s = .next (s.after (s.logCause v.record (causeClass causeWatchdog)))) ∧
     (∀ r, due → s.coverOf c' = none → s.repeats 1 c' = false → ((s.openReqs c').find? fun r => !r.unwatched && !s.keeps r) = some r →
      exec (.contextWatchdog c) s = .next (s.after ((s.noteReset 1 c').teardown c' causeWatchdog (some r.slot) r.slot .timeout false))) ∧
     (due → s.coverOf c' = none → s.repeats 1 c' = false → ((s.openReqs c').find? fun r => !r.unwatched && !s.keeps r) = none →
      exec (.contextWatchdog c) s = .next (s.after ((s.noteReset 1 c').teardown c' causeWatchdog none 0 .ok false)))) ∧
    (let t := cell.toNat / 8
     (∀ m, s.f F.FLT_WDOG_TILE_US 0 ≠ 0 → s.tileOut t = false → s.tileHolder t = some m → s.partHolds m = true →
      s.depth (2 + t / 16) = 0 →
      exec (.tileWatchdog cell) s = .next (s.after (s.raise (.engine (BitVec.ofNat 7 t)) 6 false 0))) ∧
     ((s.f F.FLT_WDOG_TILE_US 0 = 0 ∨ s.tileOut t = true ∨ s.tileHolder t = none ∨ s.depth (2 + t / 16) ≠ 0) → exec (.tileWatchdog cell) s = .next (s.after s))) ∧
    (let ms := s.f F.FLT_WDOG_PART_MS 0
     let due := ms ≠ 0 ∧ s.trlState n.toNat ≠ trlEmpty ∧ s.partHolds n.toNat = true ∧ s.partAwake n.toNat = true ∧
        ∀ c ∈ s.partCtxs n.toNat, (s.ctx c).reqs.all Req.unwatched = true ∨ s.due (s.ctx c).progress (1000 * ms) = true
     (due → exec (.partitionWatchdog n) s = .next (s.after (s.raise (.part n) 0x0C false 0))) ∧
     (¬ due → exec (.partitionWatchdog n) s = .next (s.after s))) ∧
    (let ms := s.f F.FLT_WDOG_CHIP_MS 0
     let due := s.bootState = bootFirmware ∧ s.due s.flt.kickedAt (1000 * if ms = 0 then 100 else ms) = true
     (¬ due → exec .chipWatchdog s = .next (s.after s)) ∧
     (due → s.chipFenced = true → exec .chipWatchdog s = .next (s.after (s.powerCycle ⟨0x0F, 0, false, 0⟩))) ∧
     (due → s.chipFenced = false → exec .chipWatchdog s = .next (s.after (s.raise .chip 0x0F false 0)))) ∧
    ((s.flt.resets.find? fun r => r.dom == d) = none → exec (.fenceDrainEnd d) s = .next (s.after s.serveWaiting) ∧
      exec (.unfence d) s = .next (s.after s.serveWaiting) ∧ exec (.resetBoundPassed d) s = .next (s.after s)) ∧
    (∀ r, (s.flt.resets.find? fun r => r.dom == d) = some r →
      (r.draining = true → (s.domHolds d = false ∨ s.due r.started (s.f F.FLT_CFG_FENCE_DRAIN_US 0) = true) →
        exec (.fenceDrainEnd d) s = .next (s.after (s.runReset d).serveWaiting)) ∧
      (r.draining = true → s.domHolds d = true → s.due r.started (s.f F.FLT_CFG_FENCE_DRAIN_US 0) = false →
        exec (.fenceDrainEnd d) s = .next (s.after s.serveWaiting)) ∧
      (r.draining = true → exec (.unfence d) s = .next (s.after s.serveWaiting)) ∧
      (r.draining = false → (∃ e, d = .engine e) → exec (.unfence d) s = .next (s.after (s.endRun r).serveWaiting)) ∧
      (∀ m, r.draining = false → d = .part m → s.partOut m.toNat = false → r.reload = false →
        exec (.unfence d) s = .next (s.after (((s.endRun r).answerResets).retake m.toNat).serveWaiting)) ∧
      (r.draining = false → d = .chip → s.bootState = bootFirmware → exec (.unfence d) s = .next (s.after (s.endRun r).serveWaiting)) ∧
      (r.draining = false → d = .chip → s.bootState ≠ bootFirmware → exec (.unfence d) s = .next (s.after s.serveWaiting)) ∧
      (s.due r.started (resetBound d) = false → exec (.resetBoundPassed d) s = .next (s.after s)) ∧
      (s.due r.started (resetBound d) = true → (d ≠ .chip ∨ s.bootState ≠ bootRecovery) →
        let cls := s.f F.FLT_LOG_CLASS (2 * r.record)
        exec (.resetBoundPassed d) s = .next (s.after ((s.setFlt fun x => { x with resets := x.resets.filter fun y => y.dom != d }).escalate d
          (if cls = 0x10 then s.f F.FLT_LOG_CAUSE (2 * r.record) else cls)))) ∧
      (∀ cause, s.escalate .chip cause = s.powerCycle ⟨0x10, cause, false, 0⟩ ∧ (s.escalate .chip cause).pins.pcycLow = true)) ∧
    (s.flt.selftest = false → exec (.selftestEnd tiles press) s = .next (s.after s)) ∧
    (s.flt.selftest = true → ∃ u : State, exec (.selftestEnd tiles press) s = .next (s.after u) ∧ u.flt.selftest = false ∧
      u.reg .fltOutTile 0 = tiles.toNat ∧ u.f F.FLT_RESET_SELFTEST 0 = 0 ∧ u.mem = s.mem ∧
      ∀ i, i < 512 → (u.reg .fltOutPress (i / 64)).testBit (i % 64) = press.contains i) ∧
    (s.flt.retrain.contains n.toNat = true → exec (.stackRetrain n) s = .next (s.after s)) ∧
    (s.flt.retrain.contains n.toNat = false → exec (.stackRetrain n) s = .next (s.after
      ((s.logFault 0x0B 2 0 (0x180 + n.toNat) 0 false).1.setFlt fun x => { x with retrain := x.retrain ++ [n.toNat] }))) ∧
    (s.flt.retrain.contains n.toNat = false → exec (.stackRetrainEnd n ok) s = .next (s.after s.serveWaiting)) ∧
    (s.flt.retrain.contains n.toNat = true →
      (ok = true → exec (.stackRetrainEnd n ok) s = .next (s.after (s.setFlt fun x =>
        { x with retrain := x.retrain.filter (· != n.toNat), fails := SMap.put 0 x.fails n.toNat 0 }).serveWaiting)) ∧
      (ok = false → SMap.get 0 s.flt.fails n.toNat < 2 → exec (.stackRetrainEnd n ok) s = .next (s.after (s.setFlt fun x =>
        { x with fails := SMap.put 0 x.fails n.toNat (SMap.get 0 s.flt.fails n.toNat + 1) }).serveWaiting)) ∧
      (ok = false → 2 ≤ SMap.get 0 s.flt.fails n.toNat → ∃ u : State, exec (.stackRetrainEnd n ok) s =
        .next (s.after (u.raise .chip 0x0D false (0x180 + n.toNat)).serveWaiting) ∧ u.flt.retrain.contains n.toNat = false ∧ u.mem = s.mem)) ∧
    exec .pllLockLoss s = .next (s.after (s.raise .chip 0x0E false 0)) ∧
    (let k := j.toNat
     let due := s.on F.FLT_INJ_ENABLE k = true ∧ s.f F.FLT_INJ_PERIOD_S k ≠ 0 ∧
        s.due (SMap.get 0 s.flt.injectAt k) (1000000 * s.f F.FLT_INJ_PERIOD_S k) = true
     let u := s.setFlt fun x => { x with injectAt := SMap.put 0 x.injectAt k s.now }
     (¬ due → exec (.injection j) s = .next (s.after s)) ∧
     (due → s.f F.FLT_INJ_CLASS k = 1 → s.flt.resets = [] → 64 ≤ s.f F.FLT_INJ_TARGET k →
      exec (.injection j) s = .next (s.after (u.injectBit (s.f F.FLT_INJ_TARGET k - 64)))) ∧
     (due → s.f F.FLT_INJ_CLASS k = 1 → s.flt.resets = [] → s.f F.FLT_INJ_TARGET k < 64 →
      exec (.injection j) s = .next (s.after (u.draw.1.injectBit (Config.arbiterPick u.draw.2 8 % 8)))) ∧
     (due → s.f F.FLT_INJ_CLASS k = 8 → s.chipFenced = false → exec (.injection j) s =
      .next (s.after (u.setFlt fun x => { x with forceBad := x.forceBad ++ [s.f F.FLT_INJ_TARGET k] }))) ∧
     (due → (s.f F.FLT_INJ_CLASS k = 6 ∨ s.f F.FLT_INJ_CLASS k = 7) → s.on F.FLT_CFG_INJECT_DISRUPT 0 = false →
      exec (.injection j) s = .next (s.after u)) ∧
     (due → (s.f F.FLT_INJ_CLASS k = 6 ∨ s.f F.FLT_INJ_CLASS k = 7) → s.on F.FLT_CFG_INJECT_DISRUPT 0 = true → s.flt.resets = [] →
      exec (.injection j) s = .next (s.after
        (u.raise (.engine (BitVec.ofNat 7 (s.f F.FLT_INJ_TARGET k))) (s.f F.FLT_INJ_CLASS k) true 0)))) ∧
    (s.flt.ckpt = none → exec .checkpointRunEnd s = .next (s.after s)) ∧
    (∀ r, s.flt.ckpt = some r → (r.op = 1 → exec .checkpointRunEnd s = .next (s.after (s.writeCkpt r))) ∧
      (r.op ≠ 1 → exec .checkpointRunEnd s = .next (s.after (s.restoreIdx r))))

/-- (R484; R499; R500; R501; R504; R506; R509; R510; R511; R543; R549; R550) PWR_GOOD_FALL, AON_CLK_LOSS and REFERENCE_LOSS mark
what is lost, a CORE loss resets the chip and an SDS loss fails its edge; PWR_GOOD_RISE and AON_CLK_RETURN run a chip reset
and boot where nothing else holds the node; REFERENCE_RETURN of CORE boots what waited; RESET_N_ASSERT resets the chip and
holds it, RESET_N_RELEASE latches the strap and boots; POWER_REMOVED clears the chip and releases the trip; AON_SUPPLY_ON
clears the always-on state too. CLK_TIME_TICK counts while the always-on clock runs. THERMAL_TRIP at the point stops the node.
A domain that may sleep, idle long enough, gates and then stops; a wake from STOP starts in order, unless the energy bound
holds it back, and ends in RUN. A reading is kept with its peak; THROTTLE_STEP after 100 µs steps every region;
CURRENT_ESTIMATE never raises the current by more than the slew. -/
def Obligations.PinsClocksAndPower : Prop :=
  ∀ (s : State) (force : Bool) (d : BitVec 6) (r : BitVec 4) (v : Int) (amps : BitVec 12),
    let d' := d.toNat
    exec .pwrGoodFall s = .next (s.after (s.setPins fun p => { p with pwrBad := true })) ∧
    exec .aonClkLoss s = .next (s.after (s.setPins fun p => { p with aonLost := true })) ∧
    (s.pins.pwrBad = false → exec .pwrGoodRise s = .next (s.after s)) ∧
    (s.pins.pwrBad = true → let t := s.setPins fun p => { p with pwrBad := false }
      ((s.pins.tripLow = true ∨ s.pins.pcycLow = true) → exec .pwrGoodRise s = .next (s.after t)) ∧
      (s.pins.tripLow = false → s.pins.pcycLow = false → exec .pwrGoodRise s = .next (s.after t.coldReset.tryBoot))) ∧
    (s.pins.aonLost = false → exec .aonClkReturn s = .next (s.after s)) ∧
    (s.pins.aonLost = true → s.pins.pwrBad = false → s.pins.tripLow = false → s.pins.pcycLow = false →
      exec .aonClkReturn s = .next (s.after (s.setPins fun p => { p with aonLost := false }).coldReset.tryBoot)) ∧
    (s.pins.coreLost = true → exec (.referenceLoss .core) s = .next (s.after s)) ∧
    (s.pins.coreLost = false → s.live = true →
      exec (.referenceLoss .core) s = .next (s.after ((s.raise .chip 0x0E false 0).setPins fun p => { p with coreLost := true }))) ∧
    (s.live = true → (s.sdsDown 0 = false → exec (.referenceLoss .sdsA) s = .next (s.after ((s.failEdge 0).setSds 0 true))) ∧
      (s.sdsDown 1 = false → exec (.referenceLoss .sdsB) s = .next (s.after ((s.failEdge 1).setSds 1 true)))) ∧
    exec (.referenceReturn .core) s = .next (s.after (s.setPins fun p => { p with coreLost := false }).tryBoot) ∧
    exec (.referenceReturn .sdsA) s = .next (s.after (s.setSds 0 false)) ∧ exec (.referenceReturn .sdsB) s = .next (s.after (s.setSds 1 false)) ∧
    ((s.pins.tripLow = true ∨ s.pins.pcycLow = true ∨ s.pins.resetLow = true) → exec .resetNAssert s = .next (s.after s)) ∧
    (s.pins.tripLow = false → s.pins.pcycLow = false → s.pins.resetLow = false → s.pins.pwrBad = false →
      let t := ((s.setPins fun p => { p with resetLow := true }).coldReset).logFault 0 3 4 0 0 false
      exec .resetNAssert s = .next (s.after (t.1.setFlt fun x => { x with resets := [⟨.chip, false, t.1.now, t.2, false⟩] }))) ∧
    (s.pins.resetLow = false → s.bootState ≠ bootRom → exec (.resetNRelease force) s = .next (s.after s)) ∧
    ((s.pins.resetLow = true ∨ s.bootState = bootRom) → s.pins.pwrBad = false →
      let t := s.setPins fun p => { p with resetLow := false, strap := force }
      exec (.resetNRelease force) s = .next (s.after (t.setF F.TOP_STRAP_FORCE_RCV 0 force.toNat).tryBoot)) ∧
    (s.pins.pwrBad = false → exec .powerRemoved s = .next (s.after s)) ∧
    (s.pins.pwrBad = true → exec .powerRemoved s = .next (s.after
      ((s.setFlt fun x => { x with resets := [] }).setPins fun p => { p with tripLow := false, pcycLow := false }).chipClear)) ∧
    (∃ t : State, exec .aonSupplyOn s = .next (s.after t) ∧ t.regs = [] ∧ t.mem = [] ∧ t.flt = default ∧ t.pins.pwrBad = true ∧
      t.pins.resetLow = true ∧ t.pins.tripLow = false ∧ t.pins.pcycLow = false) ∧
    (s.live = false → s.tryBoot = s) ∧ (s.live = true → s.bootState = bootRom → s.tryBoot = s.boot) ∧ s.chipClear.mem = [] ∧
    (s.pins.aonLost = true → exec .clkTimeTick s = .next (s.after s)) ∧
    (s.pins.aonLost = false → exec .clkTimeTick s = .next (s.after (s.setF F.CLK_TIME_US 0 ((s.now + 1) % 2 ^ 64)))) ∧
    (s.pins.pwrBad = false → r.toNat < 15 → (s.live = false ∨ tripPoint r.toNat ≤ s.temp r.toNat) → exec (.thermalTrip r) s = .next (s.after
      ((s.setF F.PWR_THERM_STAT_TRIPPED 0 1).setPins fun p => { p with tripLow := true }))) ∧
    ((15 ≤ r.toNat ∨ s.pins.pwrBad = true ∨ (s.live = true ∧ s.temp r.toNat < tripPoint r.toNat)) →
      exec (.thermalTrip r) s = .next (s.after s)) ∧
    (s.live = true →
      (let still := s.maySleep d' = true ∧ s.on F.CLK_DOM_WAKING d' = false ∧ s.domBusy d' = false
       let gate := still ∧ s.depth d' = 0 ∧ 1 ≤ s.maxDepth d' ∧ s.due (s.dom d').idleAt (s.idleTimes d').1 = true
       let stop := still ∧ s.depth d' = 1 ∧ 2 ≤ s.maxDepth d' ∧ s.due (s.dom d').idleAt ((s.idleTimes d').1 + (s.idleTimes d').2) = true ∧
          (d' < 40 ∨ s.groupQuiet d' = true)
       (gate → exec (.domainGate d) s = .next (s.after (s.setF F.CLK_DOM_STATE d' 1))) ∧
       (¬ gate → exec (.domainGate d) s = .next (s.after s)) ∧
       (stop → exec (.domainStop d) s = .next (s.after (s.setF F.CLK_DOM_STATE d' 2))) ∧
       (¬ stop → exec (.domainStop d) s = .next (s.after s))) ∧
      (((List.range 44).all fun d => s.depth d == 0 || !s.domBusy d) = true →
        (s.pwr.wakeQ = [] → exec .wakeStart s = .next (s.after s)) ∧
        (∀ x rest, s.pwr.wakeQ = x :: rest → s.pwr.lastWake = none →
          let e := Config.wakeUj s.free x
          (s.holdsWake x e = true → exec .wakeStart s = .next (s.after s.draw.1.noteLimited)) ∧
          (s.holdsWake x e = false → exec .wakeStart s = .next (s.after
            (((s.draw.1.setF F.CLK_DOM_WAKING x 1).addF F.CLK_DOM_WAKES x 1).setPwr fun p =>
              { p with wakeQ := rest, lastWake := some s.now, wakes := (p.wakes.filter fun w => decide (s.now < w.1 + 10)) ++ [(s.now, e)] }))))) ∧
      (s.on F.CLK_DOM_WAKING d' = false → exec (.wakeEnd d) s = .next (s.after s)) ∧
      (s.on F.CLK_DOM_WAKING d' = true → d' < 14 → ∃ t : State, exec (.wakeEnd d) s = .next (s.after t) ∧ t.depth d' = 0 ∧
        t.on F.CLK_DOM_WAKING d' = false ∧ (t.dom d').wakeReq = none ∧ t.mem = s.mem) ∧
      (15 ≤ r.toNat → exec (.temperatureReading r v) s = .next (s.after s)) ∧
      (r.toNat < 15 → exec (.temperatureReading r v) s = .next (s.after (s.setFs r.toNat [(F.PWR_TEMP_TEMP, toTwos 12 v),
        (F.PWR_TEMP_PEAK, toTwos 12 (max (signed 12 (s.f F.PWR_TEMP_PEAK r.toNat)) (signed 12 (toTwos 12 v))))]))) ∧
      (s.due s.pwr.throttleAt 100 = false → exec .throttleStep s = .next (s.after s)) ∧
      (s.due s.pwr.throttleAt 100 = true → exec .throttleStep s = .next (s.after
        ((List.range 15).foldl State.throttle (s.setPwr fun p => { p with throttleAt := s.now })))) ∧
      ∃ t : State, exec (.currentEstimate amps) s = .next (s.after t) ∧ t.mem = s.mem ∧
        (s.pwr.stepAt = s.now → t.f F.PWR_GOV_STAT_CURRENT_A 0 ≤ s.pwr.current + max 1 (s.f F.PWR_GOV_SLEW_A_US 0)) ∧
        (s.pwr.stepAt ≠ s.now → t.f F.PWR_GOV_STAT_CURRENT_A 0 ≤
          s.f F.PWR_GOV_STAT_CURRENT_A 0 + max 1 (s.f F.PWR_GOV_SLEW_A_US 0)))

/-- (R64) For every entry whose offsets keep the bounds of R62, every block base and every vintage V: a press unit finds the entry
visible at V if and only if its absolute birth, BASE + BIRTH, is at most V and V is below its absolute death, BASE + DEATH; an
entry that has not been deleted has no end. An entry whose offsets break the bounds is visible at no vintage. -/
def Obligations.EntriesAreSeenFromBirthToDeath : Prop :=
  ∀ (e : Entry) (v base : Nat),
    (e.ok = true → (e.visible v base = true ↔ base + e.birth ≤ v ∧ (e.death = noDeath ∨ v < base + e.death))) ∧
    (e.ok = false → e.visible v base = false)

/-- (R481) For every value of ROLLBACK: the rollback count is at most 64, every bit below it is 1, and, unless it is 64, the bit
at it is 0; bits past that first 0 do not change it. SEC_FUSE_CFG shows it. -/
def Obligations.RollbackCountStopsAtTheFirstZero : Prop :=
  (∀ w : Nat, rollbackCount w ≤ 64 ∧ (∀ i, i < rollbackCount w → w.testBit i = true) ∧
      (rollbackCount w < 64 → w.testBit (rollbackCount w) = false) ∧
      ∀ x : Nat, (∀ i, i ≤ rollbackCount w → x.testBit i = w.testBit i) → rollbackCount x = rollbackCount w) ∧
    ∀ s : State, bits s.fuseCfg 16 10 = rollbackCount s.sec.fuses.rollback.toNat
end

