-- ==== Sys2Proof/Laws/Maps.lean ====
section
/-! SUPPORT. Laws of sparse maps and of bit fields: what a lookup finds after a change, that every change keeps the canonical
form, and what a field reads after a field of the same number is set. -/
namespace Sys2Proof.Machine

variable {α : Type}

/-! Lookups after a change, for any list, sorted or not -/

@[simp] theorem SMap.find_nil (k : Nat) : SMap.find ([] : SMap α) k = none := rfl

@[simp] theorem SMap.find_ins_self (m : SMap α) (k : Nat) (v : α) : SMap.find (SMap.ins m k v) k = some v := by
  induction m with
  | nil => simp [SMap.ins, SMap.find]
  | cons x r ih =>
    obtain ⟨a, b⟩ := x
    unfold SMap.ins
    split
    · simp [SMap.find]
    · split
      · simp [SMap.find]
      · next h => simp [SMap.find, Ne.symm h, ih]

theorem SMap.find_ins_of_ne (m : SMap α) {k k' : Nat} (v : α) (h : k' ≠ k) : SMap.find (SMap.ins m k v) k' = SMap.find m k' := by
  induction m with
  | nil => simp [SMap.ins, SMap.find, h.symm]
  | cons x r ih =>
    obtain ⟨a, b⟩ := x
    unfold SMap.ins
    split
    · simp [SMap.find, h.symm]
    · split
      · next e => subst e; simp [SMap.find, h.symm]
      · simp [SMap.find, ih]

@[simp] theorem SMap.find_del_self (m : SMap α) (k : Nat) : SMap.find (SMap.del m k) k = none := by
  induction m with
  | nil => rfl
  | cons x r ih =>
    obtain ⟨a, b⟩ := x
    unfold SMap.del
    split
    · exact ih
    · next h => simp [SMap.find, h, ih]

theorem SMap.find_del_of_ne (m : SMap α) {k k' : Nat} (h : k' ≠ k) : SMap.find (SMap.del m k) k' = SMap.find m k' := by
  induction m with
  | nil => rfl
  | cons x r ih =>
    obtain ⟨a, b⟩ := x
    unfold SMap.del
    split
    · next e => subst e; simp [SMap.find, h.symm, ih]
    · simp [SMap.find, ih]

theorem SMap.find_put [DecidableEq α] (d : α) (m : SMap α) (k k' : Nat) (v : α) :
    SMap.find (SMap.put d m k v) k' = if k' = k then (if v = d then none else some v) else SMap.find m k' := by
  unfold SMap.put
  split <;> rename_i hv <;> split <;> rename_i hk
  · subst hk; simp
  · exact SMap.find_del_of_ne m hk
  · subst hk; simp
  · exact SMap.find_ins_of_ne m v hk

/-- A key reads the value just put there. -/
@[simp] theorem SMap.get_put_self [DecidableEq α] (d : α) (m : SMap α) (k : Nat) (v : α) : SMap.get d (SMap.put d m k v) k = v := by
  unfold SMap.get
  rw [SMap.find_put]
  split <;> simp_all
  split <;> simp_all

/-- Every other key reads as before. -/
theorem SMap.get_put_of_ne [DecidableEq α] (d : α) (m : SMap α) {k k' : Nat} (v : α) (h : k' ≠ k) :
    SMap.get d (SMap.put d m k v) k' = SMap.get d m k' := by
  unfold SMap.get
  rw [SMap.find_put, if_neg h]

/-! The canonical form -/

theorem SMap.risingFrom_mono {m : SMap α} {a b : Nat} (h : a ≤ b) (w : SMap.risingFrom b m = true) : SMap.risingFrom a m = true := by
  cases m with
  | nil => rfl
  | cons x r =>
    simp only [SMap.risingFrom, Bool.and_eq_true, decide_eq_true_eq] at w ⊢
    exact ⟨by omega, w.2⟩

theorem SMap.risingFrom_ins (m : SMap α) (k : Nat) (v : α) {a : Nat} (h : SMap.risingFrom a m = true) (hk : a ≤ k) :
    SMap.risingFrom a (SMap.ins m k v) = true := by
  induction m generalizing a with
  | nil => simpa [SMap.ins, SMap.risingFrom] using hk
  | cons x r ih =>
    obtain ⟨c, d⟩ := x
    simp only [SMap.risingFrom, Bool.and_eq_true, decide_eq_true_eq] at h
    unfold SMap.ins
    split
    · simp only [SMap.risingFrom, Bool.and_eq_true, decide_eq_true_eq]
      exact ⟨hk, by omega, h.2⟩
    · split
      · next e => subst e; simpa [SMap.risingFrom] using ⟨hk, h.2⟩
      · simp only [SMap.risingFrom, Bool.and_eq_true, decide_eq_true_eq]
        exact ⟨h.1, ih h.2 (by omega)⟩

theorem SMap.risingFrom_del (m : SMap α) (k : Nat) {a : Nat} (h : SMap.risingFrom a m = true) :
    SMap.risingFrom a (SMap.del m k) = true := by
  induction m generalizing a with
  | nil => rfl
  | cons x r ih =>
    obtain ⟨c, d⟩ := x
    simp only [SMap.risingFrom, Bool.and_eq_true, decide_eq_true_eq] at h
    unfold SMap.del
    split
    · exact ih (SMap.risingFrom_mono (by omega) h.2)
    · simp only [SMap.risingFrom, Bool.and_eq_true, decide_eq_true_eq]
      exact ⟨h.1, ih h.2⟩

theorem SMap.mem_ins {m : SMap α} {k : Nat} {v : α} {x : Nat × α} (h : x ∈ SMap.ins m k v) : x = (k, v) ∨ x ∈ m := by
  induction m with
  | nil => simpa [SMap.ins] using h
  | cons y r ih =>
    obtain ⟨c, d⟩ := y
    unfold SMap.ins at h
    split at h
    · simpa using h
    · split at h
      · simp only [List.mem_cons] at h ⊢
        tauto
      · simp only [List.mem_cons] at h ⊢
        rcases h with h | h
        · exact .inr (.inl h)
        · exact (ih h).imp_right .inr

theorem SMap.mem_del {m : SMap α} {k : Nat} {x : Nat × α} (h : x ∈ SMap.del m k) : x ∈ m := by
  induction m with
  | nil => simp [SMap.del] at h
  | cons y r ih =>
    obtain ⟨c, d⟩ := y
    unfold SMap.del at h
    split at h
    · exact List.mem_cons_of_mem _ (ih h)
    · simp only [List.mem_cons] at h ⊢
      exact h.imp_right ih

/-- Putting a value keeps the canonical form. -/
theorem SMap.wf_put [DecidableEq α] (d : α) (m : SMap α) (k : Nat) (v : α) (h : SMap.wf (fun _ => d) m = true) :
    SMap.wf (fun _ => d) (SMap.put d m k v) = true := by
  simp only [SMap.wf, Bool.and_eq_true, List.all_eq_true, decide_eq_true_eq, Prod.forall] at h ⊢
  unfold SMap.put
  split
  · exact ⟨SMap.risingFrom_del m k h.1, fun a b hb => h.2 a b (SMap.mem_del hb)⟩
  · next hv =>
    refine ⟨SMap.risingFrom_ins m k v h.1 (Nat.zero_le _), fun a b hb => ?_⟩
    rcases SMap.mem_ins hb with e | hm
    · simp only [Prod.mk.injEq] at e
      rw [e.2]; exact hv
    · exact h.2 a b hm

/-- Leaving out entries keeps the canonical form. -/
theorem SMap.wf_filter [DecidableEq α] (d : α) (m : SMap α) (p : Nat × α → Bool) (h : SMap.wf (fun _ => d) m = true) :
    SMap.wf (fun _ => d) (m.filter p) = true := by
  simp only [SMap.wf, Bool.and_eq_true, List.all_eq_true, Prod.forall] at h ⊢
  refine ⟨?_, fun a b hb => h.2 a b (List.mem_of_mem_filter hb)⟩
  have key : ∀ (l : SMap α) (n : Nat), SMap.risingFrom n l = true → SMap.risingFrom n (l.filter p) = true := by
    intro l
    induction l with
    | nil => intro n _; rfl
    | cons x r ih =>
      obtain ⟨c, e⟩ := x
      intro n hn
      simp only [SMap.risingFrom, Bool.and_eq_true, decide_eq_true_eq] at hn
      rw [List.filter_cons]
      split
      · simp only [SMap.risingFrom, Bool.and_eq_true, decide_eq_true_eq]
        exact ⟨hn.1, ih _ hn.2⟩
      · exact ih _ (SMap.risingFrom_mono (by omega) hn.2)
  exact key m 0 h.1

/-! Bit fields -/

/-- A field reads what was set in it, as far as it fits. -/
theorem bits_setBits (w hi lo v : Nat) (h : lo ≤ hi) : bits (setBits w hi lo v) hi lo = v % 2 ^ (hi + 1 - lo) := by
  unfold bits setBits
  have e : 2 ^ (hi + 1) = 2 ^ lo * 2 ^ (hi + 1 - lo) := by rw [← Nat.pow_add]; congr 1; omega
  have p : 0 < 2 ^ lo := Nat.two_pow_pos lo
  have q : 0 < 2 ^ (hi + 1 - lo) := Nat.two_pow_pos _
  rw [e]
  have r : w % 2 ^ lo + v % 2 ^ (hi + 1 - lo) * 2 ^ lo + w / (2 ^ lo * 2 ^ (hi + 1 - lo)) * (2 ^ lo * 2 ^ (hi + 1 - lo))
      = w % 2 ^ lo + 2 ^ lo * (v % 2 ^ (hi + 1 - lo) + 2 ^ (hi + 1 - lo) * (w / (2 ^ lo * 2 ^ (hi + 1 - lo)))) := by ring
  rw [r, Nat.add_mul_div_left _ _ p, Nat.div_eq_of_lt (Nat.mod_lt _ p), Nat.zero_add, Nat.add_mul_mod_self_left, Nat.mod_mod]

/-- A number after one of its fields is set, bit by bit. -/
theorem testBit_setBits (w hi lo v k : Nat) (h : lo ≤ hi) :
    (setBits w hi lo v).testBit k = if lo ≤ k ∧ k ≤ hi then v.testBit (k - lo) else w.testBit k := by
  unfold setBits
  have a1 : w % 2 ^ lo < 2 ^ lo := Nat.mod_lt _ (Nat.two_pow_pos lo)
  have e : 2 ^ (hi + 1) = 2 ^ lo * 2 ^ (hi + 1 - lo) := by rw [← Nat.pow_add]; congr 1; omega
  have r : w % 2 ^ lo + v % 2 ^ (hi + 1 - lo) * 2 ^ lo + w / 2 ^ (hi + 1) * 2 ^ (hi + 1)
      = 2 ^ lo * (2 ^ (hi + 1 - lo) * (w / 2 ^ (hi + 1)) + v % 2 ^ (hi + 1 - lo)) + w % 2 ^ lo := by rw [e]; ring
  rw [r, Nat.testBit_two_pow_mul_add _ a1]
  split
  · next hk => rw [Nat.testBit_mod_two_pow]; simp [hk, show ¬ (lo ≤ k) by omega]
  · next hk =>
    rw [Nat.testBit_two_pow_mul_add _ (Nat.mod_lt _ (Nat.two_pow_pos _)), Nat.testBit_mod_two_pow, Nat.testBit_div_two_pow]
    by_cases h2 : k ≤ hi
    · simp [show k - lo < hi + 1 - lo by omega, show lo ≤ k by omega, h2]
    · simp [show ¬ (k - lo < hi + 1 - lo) by omega, h2, show k - lo - (hi + 1 - lo) + (hi + 1) = k by omega]

theorem testBit_bits (w hi lo k : Nat) : (bits w hi lo).testBit k = (decide (k < hi + 1 - lo) && w.testBit (k + lo)) := by
  unfold bits
  rw [Nat.testBit_mod_two_pow, Nat.testBit_div_two_pow]

/-- A field reads as before when a field beside it is set. -/
theorem bits_setBits_of_disjoint (w hi lo v hi' lo' : Nat) (h : lo ≤ hi) (d : hi' < lo ∨ hi < lo') :
    bits (setBits w hi lo v) hi' lo' = bits w hi' lo' := by
  apply Nat.eq_of_testBit_eq
  intro k
  rw [testBit_bits, testBit_bits, testBit_setBits _ _ _ _ _ h]
  by_cases c : k < hi' + 1 - lo'
  · rw [if_neg (by omega)]
  · simp [c]

theorem setBits_lt (w hi lo v n : Nat) (h : lo ≤ hi) (hn : hi < n) (hw : w < 2 ^ n) : setBits w hi lo v < 2 ^ n := by
  apply Nat.lt_pow_two_of_testBit
  intro k hk
  rw [testBit_setBits _ _ _ _ _ h, if_neg (by omega)]
  exact Nat.testBit_lt_two_pow (Nat.lt_of_lt_of_le hw (Nat.pow_le_pow_right (by omega) hk))

end Sys2Proof.Machine
end

