-- ==== Sys2Proof/Laws/State.lean ====
section
/-! SUPPORT. What each update of the state changes and what it leaves: one lemma per update and field, so that no proof unfolds a
record update. -/
namespace Sys2Proof.Machine

variable (s : State)

/-! setReg -/
@[simp] theorem State.setReg_pending (r : Reg) (i v : Nat) : (s.setReg r i v).pending = s.pending := rfl
@[simp] theorem State.setReg_regs (r : Reg) (i v : Nat) : (s.setReg r i v).regs = SMap.put (BitVec.ofNat 64 (r.resetVal i)) s.regs (r.addr i) (BitVec.ofNat 64 v) := rfl
@[simp] theorem State.setReg_mem (r : Reg) (i v : Nat) : (s.setReg r i v).mem = s.mem := rfl
@[simp] theorem State.setReg_ecc (r : Reg) (i v : Nat) : (s.setReg r i v).ecc = s.ecc := rfl
@[simp] theorem State.setReg_ctxs (r : Reg) (i v : Nat) : (s.setReg r i v).ctxs = s.ctxs := rfl
@[simp] theorem State.setReg_tlb (r : Reg) (i v : Nat) : (s.setReg r i v).tlb = s.tlb := rfl
@[simp] theorem State.setReg_jobs (r : Reg) (i v : Nat) : (s.setReg r i v).jobs = s.jobs := rfl
@[simp] theorem State.setReg_nextJob (r : Reg) (i v : Nat) : (s.setReg r i v).nextJob = s.nextJob := rfl
@[simp] theorem State.setReg_idxs (r : Reg) (i v : Nat) : (s.setReg r i v).idxs = s.idxs := rfl
@[simp] theorem State.setReg_press (r : Reg) (i v : Nat) : (s.setReg r i v).press = s.press := rfl
@[simp] theorem State.setReg_pressOut (r : Reg) (i v : Nat) : (s.setReg r i v).pressOut = s.pressOut := rfl
@[simp] theorem State.setReg_toFree (r : Reg) (i v : Nat) : (s.setReg r i v).toFree = s.toFree := rfl
@[simp] theorem State.setReg_cellar (r : Reg) (i v : Nat) : (s.setReg r i v).cellar = s.cellar := rfl
@[simp] theorem State.setReg_pool (r : Reg) (i v : Nat) : (s.setReg r i v).pool = s.pool := rfl
@[simp] theorem State.setReg_parts (r : Reg) (i v : Nat) : (s.setReg r i v).parts = s.parts := rfl
@[simp] theorem State.setReg_prefetch (r : Reg) (i v : Nat) : (s.setReg r i v).prefetch = s.prefetch := rfl
@[simp] theorem State.setReg_episodes (r : Reg) (i v : Nat) : (s.setReg r i v).episodes = s.episodes := rfl
@[simp] theorem State.setReg_arrivals (r : Reg) (i v : Nat) : (s.setReg r i v).arrivals = s.arrivals := rfl
@[simp] theorem State.setReg_slow (r : Reg) (i v : Nat) : (s.setReg r i v).slow = s.slow := rfl
@[simp] theorem State.setReg_slowAt (r : Reg) (i v : Nat) : (s.setReg r i v).slowAt = s.slowAt := rfl
@[simp] theorem State.setReg_slowPer (r : Reg) (i v : Nat) : (s.setReg r i v).slowPer = s.slowPer := rfl
@[simp] theorem State.setReg_fab (r : Reg) (i v : Nat) : (s.setReg r i v).fab = s.fab := rfl
@[simp] theorem State.setReg_nl0 (r : Reg) (i v : Nat) : (s.setReg r i v).nl0 = s.nl0 := rfl
@[simp] theorem State.setReg_nl1 (r : Reg) (i v : Nat) : (s.setReg r i v).nl1 = s.nl1 := rfl
@[simp] theorem State.setReg_flt (r : Reg) (i v : Nat) : (s.setReg r i v).flt = s.flt := rfl
@[simp] theorem State.setReg_sec (r : Reg) (i v : Nat) : (s.setReg r i v).sec = s.sec := rfl
@[simp] theorem State.setReg_pwr (r : Reg) (i v : Nat) : (s.setReg r i v).pwr = s.pwr := rfl
@[simp] theorem State.setReg_pins (r : Reg) (i v : Nat) : (s.setReg r i v).pins = s.pins := rfl
@[simp] theorem State.setReg_intP (r : Reg) (i v : Nat) : (s.setReg r i v).intP = s.intP := rfl
@[simp] theorem State.setReg_free (r : Reg) (i v : Nat) : (s.setReg r i v).free = s.free := rfl

/-! setF -/
@[simp] theorem State.setF_pending (x : Fld) (i v : Nat) : (s.setF x i v).pending = s.pending := rfl
@[simp] theorem State.setF_mem (x : Fld) (i v : Nat) : (s.setF x i v).mem = s.mem := rfl
@[simp] theorem State.setF_ecc (x : Fld) (i v : Nat) : (s.setF x i v).ecc = s.ecc := rfl
@[simp] theorem State.setF_ctxs (x : Fld) (i v : Nat) : (s.setF x i v).ctxs = s.ctxs := rfl
@[simp] theorem State.setF_tlb (x : Fld) (i v : Nat) : (s.setF x i v).tlb = s.tlb := rfl
@[simp] theorem State.setF_jobs (x : Fld) (i v : Nat) : (s.setF x i v).jobs = s.jobs := rfl
@[simp] theorem State.setF_nextJob (x : Fld) (i v : Nat) : (s.setF x i v).nextJob = s.nextJob := rfl
@[simp] theorem State.setF_idxs (x : Fld) (i v : Nat) : (s.setF x i v).idxs = s.idxs := rfl
@[simp] theorem State.setF_press (x : Fld) (i v : Nat) : (s.setF x i v).press = s.press := rfl
@[simp] theorem State.setF_pressOut (x : Fld) (i v : Nat) : (s.setF x i v).pressOut = s.pressOut := rfl
@[simp] theorem State.setF_toFree (x : Fld) (i v : Nat) : (s.setF x i v).toFree = s.toFree := rfl
@[simp] theorem State.setF_cellar (x : Fld) (i v : Nat) : (s.setF x i v).cellar = s.cellar := rfl
@[simp] theorem State.setF_pool (x : Fld) (i v : Nat) : (s.setF x i v).pool = s.pool := rfl
@[simp] theorem State.setF_parts (x : Fld) (i v : Nat) : (s.setF x i v).parts = s.parts := rfl
@[simp] theorem State.setF_prefetch (x : Fld) (i v : Nat) : (s.setF x i v).prefetch = s.prefetch := rfl
@[simp] theorem State.setF_episodes (x : Fld) (i v : Nat) : (s.setF x i v).episodes = s.episodes := rfl
@[simp] theorem State.setF_arrivals (x : Fld) (i v : Nat) : (s.setF x i v).arrivals = s.arrivals := rfl
@[simp] theorem State.setF_slow (x : Fld) (i v : Nat) : (s.setF x i v).slow = s.slow := rfl
@[simp] theorem State.setF_slowAt (x : Fld) (i v : Nat) : (s.setF x i v).slowAt = s.slowAt := rfl
@[simp] theorem State.setF_slowPer (x : Fld) (i v : Nat) : (s.setF x i v).slowPer = s.slowPer := rfl
@[simp] theorem State.setF_fab (x : Fld) (i v : Nat) : (s.setF x i v).fab = s.fab := rfl
@[simp] theorem State.setF_nl0 (x : Fld) (i v : Nat) : (s.setF x i v).nl0 = s.nl0 := rfl
@[simp] theorem State.setF_nl1 (x : Fld) (i v : Nat) : (s.setF x i v).nl1 = s.nl1 := rfl
@[simp] theorem State.setF_flt (x : Fld) (i v : Nat) : (s.setF x i v).flt = s.flt := rfl
@[simp] theorem State.setF_sec (x : Fld) (i v : Nat) : (s.setF x i v).sec = s.sec := rfl
@[simp] theorem State.setF_pwr (x : Fld) (i v : Nat) : (s.setF x i v).pwr = s.pwr := rfl
@[simp] theorem State.setF_pins (x : Fld) (i v : Nat) : (s.setF x i v).pins = s.pins := rfl
@[simp] theorem State.setF_intP (x : Fld) (i v : Nat) : (s.setF x i v).intP = s.intP := rfl
@[simp] theorem State.setF_free (x : Fld) (i v : Nat) : (s.setF x i v).free = s.free := rfl

/-! addF -/
@[simp] theorem State.addF_pending (x : Fld) (i v : Nat) : (s.addF x i v).pending = s.pending := rfl
@[simp] theorem State.addF_mem (x : Fld) (i v : Nat) : (s.addF x i v).mem = s.mem := rfl
@[simp] theorem State.addF_ecc (x : Fld) (i v : Nat) : (s.addF x i v).ecc = s.ecc := rfl
@[simp] theorem State.addF_ctxs (x : Fld) (i v : Nat) : (s.addF x i v).ctxs = s.ctxs := rfl
@[simp] theorem State.addF_tlb (x : Fld) (i v : Nat) : (s.addF x i v).tlb = s.tlb := rfl
@[simp] theorem State.addF_jobs (x : Fld) (i v : Nat) : (s.addF x i v).jobs = s.jobs := rfl
@[simp] theorem State.addF_nextJob (x : Fld) (i v : Nat) : (s.addF x i v).nextJob = s.nextJob := rfl
@[simp] theorem State.addF_idxs (x : Fld) (i v : Nat) : (s.addF x i v).idxs = s.idxs := rfl
@[simp] theorem State.addF_press (x : Fld) (i v : Nat) : (s.addF x i v).press = s.press := rfl
@[simp] theorem State.addF_pressOut (x : Fld) (i v : Nat) : (s.addF x i v).pressOut = s.pressOut := rfl
@[simp] theorem State.addF_toFree (x : Fld) (i v : Nat) : (s.addF x i v).toFree = s.toFree := rfl
@[simp] theorem State.addF_cellar (x : Fld) (i v : Nat) : (s.addF x i v).cellar = s.cellar := rfl
@[simp] theorem State.addF_pool (x : Fld) (i v : Nat) : (s.addF x i v).pool = s.pool := rfl
@[simp] theorem State.addF_parts (x : Fld) (i v : Nat) : (s.addF x i v).parts = s.parts := rfl
@[simp] theorem State.addF_prefetch (x : Fld) (i v : Nat) : (s.addF x i v).prefetch = s.prefetch := rfl
@[simp] theorem State.addF_episodes (x : Fld) (i v : Nat) : (s.addF x i v).episodes = s.episodes := rfl
@[simp] theorem State.addF_arrivals (x : Fld) (i v : Nat) : (s.addF x i v).arrivals = s.arrivals := rfl
@[simp] theorem State.addF_slow (x : Fld) (i v : Nat) : (s.addF x i v).slow = s.slow := rfl
@[simp] theorem State.addF_slowAt (x : Fld) (i v : Nat) : (s.addF x i v).slowAt = s.slowAt := rfl
@[simp] theorem State.addF_slowPer (x : Fld) (i v : Nat) : (s.addF x i v).slowPer = s.slowPer := rfl
@[simp] theorem State.addF_fab (x : Fld) (i v : Nat) : (s.addF x i v).fab = s.fab := rfl
@[simp] theorem State.addF_nl0 (x : Fld) (i v : Nat) : (s.addF x i v).nl0 = s.nl0 := rfl
@[simp] theorem State.addF_nl1 (x : Fld) (i v : Nat) : (s.addF x i v).nl1 = s.nl1 := rfl
@[simp] theorem State.addF_flt (x : Fld) (i v : Nat) : (s.addF x i v).flt = s.flt := rfl
@[simp] theorem State.addF_sec (x : Fld) (i v : Nat) : (s.addF x i v).sec = s.sec := rfl
@[simp] theorem State.addF_pwr (x : Fld) (i v : Nat) : (s.addF x i v).pwr = s.pwr := rfl
@[simp] theorem State.addF_pins (x : Fld) (i v : Nat) : (s.addF x i v).pins = s.pins := rfl
@[simp] theorem State.addF_intP (x : Fld) (i v : Nat) : (s.addF x i v).intP = s.intP := rfl
@[simp] theorem State.addF_free (x : Fld) (i v : Nat) : (s.addF x i v).free = s.free := rfl

/-! setBitF -/
@[simp] theorem State.setBitF_pending (x : Fld) (i v : Nat) : (s.setBitF x i v).pending = s.pending := rfl
@[simp] theorem State.setBitF_mem (x : Fld) (i v : Nat) : (s.setBitF x i v).mem = s.mem := rfl
@[simp] theorem State.setBitF_ecc (x : Fld) (i v : Nat) : (s.setBitF x i v).ecc = s.ecc := rfl
@[simp] theorem State.setBitF_ctxs (x : Fld) (i v : Nat) : (s.setBitF x i v).ctxs = s.ctxs := rfl
@[simp] theorem State.setBitF_tlb (x : Fld) (i v : Nat) : (s.setBitF x i v).tlb = s.tlb := rfl
@[simp] theorem State.setBitF_jobs (x : Fld) (i v : Nat) : (s.setBitF x i v).jobs = s.jobs := rfl
@[simp] theorem State.setBitF_nextJob (x : Fld) (i v : Nat) : (s.setBitF x i v).nextJob = s.nextJob := rfl
@[simp] theorem State.setBitF_idxs (x : Fld) (i v : Nat) : (s.setBitF x i v).idxs = s.idxs := rfl
@[simp] theorem State.setBitF_press (x : Fld) (i v : Nat) : (s.setBitF x i v).press = s.press := rfl
@[simp] theorem State.setBitF_pressOut (x : Fld) (i v : Nat) : (s.setBitF x i v).pressOut = s.pressOut := rfl
@[simp] theorem State.setBitF_toFree (x : Fld) (i v : Nat) : (s.setBitF x i v).toFree = s.toFree := rfl
@[simp] theorem State.setBitF_cellar (x : Fld) (i v : Nat) : (s.setBitF x i v).cellar = s.cellar := rfl
@[simp] theorem State.setBitF_pool (x : Fld) (i v : Nat) : (s.setBitF x i v).pool = s.pool := rfl
@[simp] theorem State.setBitF_parts (x : Fld) (i v : Nat) : (s.setBitF x i v).parts = s.parts := rfl
@[simp] theorem State.setBitF_prefetch (x : Fld) (i v : Nat) : (s.setBitF x i v).prefetch = s.prefetch := rfl
@[simp] theorem State.setBitF_episodes (x : Fld) (i v : Nat) : (s.setBitF x i v).episodes = s.episodes := rfl
@[simp] theorem State.setBitF_arrivals (x : Fld) (i v : Nat) : (s.setBitF x i v).arrivals = s.arrivals := rfl
@[simp] theorem State.setBitF_slow (x : Fld) (i v : Nat) : (s.setBitF x i v).slow = s.slow := rfl
@[simp] theorem State.setBitF_slowAt (x : Fld) (i v : Nat) : (s.setBitF x i v).slowAt = s.slowAt := rfl
@[simp] theorem State.setBitF_slowPer (x : Fld) (i v : Nat) : (s.setBitF x i v).slowPer = s.slowPer := rfl
@[simp] theorem State.setBitF_fab (x : Fld) (i v : Nat) : (s.setBitF x i v).fab = s.fab := rfl
@[simp] theorem State.setBitF_nl0 (x : Fld) (i v : Nat) : (s.setBitF x i v).nl0 = s.nl0 := rfl
@[simp] theorem State.setBitF_nl1 (x : Fld) (i v : Nat) : (s.setBitF x i v).nl1 = s.nl1 := rfl
@[simp] theorem State.setBitF_flt (x : Fld) (i v : Nat) : (s.setBitF x i v).flt = s.flt := rfl
@[simp] theorem State.setBitF_sec (x : Fld) (i v : Nat) : (s.setBitF x i v).sec = s.sec := rfl
@[simp] theorem State.setBitF_pwr (x : Fld) (i v : Nat) : (s.setBitF x i v).pwr = s.pwr := rfl
@[simp] theorem State.setBitF_pins (x : Fld) (i v : Nat) : (s.setBitF x i v).pins = s.pins := rfl
@[simp] theorem State.setBitF_intP (x : Fld) (i v : Nat) : (s.setBitF x i v).intP = s.intP := rfl
@[simp] theorem State.setBitF_free (x : Fld) (i v : Nat) : (s.setBitF x i v).free = s.free := rfl

/-! event -/
@[simp] theorem State.event_pending (x : Fld) : (s.event x).pending = s.pending := rfl
@[simp] theorem State.event_mem (x : Fld) : (s.event x).mem = s.mem := rfl
@[simp] theorem State.event_ecc (x : Fld) : (s.event x).ecc = s.ecc := rfl
@[simp] theorem State.event_ctxs (x : Fld) : (s.event x).ctxs = s.ctxs := rfl
@[simp] theorem State.event_tlb (x : Fld) : (s.event x).tlb = s.tlb := rfl
@[simp] theorem State.event_jobs (x : Fld) : (s.event x).jobs = s.jobs := rfl
@[simp] theorem State.event_nextJob (x : Fld) : (s.event x).nextJob = s.nextJob := rfl
@[simp] theorem State.event_idxs (x : Fld) : (s.event x).idxs = s.idxs := rfl
@[simp] theorem State.event_press (x : Fld) : (s.event x).press = s.press := rfl
@[simp] theorem State.event_pressOut (x : Fld) : (s.event x).pressOut = s.pressOut := rfl
@[simp] theorem State.event_toFree (x : Fld) : (s.event x).toFree = s.toFree := rfl
@[simp] theorem State.event_cellar (x : Fld) : (s.event x).cellar = s.cellar := rfl
@[simp] theorem State.event_pool (x : Fld) : (s.event x).pool = s.pool := rfl
@[simp] theorem State.event_parts (x : Fld) : (s.event x).parts = s.parts := rfl
@[simp] theorem State.event_prefetch (x : Fld) : (s.event x).prefetch = s.prefetch := rfl
@[simp] theorem State.event_episodes (x : Fld) : (s.event x).episodes = s.episodes := rfl
@[simp] theorem State.event_arrivals (x : Fld) : (s.event x).arrivals = s.arrivals := rfl
@[simp] theorem State.event_slow (x : Fld) : (s.event x).slow = s.slow := rfl
@[simp] theorem State.event_slowAt (x : Fld) : (s.event x).slowAt = s.slowAt := rfl
@[simp] theorem State.event_slowPer (x : Fld) : (s.event x).slowPer = s.slowPer := rfl
@[simp] theorem State.event_fab (x : Fld) : (s.event x).fab = s.fab := rfl
@[simp] theorem State.event_nl0 (x : Fld) : (s.event x).nl0 = s.nl0 := rfl
@[simp] theorem State.event_nl1 (x : Fld) : (s.event x).nl1 = s.nl1 := rfl
@[simp] theorem State.event_flt (x : Fld) : (s.event x).flt = s.flt := rfl
@[simp] theorem State.event_sec (x : Fld) : (s.event x).sec = s.sec := rfl
@[simp] theorem State.event_pwr (x : Fld) : (s.event x).pwr = s.pwr := rfl
@[simp] theorem State.event_pins (x : Fld) : (s.event x).pins = s.pins := rfl
@[simp] theorem State.event_intP (x : Fld) : (s.event x).intP = s.intP := rfl
@[simp] theorem State.event_free (x : Fld) : (s.event x).free = s.free := rfl

/-! setSyn -/
@[simp] theorem State.setSyn_pending (c : Nat) (x : Syn) : (s.setSyn c x).pending = s.pending := rfl
@[simp] theorem State.setSyn_regs (c : Nat) (x : Syn) : (s.setSyn c x).regs = s.regs := rfl
@[simp] theorem State.setSyn_mem (c : Nat) (x : Syn) : (s.setSyn c x).mem = s.mem := rfl
@[simp] theorem State.setSyn_ecc (c : Nat) (x : Syn) : (s.setSyn c x).ecc = SMap.put Syn.clean s.ecc c x := rfl
@[simp] theorem State.setSyn_ctxs (c : Nat) (x : Syn) : (s.setSyn c x).ctxs = s.ctxs := rfl
@[simp] theorem State.setSyn_tlb (c : Nat) (x : Syn) : (s.setSyn c x).tlb = s.tlb := rfl
@[simp] theorem State.setSyn_jobs (c : Nat) (x : Syn) : (s.setSyn c x).jobs = s.jobs := rfl
@[simp] theorem State.setSyn_nextJob (c : Nat) (x : Syn) : (s.setSyn c x).nextJob = s.nextJob := rfl
@[simp] theorem State.setSyn_idxs (c : Nat) (x : Syn) : (s.setSyn c x).idxs = s.idxs := rfl
@[simp] theorem State.setSyn_press (c : Nat) (x : Syn) : (s.setSyn c x).press = s.press := rfl
@[simp] theorem State.setSyn_pressOut (c : Nat) (x : Syn) : (s.setSyn c x).pressOut = s.pressOut := rfl
@[simp] theorem State.setSyn_toFree (c : Nat) (x : Syn) : (s.setSyn c x).toFree = s.toFree := rfl
@[simp] theorem State.setSyn_cellar (c : Nat) (x : Syn) : (s.setSyn c x).cellar = s.cellar := rfl
@[simp] theorem State.setSyn_pool (c : Nat) (x : Syn) : (s.setSyn c x).pool = s.pool := rfl
@[simp] theorem State.setSyn_parts (c : Nat) (x : Syn) : (s.setSyn c x).parts = s.parts := rfl
@[simp] theorem State.setSyn_prefetch (c : Nat) (x : Syn) : (s.setSyn c x).prefetch = s.prefetch := rfl
@[simp] theorem State.setSyn_episodes (c : Nat) (x : Syn) : (s.setSyn c x).episodes = s.episodes := rfl
@[simp] theorem State.setSyn_arrivals (c : Nat) (x : Syn) : (s.setSyn c x).arrivals = s.arrivals := rfl
@[simp] theorem State.setSyn_slow (c : Nat) (x : Syn) : (s.setSyn c x).slow = s.slow := rfl
@[simp] theorem State.setSyn_slowAt (c : Nat) (x : Syn) : (s.setSyn c x).slowAt = s.slowAt := rfl
@[simp] theorem State.setSyn_slowPer (c : Nat) (x : Syn) : (s.setSyn c x).slowPer = s.slowPer := rfl
@[simp] theorem State.setSyn_fab (c : Nat) (x : Syn) : (s.setSyn c x).fab = s.fab := rfl
@[simp] theorem State.setSyn_nl0 (c : Nat) (x : Syn) : (s.setSyn c x).nl0 = s.nl0 := rfl
@[simp] theorem State.setSyn_nl1 (c : Nat) (x : Syn) : (s.setSyn c x).nl1 = s.nl1 := rfl
@[simp] theorem State.setSyn_flt (c : Nat) (x : Syn) : (s.setSyn c x).flt = s.flt := rfl
@[simp] theorem State.setSyn_sec (c : Nat) (x : Syn) : (s.setSyn c x).sec = s.sec := rfl
@[simp] theorem State.setSyn_pwr (c : Nat) (x : Syn) : (s.setSyn c x).pwr = s.pwr := rfl
@[simp] theorem State.setSyn_pins (c : Nat) (x : Syn) : (s.setSyn c x).pins = s.pins := rfl
@[simp] theorem State.setSyn_intP (c : Nat) (x : Syn) : (s.setSyn c x).intP = s.intP := rfl
@[simp] theorem State.setSyn_free (c : Nat) (x : Syn) : (s.setSyn c x).free = s.free := rfl

/-! setCtx -/
@[simp] theorem State.setCtx_pending (c : Nat) (f : CtxSt → CtxSt) : (s.setCtx c f).pending = s.pending := rfl
@[simp] theorem State.setCtx_regs (c : Nat) (f : CtxSt → CtxSt) : (s.setCtx c f).regs = s.regs := rfl
@[simp] theorem State.setCtx_mem (c : Nat) (f : CtxSt → CtxSt) : (s.setCtx c f).mem = s.mem := rfl
@[simp] theorem State.setCtx_ecc (c : Nat) (f : CtxSt → CtxSt) : (s.setCtx c f).ecc = s.ecc := rfl
@[simp] theorem State.setCtx_ctxs (c : Nat) (f : CtxSt → CtxSt) : (s.setCtx c f).ctxs = SMap.put default s.ctxs c (f (s.ctx c)) := rfl
@[simp] theorem State.setCtx_tlb (c : Nat) (f : CtxSt → CtxSt) : (s.setCtx c f).tlb = s.tlb := rfl
@[simp] theorem State.setCtx_jobs (c : Nat) (f : CtxSt → CtxSt) : (s.setCtx c f).jobs = s.jobs := rfl
@[simp] theorem State.setCtx_nextJob (c : Nat) (f : CtxSt → CtxSt) : (s.setCtx c f).nextJob = s.nextJob := rfl
@[simp] theorem State.setCtx_idxs (c : Nat) (f : CtxSt → CtxSt) : (s.setCtx c f).idxs = s.idxs := rfl
@[simp] theorem State.setCtx_press (c : Nat) (f : CtxSt → CtxSt) : (s.setCtx c f).press = s.press := rfl
@[simp] theorem State.setCtx_pressOut (c : Nat) (f : CtxSt → CtxSt) : (s.setCtx c f).pressOut = s.pressOut := rfl
@[simp] theorem State.setCtx_toFree (c : Nat) (f : CtxSt → CtxSt) : (s.setCtx c f).toFree = s.toFree := rfl
@[simp] theorem State.setCtx_cellar (c : Nat) (f : CtxSt → CtxSt) : (s.setCtx c f).cellar = s.cellar := rfl
@[simp] theorem State.setCtx_pool (c : Nat) (f : CtxSt → CtxSt) : (s.setCtx c f).pool = s.pool := rfl
@[simp] theorem State.setCtx_parts (c : Nat) (f : CtxSt → CtxSt) : (s.setCtx c f).parts = s.parts := rfl
@[simp] theorem State.setCtx_prefetch (c : Nat) (f : CtxSt → CtxSt) : (s.setCtx c f).prefetch = s.prefetch := rfl
@[simp] theorem State.setCtx_episodes (c : Nat) (f : CtxSt → CtxSt) : (s.setCtx c f).episodes = s.episodes := rfl
@[simp] theorem State.setCtx_arrivals (c : Nat) (f : CtxSt → CtxSt) : (s.setCtx c f).arrivals = s.arrivals := rfl
@[simp] theorem State.setCtx_slow (c : Nat) (f : CtxSt → CtxSt) : (s.setCtx c f).slow = s.slow := rfl
@[simp] theorem State.setCtx_slowAt (c : Nat) (f : CtxSt → CtxSt) : (s.setCtx c f).slowAt = s.slowAt := rfl
@[simp] theorem State.setCtx_slowPer (c : Nat) (f : CtxSt → CtxSt) : (s.setCtx c f).slowPer = s.slowPer := rfl
@[simp] theorem State.setCtx_fab (c : Nat) (f : CtxSt → CtxSt) : (s.setCtx c f).fab = s.fab := rfl
@[simp] theorem State.setCtx_nl0 (c : Nat) (f : CtxSt → CtxSt) : (s.setCtx c f).nl0 = s.nl0 := rfl
@[simp] theorem State.setCtx_nl1 (c : Nat) (f : CtxSt → CtxSt) : (s.setCtx c f).nl1 = s.nl1 := rfl
@[simp] theorem State.setCtx_flt (c : Nat) (f : CtxSt → CtxSt) : (s.setCtx c f).flt = s.flt := rfl
@[simp] theorem State.setCtx_sec (c : Nat) (f : CtxSt → CtxSt) : (s.setCtx c f).sec = s.sec := rfl
@[simp] theorem State.setCtx_pwr (c : Nat) (f : CtxSt → CtxSt) : (s.setCtx c f).pwr = s.pwr := rfl
@[simp] theorem State.setCtx_pins (c : Nat) (f : CtxSt → CtxSt) : (s.setCtx c f).pins = s.pins := rfl
@[simp] theorem State.setCtx_intP (c : Nat) (f : CtxSt → CtxSt) : (s.setCtx c f).intP = s.intP := rfl
@[simp] theorem State.setCtx_free (c : Nat) (f : CtxSt → CtxSt) : (s.setCtx c f).free = s.free := rfl

/-! setIdx -/
@[simp] theorem State.setIdx_pending (c : Nat) (f : IdxSt → IdxSt) : (s.setIdx c f).pending = s.pending := rfl
@[simp] theorem State.setIdx_regs (c : Nat) (f : IdxSt → IdxSt) : (s.setIdx c f).regs = s.regs := rfl
@[simp] theorem State.setIdx_mem (c : Nat) (f : IdxSt → IdxSt) : (s.setIdx c f).mem = s.mem := rfl
@[simp] theorem State.setIdx_ecc (c : Nat) (f : IdxSt → IdxSt) : (s.setIdx c f).ecc = s.ecc := rfl
@[simp] theorem State.setIdx_ctxs (c : Nat) (f : IdxSt → IdxSt) : (s.setIdx c f).ctxs = s.ctxs := rfl
@[simp] theorem State.setIdx_tlb (c : Nat) (f : IdxSt → IdxSt) : (s.setIdx c f).tlb = s.tlb := rfl
@[simp] theorem State.setIdx_jobs (c : Nat) (f : IdxSt → IdxSt) : (s.setIdx c f).jobs = s.jobs := rfl
@[simp] theorem State.setIdx_nextJob (c : Nat) (f : IdxSt → IdxSt) : (s.setIdx c f).nextJob = s.nextJob := rfl
@[simp] theorem State.setIdx_idxs (c : Nat) (f : IdxSt → IdxSt) : (s.setIdx c f).idxs = SMap.put default s.idxs c (f (s.idx c)) := rfl
@[simp] theorem State.setIdx_press (c : Nat) (f : IdxSt → IdxSt) : (s.setIdx c f).press = s.press := rfl
@[simp] theorem State.setIdx_pressOut (c : Nat) (f : IdxSt → IdxSt) : (s.setIdx c f).pressOut = s.pressOut := rfl
@[simp] theorem State.setIdx_toFree (c : Nat) (f : IdxSt → IdxSt) : (s.setIdx c f).toFree = s.toFree := rfl
@[simp] theorem State.setIdx_cellar (c : Nat) (f : IdxSt → IdxSt) : (s.setIdx c f).cellar = s.cellar := rfl
@[simp] theorem State.setIdx_pool (c : Nat) (f : IdxSt → IdxSt) : (s.setIdx c f).pool = s.pool := rfl
@[simp] theorem State.setIdx_parts (c : Nat) (f : IdxSt → IdxSt) : (s.setIdx c f).parts = s.parts := rfl
@[simp] theorem State.setIdx_prefetch (c : Nat) (f : IdxSt → IdxSt) : (s.setIdx c f).prefetch = s.prefetch := rfl
@[simp] theorem State.setIdx_episodes (c : Nat) (f : IdxSt → IdxSt) : (s.setIdx c f).episodes = s.episodes := rfl
@[simp] theorem State.setIdx_arrivals (c : Nat) (f : IdxSt → IdxSt) : (s.setIdx c f).arrivals = s.arrivals := rfl
@[simp] theorem State.setIdx_slow (c : Nat) (f : IdxSt → IdxSt) : (s.setIdx c f).slow = s.slow := rfl
@[simp] theorem State.setIdx_slowAt (c : Nat) (f : IdxSt → IdxSt) : (s.setIdx c f).slowAt = s.slowAt := rfl
@[simp] theorem State.setIdx_slowPer (c : Nat) (f : IdxSt → IdxSt) : (s.setIdx c f).slowPer = s.slowPer := rfl
@[simp] theorem State.setIdx_fab (c : Nat) (f : IdxSt → IdxSt) : (s.setIdx c f).fab = s.fab := rfl
@[simp] theorem State.setIdx_nl0 (c : Nat) (f : IdxSt → IdxSt) : (s.setIdx c f).nl0 = s.nl0 := rfl
@[simp] theorem State.setIdx_nl1 (c : Nat) (f : IdxSt → IdxSt) : (s.setIdx c f).nl1 = s.nl1 := rfl
@[simp] theorem State.setIdx_flt (c : Nat) (f : IdxSt → IdxSt) : (s.setIdx c f).flt = s.flt := rfl
@[simp] theorem State.setIdx_sec (c : Nat) (f : IdxSt → IdxSt) : (s.setIdx c f).sec = s.sec := rfl
@[simp] theorem State.setIdx_pwr (c : Nat) (f : IdxSt → IdxSt) : (s.setIdx c f).pwr = s.pwr := rfl
@[simp] theorem State.setIdx_pins (c : Nat) (f : IdxSt → IdxSt) : (s.setIdx c f).pins = s.pins := rfl
@[simp] theorem State.setIdx_intP (c : Nat) (f : IdxSt → IdxSt) : (s.setIdx c f).intP = s.intP := rfl
@[simp] theorem State.setIdx_free (c : Nat) (f : IdxSt → IdxSt) : (s.setIdx c f).free = s.free := rfl

/-! setPu -/
@[simp] theorem State.setPu_pending (c : Nat) (f : PressUnit → PressUnit) : (s.setPu c f).pending = s.pending := rfl
@[simp] theorem State.setPu_regs (c : Nat) (f : PressUnit → PressUnit) : (s.setPu c f).regs = s.regs := rfl
@[simp] theorem State.setPu_mem (c : Nat) (f : PressUnit → PressUnit) : (s.setPu c f).mem = s.mem := rfl
@[simp] theorem State.setPu_ecc (c : Nat) (f : PressUnit → PressUnit) : (s.setPu c f).ecc = s.ecc := rfl
@[simp] theorem State.setPu_ctxs (c : Nat) (f : PressUnit → PressUnit) : (s.setPu c f).ctxs = s.ctxs := rfl
@[simp] theorem State.setPu_tlb (c : Nat) (f : PressUnit → PressUnit) : (s.setPu c f).tlb = s.tlb := rfl
@[simp] theorem State.setPu_jobs (c : Nat) (f : PressUnit → PressUnit) : (s.setPu c f).jobs = s.jobs := rfl
@[simp] theorem State.setPu_nextJob (c : Nat) (f : PressUnit → PressUnit) : (s.setPu c f).nextJob = s.nextJob := rfl
@[simp] theorem State.setPu_idxs (c : Nat) (f : PressUnit → PressUnit) : (s.setPu c f).idxs = s.idxs := rfl
@[simp] theorem State.setPu_press (c : Nat) (f : PressUnit → PressUnit) : (s.setPu c f).press = SMap.put default s.press c (f (s.pu c)) := rfl
@[simp] theorem State.setPu_pressOut (c : Nat) (f : PressUnit → PressUnit) : (s.setPu c f).pressOut = s.pressOut := rfl
@[simp] theorem State.setPu_toFree (c : Nat) (f : PressUnit → PressUnit) : (s.setPu c f).toFree = s.toFree := rfl
@[simp] theorem State.setPu_cellar (c : Nat) (f : PressUnit → PressUnit) : (s.setPu c f).cellar = s.cellar := rfl
@[simp] theorem State.setPu_pool (c : Nat) (f : PressUnit → PressUnit) : (s.setPu c f).pool = s.pool := rfl
@[simp] theorem State.setPu_parts (c : Nat) (f : PressUnit → PressUnit) : (s.setPu c f).parts = s.parts := rfl
@[simp] theorem State.setPu_prefetch (c : Nat) (f : PressUnit → PressUnit) : (s.setPu c f).prefetch = s.prefetch := rfl
@[simp] theorem State.setPu_episodes (c : Nat) (f : PressUnit → PressUnit) : (s.setPu c f).episodes = s.episodes := rfl
@[simp] theorem State.setPu_arrivals (c : Nat) (f : PressUnit → PressUnit) : (s.setPu c f).arrivals = s.arrivals := rfl
@[simp] theorem State.setPu_slow (c : Nat) (f : PressUnit → PressUnit) : (s.setPu c f).slow = s.slow := rfl
@[simp] theorem State.setPu_slowAt (c : Nat) (f : PressUnit → PressUnit) : (s.setPu c f).slowAt = s.slowAt := rfl
@[simp] theorem State.setPu_slowPer (c : Nat) (f : PressUnit → PressUnit) : (s.setPu c f).slowPer = s.slowPer := rfl
@[simp] theorem State.setPu_fab (c : Nat) (f : PressUnit → PressUnit) : (s.setPu c f).fab = s.fab := rfl
@[simp] theorem State.setPu_nl0 (c : Nat) (f : PressUnit → PressUnit) : (s.setPu c f).nl0 = s.nl0 := rfl
@[simp] theorem State.setPu_nl1 (c : Nat) (f : PressUnit → PressUnit) : (s.setPu c f).nl1 = s.nl1 := rfl
@[simp] theorem State.setPu_flt (c : Nat) (f : PressUnit → PressUnit) : (s.setPu c f).flt = s.flt := rfl
@[simp] theorem State.setPu_sec (c : Nat) (f : PressUnit → PressUnit) : (s.setPu c f).sec = s.sec := rfl
@[simp] theorem State.setPu_pwr (c : Nat) (f : PressUnit → PressUnit) : (s.setPu c f).pwr = s.pwr := rfl
@[simp] theorem State.setPu_pins (c : Nat) (f : PressUnit → PressUnit) : (s.setPu c f).pins = s.pins := rfl
@[simp] theorem State.setPu_intP (c : Nat) (f : PressUnit → PressUnit) : (s.setPu c f).intP = s.intP := rfl
@[simp] theorem State.setPu_free (c : Nat) (f : PressUnit → PressUnit) : (s.setPu c f).free = s.free := rfl

/-! setPart -/
@[simp] theorem State.setPart_pending (c : Nat) (f : PartSt → PartSt) : (s.setPart c f).pending = s.pending := rfl
@[simp] theorem State.setPart_regs (c : Nat) (f : PartSt → PartSt) : (s.setPart c f).regs = s.regs := rfl
@[simp] theorem State.setPart_mem (c : Nat) (f : PartSt → PartSt) : (s.setPart c f).mem = s.mem := rfl
@[simp] theorem State.setPart_ecc (c : Nat) (f : PartSt → PartSt) : (s.setPart c f).ecc = s.ecc := rfl
@[simp] theorem State.setPart_ctxs (c : Nat) (f : PartSt → PartSt) : (s.setPart c f).ctxs = s.ctxs := rfl
@[simp] theorem State.setPart_tlb (c : Nat) (f : PartSt → PartSt) : (s.setPart c f).tlb = s.tlb := rfl
@[simp] theorem State.setPart_jobs (c : Nat) (f : PartSt → PartSt) : (s.setPart c f).jobs = s.jobs := rfl
@[simp] theorem State.setPart_nextJob (c : Nat) (f : PartSt → PartSt) : (s.setPart c f).nextJob = s.nextJob := rfl
@[simp] theorem State.setPart_idxs (c : Nat) (f : PartSt → PartSt) : (s.setPart c f).idxs = s.idxs := rfl
@[simp] theorem State.setPart_press (c : Nat) (f : PartSt → PartSt) : (s.setPart c f).press = s.press := rfl
@[simp] theorem State.setPart_pressOut (c : Nat) (f : PartSt → PartSt) : (s.setPart c f).pressOut = s.pressOut := rfl
@[simp] theorem State.setPart_toFree (c : Nat) (f : PartSt → PartSt) : (s.setPart c f).toFree = s.toFree := rfl
@[simp] theorem State.setPart_cellar (c : Nat) (f : PartSt → PartSt) : (s.setPart c f).cellar = s.cellar := rfl
@[simp] theorem State.setPart_pool (c : Nat) (f : PartSt → PartSt) : (s.setPart c f).pool = s.pool := rfl
@[simp] theorem State.setPart_parts (c : Nat) (f : PartSt → PartSt) : (s.setPart c f).parts = SMap.put default s.parts c (f (s.part c)) := rfl
@[simp] theorem State.setPart_prefetch (c : Nat) (f : PartSt → PartSt) : (s.setPart c f).prefetch = s.prefetch := rfl
@[simp] theorem State.setPart_episodes (c : Nat) (f : PartSt → PartSt) : (s.setPart c f).episodes = s.episodes := rfl
@[simp] theorem State.setPart_arrivals (c : Nat) (f : PartSt → PartSt) : (s.setPart c f).arrivals = s.arrivals := rfl
@[simp] theorem State.setPart_slow (c : Nat) (f : PartSt → PartSt) : (s.setPart c f).slow = s.slow := rfl
@[simp] theorem State.setPart_slowAt (c : Nat) (f : PartSt → PartSt) : (s.setPart c f).slowAt = s.slowAt := rfl
@[simp] theorem State.setPart_slowPer (c : Nat) (f : PartSt → PartSt) : (s.setPart c f).slowPer = s.slowPer := rfl
@[simp] theorem State.setPart_fab (c : Nat) (f : PartSt → PartSt) : (s.setPart c f).fab = s.fab := rfl
@[simp] theorem State.setPart_nl0 (c : Nat) (f : PartSt → PartSt) : (s.setPart c f).nl0 = s.nl0 := rfl
@[simp] theorem State.setPart_nl1 (c : Nat) (f : PartSt → PartSt) : (s.setPart c f).nl1 = s.nl1 := rfl
@[simp] theorem State.setPart_flt (c : Nat) (f : PartSt → PartSt) : (s.setPart c f).flt = s.flt := rfl
@[simp] theorem State.setPart_sec (c : Nat) (f : PartSt → PartSt) : (s.setPart c f).sec = s.sec := rfl
@[simp] theorem State.setPart_pwr (c : Nat) (f : PartSt → PartSt) : (s.setPart c f).pwr = s.pwr := rfl
@[simp] theorem State.setPart_pins (c : Nat) (f : PartSt → PartSt) : (s.setPart c f).pins = s.pins := rfl
@[simp] theorem State.setPart_intP (c : Nat) (f : PartSt → PartSt) : (s.setPart c f).intP = s.intP := rfl
@[simp] theorem State.setPart_free (c : Nat) (f : PartSt → PartSt) : (s.setPart c f).free = s.free := rfl

/-! setJob -/
@[simp] theorem State.setJob_pending (c : Nat) (j : SearchJob) : (s.setJob c j).pending = s.pending := rfl
@[simp] theorem State.setJob_regs (c : Nat) (j : SearchJob) : (s.setJob c j).regs = s.regs := rfl
@[simp] theorem State.setJob_mem (c : Nat) (j : SearchJob) : (s.setJob c j).mem = s.mem := rfl
@[simp] theorem State.setJob_ecc (c : Nat) (j : SearchJob) : (s.setJob c j).ecc = s.ecc := rfl
@[simp] theorem State.setJob_ctxs (c : Nat) (j : SearchJob) : (s.setJob c j).ctxs = s.ctxs := rfl
@[simp] theorem State.setJob_tlb (c : Nat) (j : SearchJob) : (s.setJob c j).tlb = s.tlb := rfl
@[simp] theorem State.setJob_jobs (c : Nat) (j : SearchJob) : (s.setJob c j).jobs = SMap.ins s.jobs c j := rfl
@[simp] theorem State.setJob_nextJob (c : Nat) (j : SearchJob) : (s.setJob c j).nextJob = s.nextJob := rfl
@[simp] theorem State.setJob_idxs (c : Nat) (j : SearchJob) : (s.setJob c j).idxs = s.idxs := rfl
@[simp] theorem State.setJob_press (c : Nat) (j : SearchJob) : (s.setJob c j).press = s.press := rfl
@[simp] theorem State.setJob_pressOut (c : Nat) (j : SearchJob) : (s.setJob c j).pressOut = s.pressOut := rfl
@[simp] theorem State.setJob_toFree (c : Nat) (j : SearchJob) : (s.setJob c j).toFree = s.toFree := rfl
@[simp] theorem State.setJob_cellar (c : Nat) (j : SearchJob) : (s.setJob c j).cellar = s.cellar := rfl
@[simp] theorem State.setJob_pool (c : Nat) (j : SearchJob) : (s.setJob c j).pool = s.pool := rfl
@[simp] theorem State.setJob_parts (c : Nat) (j : SearchJob) : (s.setJob c j).parts = s.parts := rfl
@[simp] theorem State.setJob_prefetch (c : Nat) (j : SearchJob) : (s.setJob c j).prefetch = s.prefetch := rfl
@[simp] theorem State.setJob_episodes (c : Nat) (j : SearchJob) : (s.setJob c j).episodes = s.episodes := rfl
@[simp] theorem State.setJob_arrivals (c : Nat) (j : SearchJob) : (s.setJob c j).arrivals = s.arrivals := rfl
@[simp] theorem State.setJob_slow (c : Nat) (j : SearchJob) : (s.setJob c j).slow = s.slow := rfl
@[simp] theorem State.setJob_slowAt (c : Nat) (j : SearchJob) : (s.setJob c j).slowAt = s.slowAt := rfl
@[simp] theorem State.setJob_slowPer (c : Nat) (j : SearchJob) : (s.setJob c j).slowPer = s.slowPer := rfl
@[simp] theorem State.setJob_fab (c : Nat) (j : SearchJob) : (s.setJob c j).fab = s.fab := rfl
@[simp] theorem State.setJob_nl0 (c : Nat) (j : SearchJob) : (s.setJob c j).nl0 = s.nl0 := rfl
@[simp] theorem State.setJob_nl1 (c : Nat) (j : SearchJob) : (s.setJob c j).nl1 = s.nl1 := rfl
@[simp] theorem State.setJob_flt (c : Nat) (j : SearchJob) : (s.setJob c j).flt = s.flt := rfl
@[simp] theorem State.setJob_sec (c : Nat) (j : SearchJob) : (s.setJob c j).sec = s.sec := rfl
@[simp] theorem State.setJob_pwr (c : Nat) (j : SearchJob) : (s.setJob c j).pwr = s.pwr := rfl
@[simp] theorem State.setJob_pins (c : Nat) (j : SearchJob) : (s.setJob c j).pins = s.pins := rfl
@[simp] theorem State.setJob_intP (c : Nat) (j : SearchJob) : (s.setJob c j).intP = s.intP := rfl
@[simp] theorem State.setJob_free (c : Nat) (j : SearchJob) : (s.setJob c j).free = s.free := rfl

/-! dropJob -/
@[simp] theorem State.dropJob_pending (c : Nat) : (s.dropJob c).pending = s.pending := rfl
@[simp] theorem State.dropJob_regs (c : Nat) : (s.dropJob c).regs = s.regs := rfl
@[simp] theorem State.dropJob_mem (c : Nat) : (s.dropJob c).mem = s.mem := rfl
@[simp] theorem State.dropJob_ecc (c : Nat) : (s.dropJob c).ecc = s.ecc := rfl
@[simp] theorem State.dropJob_ctxs (c : Nat) : (s.dropJob c).ctxs = s.ctxs := rfl
@[simp] theorem State.dropJob_tlb (c : Nat) : (s.dropJob c).tlb = s.tlb := rfl
@[simp] theorem State.dropJob_jobs (c : Nat) : (s.dropJob c).jobs = SMap.del s.jobs c := rfl
@[simp] theorem State.dropJob_nextJob (c : Nat) : (s.dropJob c).nextJob = s.nextJob := rfl
@[simp] theorem State.dropJob_idxs (c : Nat) : (s.dropJob c).idxs = s.idxs := rfl
@[simp] theorem State.dropJob_press (c : Nat) : (s.dropJob c).press = s.press := rfl
@[simp] theorem State.dropJob_pressOut (c : Nat) : (s.dropJob c).pressOut = s.pressOut := rfl
@[simp] theorem State.dropJob_toFree (c : Nat) : (s.dropJob c).toFree = s.toFree := rfl
@[simp] theorem State.dropJob_cellar (c : Nat) : (s.dropJob c).cellar = s.cellar := rfl
@[simp] theorem State.dropJob_pool (c : Nat) : (s.dropJob c).pool = s.pool := rfl
@[simp] theorem State.dropJob_parts (c : Nat) : (s.dropJob c).parts = s.parts := rfl
@[simp] theorem State.dropJob_prefetch (c : Nat) : (s.dropJob c).prefetch = s.prefetch := rfl
@[simp] theorem State.dropJob_episodes (c : Nat) : (s.dropJob c).episodes = s.episodes := rfl
@[simp] theorem State.dropJob_arrivals (c : Nat) : (s.dropJob c).arrivals = s.arrivals := rfl
@[simp] theorem State.dropJob_slow (c : Nat) : (s.dropJob c).slow = s.slow := rfl
@[simp] theorem State.dropJob_slowAt (c : Nat) : (s.dropJob c).slowAt = s.slowAt := rfl
@[simp] theorem State.dropJob_slowPer (c : Nat) : (s.dropJob c).slowPer = s.slowPer := rfl
@[simp] theorem State.dropJob_fab (c : Nat) : (s.dropJob c).fab = s.fab := rfl
@[simp] theorem State.dropJob_nl0 (c : Nat) : (s.dropJob c).nl0 = s.nl0 := rfl
@[simp] theorem State.dropJob_nl1 (c : Nat) : (s.dropJob c).nl1 = s.nl1 := rfl
@[simp] theorem State.dropJob_flt (c : Nat) : (s.dropJob c).flt = s.flt := rfl
@[simp] theorem State.dropJob_sec (c : Nat) : (s.dropJob c).sec = s.sec := rfl
@[simp] theorem State.dropJob_pwr (c : Nat) : (s.dropJob c).pwr = s.pwr := rfl
@[simp] theorem State.dropJob_pins (c : Nat) : (s.dropJob c).pins = s.pins := rfl
@[simp] theorem State.dropJob_intP (c : Nat) : (s.dropJob c).intP = s.intP := rfl
@[simp] theorem State.dropJob_free (c : Nat) : (s.dropJob c).free = s.free := rfl

/-! setFab -/
@[simp] theorem State.setFab_pending (f : FabSt → FabSt) : (s.setFab f).pending = s.pending := rfl
@[simp] theorem State.setFab_regs (f : FabSt → FabSt) : (s.setFab f).regs = s.regs := rfl
@[simp] theorem State.setFab_mem (f : FabSt → FabSt) : (s.setFab f).mem = s.mem := rfl
@[simp] theorem State.setFab_ecc (f : FabSt → FabSt) : (s.setFab f).ecc = s.ecc := rfl
@[simp] theorem State.setFab_ctxs (f : FabSt → FabSt) : (s.setFab f).ctxs = s.ctxs := rfl
@[simp] theorem State.setFab_tlb (f : FabSt → FabSt) : (s.setFab f).tlb = s.tlb := rfl
@[simp] theorem State.setFab_jobs (f : FabSt → FabSt) : (s.setFab f).jobs = s.jobs := rfl
@[simp] theorem State.setFab_nextJob (f : FabSt → FabSt) : (s.setFab f).nextJob = s.nextJob := rfl
@[simp] theorem State.setFab_idxs (f : FabSt → FabSt) : (s.setFab f).idxs = s.idxs := rfl
@[simp] theorem State.setFab_press (f : FabSt → FabSt) : (s.setFab f).press = s.press := rfl
@[simp] theorem State.setFab_pressOut (f : FabSt → FabSt) : (s.setFab f).pressOut = s.pressOut := rfl
@[simp] theorem State.setFab_toFree (f : FabSt → FabSt) : (s.setFab f).toFree = s.toFree := rfl
@[simp] theorem State.setFab_cellar (f : FabSt → FabSt) : (s.setFab f).cellar = s.cellar := rfl
@[simp] theorem State.setFab_pool (f : FabSt → FabSt) : (s.setFab f).pool = s.pool := rfl
@[simp] theorem State.setFab_parts (f : FabSt → FabSt) : (s.setFab f).parts = s.parts := rfl
@[simp] theorem State.setFab_prefetch (f : FabSt → FabSt) : (s.setFab f).prefetch = s.prefetch := rfl
@[simp] theorem State.setFab_episodes (f : FabSt → FabSt) : (s.setFab f).episodes = s.episodes := rfl
@[simp] theorem State.setFab_arrivals (f : FabSt → FabSt) : (s.setFab f).arrivals = s.arrivals := rfl
@[simp] theorem State.setFab_slow (f : FabSt → FabSt) : (s.setFab f).slow = s.slow := rfl
@[simp] theorem State.setFab_slowAt (f : FabSt → FabSt) : (s.setFab f).slowAt = s.slowAt := rfl
@[simp] theorem State.setFab_slowPer (f : FabSt → FabSt) : (s.setFab f).slowPer = s.slowPer := rfl
@[simp] theorem State.setFab_fab (f : FabSt → FabSt) : (s.setFab f).fab = f s.fab := rfl
@[simp] theorem State.setFab_nl0 (f : FabSt → FabSt) : (s.setFab f).nl0 = s.nl0 := rfl
@[simp] theorem State.setFab_nl1 (f : FabSt → FabSt) : (s.setFab f).nl1 = s.nl1 := rfl
@[simp] theorem State.setFab_flt (f : FabSt → FabSt) : (s.setFab f).flt = s.flt := rfl
@[simp] theorem State.setFab_sec (f : FabSt → FabSt) : (s.setFab f).sec = s.sec := rfl
@[simp] theorem State.setFab_pwr (f : FabSt → FabSt) : (s.setFab f).pwr = s.pwr := rfl
@[simp] theorem State.setFab_pins (f : FabSt → FabSt) : (s.setFab f).pins = s.pins := rfl
@[simp] theorem State.setFab_intP (f : FabSt → FabSt) : (s.setFab f).intP = s.intP := rfl
@[simp] theorem State.setFab_free (f : FabSt → FabSt) : (s.setFab f).free = s.free := rfl

/-! setComp -/
@[simp] theorem State.setComp_pending (n : Nat) (f : CompSt → CompSt) : (s.setComp n f).pending = s.pending := rfl
@[simp] theorem State.setComp_regs (n : Nat) (f : CompSt → CompSt) : (s.setComp n f).regs = s.regs := rfl
@[simp] theorem State.setComp_mem (n : Nat) (f : CompSt → CompSt) : (s.setComp n f).mem = s.mem := rfl
@[simp] theorem State.setComp_ecc (n : Nat) (f : CompSt → CompSt) : (s.setComp n f).ecc = s.ecc := rfl
@[simp] theorem State.setComp_ctxs (n : Nat) (f : CompSt → CompSt) : (s.setComp n f).ctxs = s.ctxs := rfl
@[simp] theorem State.setComp_tlb (n : Nat) (f : CompSt → CompSt) : (s.setComp n f).tlb = s.tlb := rfl
@[simp] theorem State.setComp_jobs (n : Nat) (f : CompSt → CompSt) : (s.setComp n f).jobs = s.jobs := rfl
@[simp] theorem State.setComp_nextJob (n : Nat) (f : CompSt → CompSt) : (s.setComp n f).nextJob = s.nextJob := rfl
@[simp] theorem State.setComp_idxs (n : Nat) (f : CompSt → CompSt) : (s.setComp n f).idxs = s.idxs := rfl
@[simp] theorem State.setComp_press (n : Nat) (f : CompSt → CompSt) : (s.setComp n f).press = s.press := rfl
@[simp] theorem State.setComp_pressOut (n : Nat) (f : CompSt → CompSt) : (s.setComp n f).pressOut = s.pressOut := rfl
@[simp] theorem State.setComp_toFree (n : Nat) (f : CompSt → CompSt) : (s.setComp n f).toFree = s.toFree := rfl
@[simp] theorem State.setComp_cellar (n : Nat) (f : CompSt → CompSt) : (s.setComp n f).cellar = s.cellar := rfl
@[simp] theorem State.setComp_pool (n : Nat) (f : CompSt → CompSt) : (s.setComp n f).pool = s.pool := rfl
@[simp] theorem State.setComp_parts (n : Nat) (f : CompSt → CompSt) : (s.setComp n f).parts = s.parts := rfl
@[simp] theorem State.setComp_prefetch (n : Nat) (f : CompSt → CompSt) : (s.setComp n f).prefetch = s.prefetch := rfl
@[simp] theorem State.setComp_episodes (n : Nat) (f : CompSt → CompSt) : (s.setComp n f).episodes = s.episodes := rfl
@[simp] theorem State.setComp_arrivals (n : Nat) (f : CompSt → CompSt) : (s.setComp n f).arrivals = s.arrivals := rfl
@[simp] theorem State.setComp_slow (n : Nat) (f : CompSt → CompSt) : (s.setComp n f).slow = s.slow := rfl
@[simp] theorem State.setComp_slowAt (n : Nat) (f : CompSt → CompSt) : (s.setComp n f).slowAt = s.slowAt := rfl
@[simp] theorem State.setComp_slowPer (n : Nat) (f : CompSt → CompSt) : (s.setComp n f).slowPer = s.slowPer := rfl
@[simp] theorem State.setComp_nl0 (n : Nat) (f : CompSt → CompSt) : (s.setComp n f).nl0 = s.nl0 := rfl
@[simp] theorem State.setComp_nl1 (n : Nat) (f : CompSt → CompSt) : (s.setComp n f).nl1 = s.nl1 := rfl
@[simp] theorem State.setComp_flt (n : Nat) (f : CompSt → CompSt) : (s.setComp n f).flt = s.flt := rfl
@[simp] theorem State.setComp_sec (n : Nat) (f : CompSt → CompSt) : (s.setComp n f).sec = s.sec := rfl
@[simp] theorem State.setComp_pwr (n : Nat) (f : CompSt → CompSt) : (s.setComp n f).pwr = s.pwr := rfl
@[simp] theorem State.setComp_pins (n : Nat) (f : CompSt → CompSt) : (s.setComp n f).pins = s.pins := rfl
@[simp] theorem State.setComp_intP (n : Nat) (f : CompSt → CompSt) : (s.setComp n f).intP = s.intP := rfl
@[simp] theorem State.setComp_free (n : Nat) (f : CompSt → CompSt) : (s.setComp n f).free = s.free := rfl

/-! setCel -/
@[simp] theorem State.setCel_pending (f : CellarSt → CellarSt) : (s.setCel f).pending = s.pending := rfl
@[simp] theorem State.setCel_regs (f : CellarSt → CellarSt) : (s.setCel f).regs = s.regs := rfl
@[simp] theorem State.setCel_mem (f : CellarSt → CellarSt) : (s.setCel f).mem = s.mem := rfl
@[simp] theorem State.setCel_ecc (f : CellarSt → CellarSt) : (s.setCel f).ecc = s.ecc := rfl
@[simp] theorem State.setCel_ctxs (f : CellarSt → CellarSt) : (s.setCel f).ctxs = s.ctxs := rfl
@[simp] theorem State.setCel_tlb (f : CellarSt → CellarSt) : (s.setCel f).tlb = s.tlb := rfl
@[simp] theorem State.setCel_jobs (f : CellarSt → CellarSt) : (s.setCel f).jobs = s.jobs := rfl
@[simp] theorem State.setCel_nextJob (f : CellarSt → CellarSt) : (s.setCel f).nextJob = s.nextJob := rfl
@[simp] theorem State.setCel_idxs (f : CellarSt → CellarSt) : (s.setCel f).idxs = s.idxs := rfl
@[simp] theorem State.setCel_press (f : CellarSt → CellarSt) : (s.setCel f).press = s.press := rfl
@[simp] theorem State.setCel_pressOut (f : CellarSt → CellarSt) : (s.setCel f).pressOut = s.pressOut := rfl
@[simp] theorem State.setCel_toFree (f : CellarSt → CellarSt) : (s.setCel f).toFree = s.toFree := rfl
@[simp] theorem State.setCel_cellar (f : CellarSt → CellarSt) : (s.setCel f).cellar = f s.cellar := rfl
@[simp] theorem State.setCel_pool (f : CellarSt → CellarSt) : (s.setCel f).pool = s.pool := rfl
@[simp] theorem State.setCel_parts (f : CellarSt → CellarSt) : (s.setCel f).parts = s.parts := rfl
@[simp] theorem State.setCel_prefetch (f : CellarSt → CellarSt) : (s.setCel f).prefetch = s.prefetch := rfl
@[simp] theorem State.setCel_episodes (f : CellarSt → CellarSt) : (s.setCel f).episodes = s.episodes := rfl
@[simp] theorem State.setCel_arrivals (f : CellarSt → CellarSt) : (s.setCel f).arrivals = s.arrivals := rfl
@[simp] theorem State.setCel_slow (f : CellarSt → CellarSt) : (s.setCel f).slow = s.slow := rfl
@[simp] theorem State.setCel_slowAt (f : CellarSt → CellarSt) : (s.setCel f).slowAt = s.slowAt := rfl
@[simp] theorem State.setCel_slowPer (f : CellarSt → CellarSt) : (s.setCel f).slowPer = s.slowPer := rfl
@[simp] theorem State.setCel_fab (f : CellarSt → CellarSt) : (s.setCel f).fab = s.fab := rfl
@[simp] theorem State.setCel_nl0 (f : CellarSt → CellarSt) : (s.setCel f).nl0 = s.nl0 := rfl
@[simp] theorem State.setCel_nl1 (f : CellarSt → CellarSt) : (s.setCel f).nl1 = s.nl1 := rfl
@[simp] theorem State.setCel_flt (f : CellarSt → CellarSt) : (s.setCel f).flt = s.flt := rfl
@[simp] theorem State.setCel_sec (f : CellarSt → CellarSt) : (s.setCel f).sec = s.sec := rfl
@[simp] theorem State.setCel_pwr (f : CellarSt → CellarSt) : (s.setCel f).pwr = s.pwr := rfl
@[simp] theorem State.setCel_pins (f : CellarSt → CellarSt) : (s.setCel f).pins = s.pins := rfl
@[simp] theorem State.setCel_intP (f : CellarSt → CellarSt) : (s.setCel f).intP = s.intP := rfl
@[simp] theorem State.setCel_free (f : CellarSt → CellarSt) : (s.setCel f).free = s.free := rfl

/-! setPool -/
@[simp] theorem State.setPool_pending (f : PoolSt → PoolSt) : (s.setPool f).pending = s.pending := rfl
@[simp] theorem State.setPool_regs (f : PoolSt → PoolSt) : (s.setPool f).regs = s.regs := rfl
@[simp] theorem State.setPool_mem (f : PoolSt → PoolSt) : (s.setPool f).mem = s.mem := rfl
@[simp] theorem State.setPool_ecc (f : PoolSt → PoolSt) : (s.setPool f).ecc = s.ecc := rfl
@[simp] theorem State.setPool_ctxs (f : PoolSt → PoolSt) : (s.setPool f).ctxs = s.ctxs := rfl
@[simp] theorem State.setPool_tlb (f : PoolSt → PoolSt) : (s.setPool f).tlb = s.tlb := rfl
@[simp] theorem State.setPool_jobs (f : PoolSt → PoolSt) : (s.setPool f).jobs = s.jobs := rfl
@[simp] theorem State.setPool_nextJob (f : PoolSt → PoolSt) : (s.setPool f).nextJob = s.nextJob := rfl
@[simp] theorem State.setPool_idxs (f : PoolSt → PoolSt) : (s.setPool f).idxs = s.idxs := rfl
@[simp] theorem State.setPool_press (f : PoolSt → PoolSt) : (s.setPool f).press = s.press := rfl
@[simp] theorem State.setPool_pressOut (f : PoolSt → PoolSt) : (s.setPool f).pressOut = s.pressOut := rfl
@[simp] theorem State.setPool_toFree (f : PoolSt → PoolSt) : (s.setPool f).toFree = s.toFree := rfl
@[simp] theorem State.setPool_cellar (f : PoolSt → PoolSt) : (s.setPool f).cellar = s.cellar := rfl
@[simp] theorem State.setPool_pool (f : PoolSt → PoolSt) : (s.setPool f).pool = f s.pool := rfl
@[simp] theorem State.setPool_parts (f : PoolSt → PoolSt) : (s.setPool f).parts = s.parts := rfl
@[simp] theorem State.setPool_prefetch (f : PoolSt → PoolSt) : (s.setPool f).prefetch = s.prefetch := rfl
@[simp] theorem State.setPool_episodes (f : PoolSt → PoolSt) : (s.setPool f).episodes = s.episodes := rfl
@[simp] theorem State.setPool_arrivals (f : PoolSt → PoolSt) : (s.setPool f).arrivals = s.arrivals := rfl
@[simp] theorem State.setPool_slow (f : PoolSt → PoolSt) : (s.setPool f).slow = s.slow := rfl
@[simp] theorem State.setPool_slowAt (f : PoolSt → PoolSt) : (s.setPool f).slowAt = s.slowAt := rfl
@[simp] theorem State.setPool_slowPer (f : PoolSt → PoolSt) : (s.setPool f).slowPer = s.slowPer := rfl
@[simp] theorem State.setPool_fab (f : PoolSt → PoolSt) : (s.setPool f).fab = s.fab := rfl
@[simp] theorem State.setPool_nl0 (f : PoolSt → PoolSt) : (s.setPool f).nl0 = s.nl0 := rfl
@[simp] theorem State.setPool_nl1 (f : PoolSt → PoolSt) : (s.setPool f).nl1 = s.nl1 := rfl
@[simp] theorem State.setPool_flt (f : PoolSt → PoolSt) : (s.setPool f).flt = s.flt := rfl
@[simp] theorem State.setPool_sec (f : PoolSt → PoolSt) : (s.setPool f).sec = s.sec := rfl
@[simp] theorem State.setPool_pwr (f : PoolSt → PoolSt) : (s.setPool f).pwr = s.pwr := rfl
@[simp] theorem State.setPool_pins (f : PoolSt → PoolSt) : (s.setPool f).pins = s.pins := rfl
@[simp] theorem State.setPool_intP (f : PoolSt → PoolSt) : (s.setPool f).intP = s.intP := rfl
@[simp] theorem State.setPool_free (f : PoolSt → PoolSt) : (s.setPool f).free = s.free := rfl

/-! setFlt -/
@[simp] theorem State.setFlt_pending (f : FltSt → FltSt) : (s.setFlt f).pending = s.pending := rfl
@[simp] theorem State.setFlt_regs (f : FltSt → FltSt) : (s.setFlt f).regs = s.regs := rfl
@[simp] theorem State.setFlt_mem (f : FltSt → FltSt) : (s.setFlt f).mem = s.mem := rfl
@[simp] theorem State.setFlt_ecc (f : FltSt → FltSt) : (s.setFlt f).ecc = s.ecc := rfl
@[simp] theorem State.setFlt_ctxs (f : FltSt → FltSt) : (s.setFlt f).ctxs = s.ctxs := rfl
@[simp] theorem State.setFlt_tlb (f : FltSt → FltSt) : (s.setFlt f).tlb = s.tlb := rfl
@[simp] theorem State.setFlt_jobs (f : FltSt → FltSt) : (s.setFlt f).jobs = s.jobs := rfl
@[simp] theorem State.setFlt_nextJob (f : FltSt → FltSt) : (s.setFlt f).nextJob = s.nextJob := rfl
@[simp] theorem State.setFlt_idxs (f : FltSt → FltSt) : (s.setFlt f).idxs = s.idxs := rfl
@[simp] theorem State.setFlt_press (f : FltSt → FltSt) : (s.setFlt f).press = s.press := rfl
@[simp] theorem State.setFlt_pressOut (f : FltSt → FltSt) : (s.setFlt f).pressOut = s.pressOut := rfl
@[simp] theorem State.setFlt_toFree (f : FltSt → FltSt) : (s.setFlt f).toFree = s.toFree := rfl
@[simp] theorem State.setFlt_cellar (f : FltSt → FltSt) : (s.setFlt f).cellar = s.cellar := rfl
@[simp] theorem State.setFlt_pool (f : FltSt → FltSt) : (s.setFlt f).pool = s.pool := rfl
@[simp] theorem State.setFlt_parts (f : FltSt → FltSt) : (s.setFlt f).parts = s.parts := rfl
@[simp] theorem State.setFlt_prefetch (f : FltSt → FltSt) : (s.setFlt f).prefetch = s.prefetch := rfl
@[simp] theorem State.setFlt_episodes (f : FltSt → FltSt) : (s.setFlt f).episodes = s.episodes := rfl
@[simp] theorem State.setFlt_arrivals (f : FltSt → FltSt) : (s.setFlt f).arrivals = s.arrivals := rfl
@[simp] theorem State.setFlt_slow (f : FltSt → FltSt) : (s.setFlt f).slow = s.slow := rfl
@[simp] theorem State.setFlt_slowAt (f : FltSt → FltSt) : (s.setFlt f).slowAt = s.slowAt := rfl
@[simp] theorem State.setFlt_slowPer (f : FltSt → FltSt) : (s.setFlt f).slowPer = s.slowPer := rfl
@[simp] theorem State.setFlt_fab (f : FltSt → FltSt) : (s.setFlt f).fab = s.fab := rfl
@[simp] theorem State.setFlt_nl0 (f : FltSt → FltSt) : (s.setFlt f).nl0 = s.nl0 := rfl
@[simp] theorem State.setFlt_nl1 (f : FltSt → FltSt) : (s.setFlt f).nl1 = s.nl1 := rfl
@[simp] theorem State.setFlt_flt (f : FltSt → FltSt) : (s.setFlt f).flt = f s.flt := rfl
@[simp] theorem State.setFlt_sec (f : FltSt → FltSt) : (s.setFlt f).sec = s.sec := rfl
@[simp] theorem State.setFlt_pwr (f : FltSt → FltSt) : (s.setFlt f).pwr = s.pwr := rfl
@[simp] theorem State.setFlt_pins (f : FltSt → FltSt) : (s.setFlt f).pins = s.pins := rfl
@[simp] theorem State.setFlt_intP (f : FltSt → FltSt) : (s.setFlt f).intP = s.intP := rfl
@[simp] theorem State.setFlt_free (f : FltSt → FltSt) : (s.setFlt f).free = s.free := rfl

/-! setSec -/
@[simp] theorem State.setSec_pending (f : SecSt → SecSt) : (s.setSec f).pending = s.pending := rfl
@[simp] theorem State.setSec_regs (f : SecSt → SecSt) : (s.setSec f).regs = s.regs := rfl
@[simp] theorem State.setSec_mem (f : SecSt → SecSt) : (s.setSec f).mem = s.mem := rfl
@[simp] theorem State.setSec_ecc (f : SecSt → SecSt) : (s.setSec f).ecc = s.ecc := rfl
@[simp] theorem State.setSec_ctxs (f : SecSt → SecSt) : (s.setSec f).ctxs = s.ctxs := rfl
@[simp] theorem State.setSec_tlb (f : SecSt → SecSt) : (s.setSec f).tlb = s.tlb := rfl
@[simp] theorem State.setSec_jobs (f : SecSt → SecSt) : (s.setSec f).jobs = s.jobs := rfl
@[simp] theorem State.setSec_nextJob (f : SecSt → SecSt) : (s.setSec f).nextJob = s.nextJob := rfl
@[simp] theorem State.setSec_idxs (f : SecSt → SecSt) : (s.setSec f).idxs = s.idxs := rfl
@[simp] theorem State.setSec_press (f : SecSt → SecSt) : (s.setSec f).press = s.press := rfl
@[simp] theorem State.setSec_pressOut (f : SecSt → SecSt) : (s.setSec f).pressOut = s.pressOut := rfl
@[simp] theorem State.setSec_toFree (f : SecSt → SecSt) : (s.setSec f).toFree = s.toFree := rfl
@[simp] theorem State.setSec_cellar (f : SecSt → SecSt) : (s.setSec f).cellar = s.cellar := rfl
@[simp] theorem State.setSec_pool (f : SecSt → SecSt) : (s.setSec f).pool = s.pool := rfl
@[simp] theorem State.setSec_parts (f : SecSt → SecSt) : (s.setSec f).parts = s.parts := rfl
@[simp] theorem State.setSec_prefetch (f : SecSt → SecSt) : (s.setSec f).prefetch = s.prefetch := rfl
@[simp] theorem State.setSec_episodes (f : SecSt → SecSt) : (s.setSec f).episodes = s.episodes := rfl
@[simp] theorem State.setSec_arrivals (f : SecSt → SecSt) : (s.setSec f).arrivals = s.arrivals := rfl
@[simp] theorem State.setSec_slow (f : SecSt → SecSt) : (s.setSec f).slow = s.slow := rfl
@[simp] theorem State.setSec_slowAt (f : SecSt → SecSt) : (s.setSec f).slowAt = s.slowAt := rfl
@[simp] theorem State.setSec_slowPer (f : SecSt → SecSt) : (s.setSec f).slowPer = s.slowPer := rfl
@[simp] theorem State.setSec_fab (f : SecSt → SecSt) : (s.setSec f).fab = s.fab := rfl
@[simp] theorem State.setSec_nl0 (f : SecSt → SecSt) : (s.setSec f).nl0 = s.nl0 := rfl
@[simp] theorem State.setSec_nl1 (f : SecSt → SecSt) : (s.setSec f).nl1 = s.nl1 := rfl
@[simp] theorem State.setSec_flt (f : SecSt → SecSt) : (s.setSec f).flt = s.flt := rfl
@[simp] theorem State.setSec_sec (f : SecSt → SecSt) : (s.setSec f).sec = f s.sec := rfl
@[simp] theorem State.setSec_pwr (f : SecSt → SecSt) : (s.setSec f).pwr = s.pwr := rfl
@[simp] theorem State.setSec_pins (f : SecSt → SecSt) : (s.setSec f).pins = s.pins := rfl
@[simp] theorem State.setSec_intP (f : SecSt → SecSt) : (s.setSec f).intP = s.intP := rfl
@[simp] theorem State.setSec_free (f : SecSt → SecSt) : (s.setSec f).free = s.free := rfl

/-! setPwr -/
@[simp] theorem State.setPwr_pending (f : PwrSt → PwrSt) : (s.setPwr f).pending = s.pending := rfl
@[simp] theorem State.setPwr_regs (f : PwrSt → PwrSt) : (s.setPwr f).regs = s.regs := rfl
@[simp] theorem State.setPwr_mem (f : PwrSt → PwrSt) : (s.setPwr f).mem = s.mem := rfl
@[simp] theorem State.setPwr_ecc (f : PwrSt → PwrSt) : (s.setPwr f).ecc = s.ecc := rfl
@[simp] theorem State.setPwr_ctxs (f : PwrSt → PwrSt) : (s.setPwr f).ctxs = s.ctxs := rfl
@[simp] theorem State.setPwr_tlb (f : PwrSt → PwrSt) : (s.setPwr f).tlb = s.tlb := rfl
@[simp] theorem State.setPwr_jobs (f : PwrSt → PwrSt) : (s.setPwr f).jobs = s.jobs := rfl
@[simp] theorem State.setPwr_nextJob (f : PwrSt → PwrSt) : (s.setPwr f).nextJob = s.nextJob := rfl
@[simp] theorem State.setPwr_idxs (f : PwrSt → PwrSt) : (s.setPwr f).idxs = s.idxs := rfl
@[simp] theorem State.setPwr_press (f : PwrSt → PwrSt) : (s.setPwr f).press = s.press := rfl
@[simp] theorem State.setPwr_pressOut (f : PwrSt → PwrSt) : (s.setPwr f).pressOut = s.pressOut := rfl
@[simp] theorem State.setPwr_toFree (f : PwrSt → PwrSt) : (s.setPwr f).toFree = s.toFree := rfl
@[simp] theorem State.setPwr_cellar (f : PwrSt → PwrSt) : (s.setPwr f).cellar = s.cellar := rfl
@[simp] theorem State.setPwr_pool (f : PwrSt → PwrSt) : (s.setPwr f).pool = s.pool := rfl
@[simp] theorem State.setPwr_parts (f : PwrSt → PwrSt) : (s.setPwr f).parts = s.parts := rfl
@[simp] theorem State.setPwr_prefetch (f : PwrSt → PwrSt) : (s.setPwr f).prefetch = s.prefetch := rfl
@[simp] theorem State.setPwr_episodes (f : PwrSt → PwrSt) : (s.setPwr f).episodes = s.episodes := rfl
@[simp] theorem State.setPwr_arrivals (f : PwrSt → PwrSt) : (s.setPwr f).arrivals = s.arrivals := rfl
@[simp] theorem State.setPwr_slow (f : PwrSt → PwrSt) : (s.setPwr f).slow = s.slow := rfl
@[simp] theorem State.setPwr_slowAt (f : PwrSt → PwrSt) : (s.setPwr f).slowAt = s.slowAt := rfl
@[simp] theorem State.setPwr_slowPer (f : PwrSt → PwrSt) : (s.setPwr f).slowPer = s.slowPer := rfl
@[simp] theorem State.setPwr_fab (f : PwrSt → PwrSt) : (s.setPwr f).fab = s.fab := rfl
@[simp] theorem State.setPwr_nl0 (f : PwrSt → PwrSt) : (s.setPwr f).nl0 = s.nl0 := rfl
@[simp] theorem State.setPwr_nl1 (f : PwrSt → PwrSt) : (s.setPwr f).nl1 = s.nl1 := rfl
@[simp] theorem State.setPwr_flt (f : PwrSt → PwrSt) : (s.setPwr f).flt = s.flt := rfl
@[simp] theorem State.setPwr_sec (f : PwrSt → PwrSt) : (s.setPwr f).sec = s.sec := rfl
@[simp] theorem State.setPwr_pwr (f : PwrSt → PwrSt) : (s.setPwr f).pwr = f s.pwr := rfl
@[simp] theorem State.setPwr_pins (f : PwrSt → PwrSt) : (s.setPwr f).pins = s.pins := rfl
@[simp] theorem State.setPwr_intP (f : PwrSt → PwrSt) : (s.setPwr f).intP = s.intP := rfl
@[simp] theorem State.setPwr_free (f : PwrSt → PwrSt) : (s.setPwr f).free = s.free := rfl

/-! setPins -/
@[simp] theorem State.setPins_pending (f : Pins → Pins) : (s.setPins f).pending = s.pending := rfl
@[simp] theorem State.setPins_regs (f : Pins → Pins) : (s.setPins f).regs = s.regs := rfl
@[simp] theorem State.setPins_mem (f : Pins → Pins) : (s.setPins f).mem = s.mem := rfl
@[simp] theorem State.setPins_ecc (f : Pins → Pins) : (s.setPins f).ecc = s.ecc := rfl
@[simp] theorem State.setPins_ctxs (f : Pins → Pins) : (s.setPins f).ctxs = s.ctxs := rfl
@[simp] theorem State.setPins_tlb (f : Pins → Pins) : (s.setPins f).tlb = s.tlb := rfl
@[simp] theorem State.setPins_jobs (f : Pins → Pins) : (s.setPins f).jobs = s.jobs := rfl
@[simp] theorem State.setPins_nextJob (f : Pins → Pins) : (s.setPins f).nextJob = s.nextJob := rfl
@[simp] theorem State.setPins_idxs (f : Pins → Pins) : (s.setPins f).idxs = s.idxs := rfl
@[simp] theorem State.setPins_press (f : Pins → Pins) : (s.setPins f).press = s.press := rfl
@[simp] theorem State.setPins_pressOut (f : Pins → Pins) : (s.setPins f).pressOut = s.pressOut := rfl
@[simp] theorem State.setPins_toFree (f : Pins → Pins) : (s.setPins f).toFree = s.toFree := rfl
@[simp] theorem State.setPins_cellar (f : Pins → Pins) : (s.setPins f).cellar = s.cellar := rfl
@[simp] theorem State.setPins_pool (f : Pins → Pins) : (s.setPins f).pool = s.pool := rfl
@[simp] theorem State.setPins_parts (f : Pins → Pins) : (s.setPins f).parts = s.parts := rfl
@[simp] theorem State.setPins_prefetch (f : Pins → Pins) : (s.setPins f).prefetch = s.prefetch := rfl
@[simp] theorem State.setPins_episodes (f : Pins → Pins) : (s.setPins f).episodes = s.episodes := rfl
@[simp] theorem State.setPins_arrivals (f : Pins → Pins) : (s.setPins f).arrivals = s.arrivals := rfl
@[simp] theorem State.setPins_slow (f : Pins → Pins) : (s.setPins f).slow = s.slow := rfl
@[simp] theorem State.setPins_slowAt (f : Pins → Pins) : (s.setPins f).slowAt = s.slowAt := rfl
@[simp] theorem State.setPins_slowPer (f : Pins → Pins) : (s.setPins f).slowPer = s.slowPer := rfl
@[simp] theorem State.setPins_fab (f : Pins → Pins) : (s.setPins f).fab = s.fab := rfl
@[simp] theorem State.setPins_nl0 (f : Pins → Pins) : (s.setPins f).nl0 = s.nl0 := rfl
@[simp] theorem State.setPins_nl1 (f : Pins → Pins) : (s.setPins f).nl1 = s.nl1 := rfl
@[simp] theorem State.setPins_flt (f : Pins → Pins) : (s.setPins f).flt = s.flt := rfl
@[simp] theorem State.setPins_sec (f : Pins → Pins) : (s.setPins f).sec = s.sec := rfl
@[simp] theorem State.setPins_pwr (f : Pins → Pins) : (s.setPins f).pwr = s.pwr := rfl
@[simp] theorem State.setPins_pins (f : Pins → Pins) : (s.setPins f).pins = f s.pins := rfl
@[simp] theorem State.setPins_intP (f : Pins → Pins) : (s.setPins f).intP = s.intP := rfl
@[simp] theorem State.setPins_free (f : Pins → Pins) : (s.setPins f).free = s.free := rfl

/-! withPending -/
@[simp] theorem State.withPending_pending (l : List Instr) : (s.withPending l).pending = l := rfl
@[simp] theorem State.withPending_regs (l : List Instr) : (s.withPending l).regs = s.regs := rfl
@[simp] theorem State.withPending_mem (l : List Instr) : (s.withPending l).mem = s.mem := rfl
@[simp] theorem State.withPending_ecc (l : List Instr) : (s.withPending l).ecc = s.ecc := rfl
@[simp] theorem State.withPending_ctxs (l : List Instr) : (s.withPending l).ctxs = s.ctxs := rfl
@[simp] theorem State.withPending_tlb (l : List Instr) : (s.withPending l).tlb = s.tlb := rfl
@[simp] theorem State.withPending_jobs (l : List Instr) : (s.withPending l).jobs = s.jobs := rfl
@[simp] theorem State.withPending_nextJob (l : List Instr) : (s.withPending l).nextJob = s.nextJob := rfl
@[simp] theorem State.withPending_idxs (l : List Instr) : (s.withPending l).idxs = s.idxs := rfl
@[simp] theorem State.withPending_press (l : List Instr) : (s.withPending l).press = s.press := rfl
@[simp] theorem State.withPending_pressOut (l : List Instr) : (s.withPending l).pressOut = s.pressOut := rfl
@[simp] theorem State.withPending_toFree (l : List Instr) : (s.withPending l).toFree = s.toFree := rfl
@[simp] theorem State.withPending_cellar (l : List Instr) : (s.withPending l).cellar = s.cellar := rfl
@[simp] theorem State.withPending_pool (l : List Instr) : (s.withPending l).pool = s.pool := rfl
@[simp] theorem State.withPending_parts (l : List Instr) : (s.withPending l).parts = s.parts := rfl
@[simp] theorem State.withPending_prefetch (l : List Instr) : (s.withPending l).prefetch = s.prefetch := rfl
@[simp] theorem State.withPending_episodes (l : List Instr) : (s.withPending l).episodes = s.episodes := rfl
@[simp] theorem State.withPending_arrivals (l : List Instr) : (s.withPending l).arrivals = s.arrivals := rfl
@[simp] theorem State.withPending_slow (l : List Instr) : (s.withPending l).slow = s.slow := rfl
@[simp] theorem State.withPending_slowAt (l : List Instr) : (s.withPending l).slowAt = s.slowAt := rfl
@[simp] theorem State.withPending_slowPer (l : List Instr) : (s.withPending l).slowPer = s.slowPer := rfl
@[simp] theorem State.withPending_fab (l : List Instr) : (s.withPending l).fab = s.fab := rfl
@[simp] theorem State.withPending_nl0 (l : List Instr) : (s.withPending l).nl0 = s.nl0 := rfl
@[simp] theorem State.withPending_nl1 (l : List Instr) : (s.withPending l).nl1 = s.nl1 := rfl
@[simp] theorem State.withPending_flt (l : List Instr) : (s.withPending l).flt = s.flt := rfl
@[simp] theorem State.withPending_sec (l : List Instr) : (s.withPending l).sec = s.sec := rfl
@[simp] theorem State.withPending_pwr (l : List Instr) : (s.withPending l).pwr = s.pwr := rfl
@[simp] theorem State.withPending_pins (l : List Instr) : (s.withPending l).pins = s.pins := rfl
@[simp] theorem State.withPending_intP (l : List Instr) : (s.withPending l).intP = s.intP := rfl
@[simp] theorem State.withPending_free (l : List Instr) : (s.withPending l).free = s.free := rfl

/-! setNl -/
@[simp] theorem State.setNl_pending (p : Nat) (f : NlPort → NlPort) : (s.setNl p f).pending = s.pending := by unfold State.setNl; split <;> rfl
@[simp] theorem State.setNl_regs (p : Nat) (f : NlPort → NlPort) : (s.setNl p f).regs = s.regs := by unfold State.setNl; split <;> rfl
@[simp] theorem State.setNl_mem (p : Nat) (f : NlPort → NlPort) : (s.setNl p f).mem = s.mem := by unfold State.setNl; split <;> rfl
@[simp] theorem State.setNl_ecc (p : Nat) (f : NlPort → NlPort) : (s.setNl p f).ecc = s.ecc := by unfold State.setNl; split <;> rfl
@[simp] theorem State.setNl_ctxs (p : Nat) (f : NlPort → NlPort) : (s.setNl p f).ctxs = s.ctxs := by unfold State.setNl; split <;> rfl
@[simp] theorem State.setNl_tlb (p : Nat) (f : NlPort → NlPort) : (s.setNl p f).tlb = s.tlb := by unfold State.setNl; split <;> rfl
@[simp] theorem State.setNl_jobs (p : Nat) (f : NlPort → NlPort) : (s.setNl p f).jobs = s.jobs := by unfold State.setNl; split <;> rfl
@[simp] theorem State.setNl_nextJob (p : Nat) (f : NlPort → NlPort) : (s.setNl p f).nextJob = s.nextJob := by unfold State.setNl; split <;> rfl
@[simp] theorem State.setNl_idxs (p : Nat) (f : NlPort → NlPort) : (s.setNl p f).idxs = s.idxs := by unfold State.setNl; split <;> rfl
@[simp] theorem State.setNl_press (p : Nat) (f : NlPort → NlPort) : (s.setNl p f).press = s.press := by unfold State.setNl; split <;> rfl
@[simp] theorem State.setNl_pressOut (p : Nat) (f : NlPort → NlPort) : (s.setNl p f).pressOut = s.pressOut := by unfold State.setNl; split <;> rfl
@[simp] theorem State.setNl_toFree (p : Nat) (f : NlPort → NlPort) : (s.setNl p f).toFree = s.toFree := by unfold State.setNl; split <;> rfl
@[simp] theorem State.setNl_cellar (p : Nat) (f : NlPort → NlPort) : (s.setNl p f).cellar = s.cellar := by unfold State.setNl; split <;> rfl
@[simp] theorem State.setNl_pool (p : Nat) (f : NlPort → NlPort) : (s.setNl p f).pool = s.pool := by unfold State.setNl; split <;> rfl
@[simp] theorem State.setNl_parts (p : Nat) (f : NlPort → NlPort) : (s.setNl p f).parts = s.parts := by unfold State.setNl; split <;> rfl
@[simp] theorem State.setNl_prefetch (p : Nat) (f : NlPort → NlPort) : (s.setNl p f).prefetch = s.prefetch := by unfold State.setNl; split <;> rfl
@[simp] theorem State.setNl_episodes (p : Nat) (f : NlPort → NlPort) : (s.setNl p f).episodes = s.episodes := by unfold State.setNl; split <;> rfl
@[simp] theorem State.setNl_arrivals (p : Nat) (f : NlPort → NlPort) : (s.setNl p f).arrivals = s.arrivals := by unfold State.setNl; split <;> rfl
@[simp] theorem State.setNl_slow (p : Nat) (f : NlPort → NlPort) : (s.setNl p f).slow = s.slow := by unfold State.setNl; split <;> rfl
@[simp] theorem State.setNl_slowAt (p : Nat) (f : NlPort → NlPort) : (s.setNl p f).slowAt = s.slowAt := by unfold State.setNl; split <;> rfl
@[simp] theorem State.setNl_slowPer (p : Nat) (f : NlPort → NlPort) : (s.setNl p f).slowPer = s.slowPer := by unfold State.setNl; split <;> rfl
@[simp] theorem State.setNl_fab (p : Nat) (f : NlPort → NlPort) : (s.setNl p f).fab = s.fab := by unfold State.setNl; split <;> rfl
@[simp] theorem State.setNl_flt (p : Nat) (f : NlPort → NlPort) : (s.setNl p f).flt = s.flt := by unfold State.setNl; split <;> rfl
@[simp] theorem State.setNl_sec (p : Nat) (f : NlPort → NlPort) : (s.setNl p f).sec = s.sec := by unfold State.setNl; split <;> rfl
@[simp] theorem State.setNl_pwr (p : Nat) (f : NlPort → NlPort) : (s.setNl p f).pwr = s.pwr := by unfold State.setNl; split <;> rfl
@[simp] theorem State.setNl_pins (p : Nat) (f : NlPort → NlPort) : (s.setNl p f).pins = s.pins := by unfold State.setNl; split <;> rfl
@[simp] theorem State.setNl_intP (p : Nat) (f : NlPort → NlPort) : (s.setNl p f).intP = s.intP := by unfold State.setNl; split <;> rfl
@[simp] theorem State.setNl_free (p : Nat) (f : NlPort → NlPort) : (s.setNl p f).free = s.free := by unfold State.setNl; split <;> rfl

/-! setFs -/
theorem State.setFs_cons (i : Nat) (x : Fld) (v : Nat) (l : List (Fld × Nat)) : s.setFs i ((x, v) :: l) = (s.setF x i v).setFs i l := rfl
@[simp] theorem State.setFs_nil (i : Nat) : s.setFs i [] = s := rfl

/-- Setting fields of a register changes the registers alone. -/
theorem State.setFs_frame (i : Nat) (l : List (Fld × Nat)) : s.setFs i l = { s with regs := (s.setFs i l).regs } := by
  induction l generalizing s with
  | nil => rfl
  | cons x r ih =>
    obtain ⟨x, v⟩ := x
    rw [State.setFs_cons, ih]
    rfl

@[simp] theorem State.setFs_pending (i : Nat) (l : List (Fld × Nat)) : (s.setFs i l).pending = s.pending := by rw [State.setFs_frame]
@[simp] theorem State.setFs_mem (i : Nat) (l : List (Fld × Nat)) : (s.setFs i l).mem = s.mem := by rw [State.setFs_frame]
@[simp] theorem State.setFs_ecc (i : Nat) (l : List (Fld × Nat)) : (s.setFs i l).ecc = s.ecc := by rw [State.setFs_frame]
@[simp] theorem State.setFs_ctxs (i : Nat) (l : List (Fld × Nat)) : (s.setFs i l).ctxs = s.ctxs := by rw [State.setFs_frame]
@[simp] theorem State.setFs_tlb (i : Nat) (l : List (Fld × Nat)) : (s.setFs i l).tlb = s.tlb := by rw [State.setFs_frame]
@[simp] theorem State.setFs_jobs (i : Nat) (l : List (Fld × Nat)) : (s.setFs i l).jobs = s.jobs := by rw [State.setFs_frame]
@[simp] theorem State.setFs_nextJob (i : Nat) (l : List (Fld × Nat)) : (s.setFs i l).nextJob = s.nextJob := by rw [State.setFs_frame]
@[simp] theorem State.setFs_idxs (i : Nat) (l : List (Fld × Nat)) : (s.setFs i l).idxs = s.idxs := by rw [State.setFs_frame]
@[simp] theorem State.setFs_press (i : Nat) (l : List (Fld × Nat)) : (s.setFs i l).press = s.press := by rw [State.setFs_frame]
@[simp] theorem State.setFs_pressOut (i : Nat) (l : List (Fld × Nat)) : (s.setFs i l).pressOut = s.pressOut := by rw [State.setFs_frame]
@[simp] theorem State.setFs_toFree (i : Nat) (l : List (Fld × Nat)) : (s.setFs i l).toFree = s.toFree := by rw [State.setFs_frame]
@[simp] theorem State.setFs_cellar (i : Nat) (l : List (Fld × Nat)) : (s.setFs i l).cellar = s.cellar := by rw [State.setFs_frame]
@[simp] theorem State.setFs_pool (i : Nat) (l : List (Fld × Nat)) : (s.setFs i l).pool = s.pool := by rw [State.setFs_frame]
@[simp] theorem State.setFs_parts (i : Nat) (l : List (Fld × Nat)) : (s.setFs i l).parts = s.parts := by rw [State.setFs_frame]
@[simp] theorem State.setFs_prefetch (i : Nat) (l : List (Fld × Nat)) : (s.setFs i l).prefetch = s.prefetch := by rw [State.setFs_frame]
@[simp] theorem State.setFs_episodes (i : Nat) (l : List (Fld × Nat)) : (s.setFs i l).episodes = s.episodes := by rw [State.setFs_frame]
@[simp] theorem State.setFs_arrivals (i : Nat) (l : List (Fld × Nat)) : (s.setFs i l).arrivals = s.arrivals := by rw [State.setFs_frame]
@[simp] theorem State.setFs_slow (i : Nat) (l : List (Fld × Nat)) : (s.setFs i l).slow = s.slow := by rw [State.setFs_frame]
@[simp] theorem State.setFs_slowAt (i : Nat) (l : List (Fld × Nat)) : (s.setFs i l).slowAt = s.slowAt := by rw [State.setFs_frame]
@[simp] theorem State.setFs_slowPer (i : Nat) (l : List (Fld × Nat)) : (s.setFs i l).slowPer = s.slowPer := by rw [State.setFs_frame]
@[simp] theorem State.setFs_fab (i : Nat) (l : List (Fld × Nat)) : (s.setFs i l).fab = s.fab := by rw [State.setFs_frame]
@[simp] theorem State.setFs_nl0 (i : Nat) (l : List (Fld × Nat)) : (s.setFs i l).nl0 = s.nl0 := by rw [State.setFs_frame]
@[simp] theorem State.setFs_nl1 (i : Nat) (l : List (Fld × Nat)) : (s.setFs i l).nl1 = s.nl1 := by rw [State.setFs_frame]
@[simp] theorem State.setFs_flt (i : Nat) (l : List (Fld × Nat)) : (s.setFs i l).flt = s.flt := by rw [State.setFs_frame]
@[simp] theorem State.setFs_sec (i : Nat) (l : List (Fld × Nat)) : (s.setFs i l).sec = s.sec := by rw [State.setFs_frame]
@[simp] theorem State.setFs_pwr (i : Nat) (l : List (Fld × Nat)) : (s.setFs i l).pwr = s.pwr := by rw [State.setFs_frame]
@[simp] theorem State.setFs_pins (i : Nat) (l : List (Fld × Nat)) : (s.setFs i l).pins = s.pins := by rw [State.setFs_frame]
@[simp] theorem State.setFs_intP (i : Nat) (l : List (Fld × Nat)) : (s.setFs i l).intP = s.intP := by rw [State.setFs_frame]
@[simp] theorem State.setFs_free (i : Nat) (l : List (Fld × Nat)) : (s.setFs i l).free = s.free := by rw [State.setFs_frame]

/-! Parts kept by number: a part reads what it was given, every other part reads as before -/
@[simp] theorem State.setCtx_ctx_self (c : Nat) (f : CtxSt → CtxSt) : (s.setCtx c f).ctx c = f (s.ctx c) := SMap.get_put_self _ _ _ _
theorem State.setCtx_ctx_of_ne {c c' : Nat} (f : CtxSt → CtxSt) (h : c' ≠ c) : (s.setCtx c f).ctx c' = s.ctx c' := SMap.get_put_of_ne _ _ _ h
@[simp] theorem State.setIdx_idx_self (c : Nat) (f : IdxSt → IdxSt) : (s.setIdx c f).idx c = f (s.idx c) := SMap.get_put_self _ _ _ _
theorem State.setIdx_idx_of_ne {c c' : Nat} (f : IdxSt → IdxSt) (h : c' ≠ c) : (s.setIdx c f).idx c' = s.idx c' := SMap.get_put_of_ne _ _ _ h
@[simp] theorem State.setPu_pu_self (c : Nat) (f : PressUnit → PressUnit) : (s.setPu c f).pu c = f (s.pu c) := SMap.get_put_self _ _ _ _
theorem State.setPu_pu_of_ne {c c' : Nat} (f : PressUnit → PressUnit) (h : c' ≠ c) : (s.setPu c f).pu c' = s.pu c' := SMap.get_put_of_ne _ _ _ h
@[simp] theorem State.setPart_part_self (c : Nat) (f : PartSt → PartSt) : (s.setPart c f).part c = f (s.part c) := SMap.get_put_self _ _ _ _
theorem State.setPart_part_of_ne {c c' : Nat} (f : PartSt → PartSt) (h : c' ≠ c) : (s.setPart c f).part c' = s.part c' := SMap.get_put_of_ne _ _ _ h
@[simp] theorem State.setComp_comp_self (n : Nat) (f : CompSt → CompSt) : (s.setComp n f).comp n = f (s.comp n) := SMap.get_put_self _ _ _ _
theorem State.setComp_comp_of_ne {n n' : Nat} (f : CompSt → CompSt) (h : n' ≠ n) : (s.setComp n f).comp n' = s.comp n' := SMap.get_put_of_ne _ _ _ h
@[simp] theorem State.setJob_job_self (n : Nat) (j : SearchJob) : (s.setJob n j).job n = some j := SMap.find_ins_self _ _ _
@[simp] theorem State.dropJob_job_self (n : Nat) : (s.dropJob n).job n = none := SMap.find_del_self _ _

end Sys2Proof.Machine
end

