-- ==== Sys2Proof/Laws/Registers.lean ====
section
/-! SUPPORT. Laws of registers and their fields: addresses of different registers differ (R531), a register reads what it was
given and every other register reads as before. -/
namespace Sys2Proof.Machine

/-! Addresses (R531) -/

/-- Every register of the list starts at or after a bound, and after the end of the one before it. -/
def Reg.ordered : Nat → List Reg → Bool
  | _, [] => true
  | n, r :: l => decide (n ≤ r.place.1) && Reg.ordered (r.place.1 + 8 * r.place.2) l

theorem Reg.all_ordered : Reg.ordered 0 Reg.all = true := by decide +kernel

theorem Reg.mem_all (r : Reg) : r ∈ Reg.all := by cases r <;> decide

theorem Reg.ordered_le {n : Nat} {l : List Reg} (h : Reg.ordered n l = true) {r : Reg} (m : r ∈ l) : n ≤ r.place.1 := by
  induction l generalizing n with
  | nil => cases m
  | cons x l ih =>
    simp only [Reg.ordered, Bool.and_eq_true, decide_eq_true_eq] at h
    rcases List.mem_cons.1 m with e | m
    · subst e; exact h.1
    · have := ih h.2 m; omega

/-- Two listed registers are the same, or one ends before the other begins. -/
theorem Reg.apart_of_ordered {n : Nat} {l : List Reg} (h : Reg.ordered n l = true) {r q : Reg} (m : r ∈ l) (k : q ∈ l) :
    r = q ∨ r.place.1 + 8 * r.place.2 ≤ q.place.1 ∨ q.place.1 + 8 * q.place.2 ≤ r.place.1 := by
  induction l generalizing n with
  | nil => cases m
  | cons x l ih =>
    simp only [Reg.ordered, Bool.and_eq_true, decide_eq_true_eq] at h
    rcases List.mem_cons.1 m with e | m' <;> rcases List.mem_cons.1 k with f | k'
    · exact .inl (e.trans f.symm)
    · subst e; exact .inr (.inl (Reg.ordered_le h.2 k'))
    · subst f; exact .inr (.inr (Reg.ordered_le h.2 m'))
    · exact ih h.2 m' k'

theorem Reg.apart (r q : Reg) : r = q ∨ r.place.1 + 8 * r.place.2 ≤ q.place.1 ∨ q.place.1 + 8 * q.place.2 ≤ r.place.1 :=
  Reg.apart_of_ordered Reg.all_ordered (Reg.mem_all r) (Reg.mem_all q)

/-- An address belongs to one register and one instance. -/
theorem Reg.addr_inj {r q : Reg} {i j : Nat} (hi : i < r.count) (hj : j < q.count) (h : r.addr i = q.addr j) : r = q ∧ i = j := by
  unfold Reg.addr at h
  unfold Reg.count at hi hj
  rcases Reg.apart r q with e | e | e
  · subst e; exact ⟨rfl, by omega⟩
  · omega
  · omega

theorem Reg.place_mod (r : Reg) : r.place.1 % 8 = 0 := by cases r <;> rfl

theorem Reg.place_end (r : Reg) : r.place.1 + 8 * r.place.2 ≤ 2 ^ 26 := by cases r <;> decide

/-- The register at an address of R531. -/
@[simp] theorem Reg.find_addr (r : Reg) (i : Nat) (h : i < r.count) : Reg.find (r.addr i) = some (r, i) := by
  unfold Reg.count at h
  unfold Reg.find Reg.addr
  have f : (Reg.all.find? fun q => decide (q.place.1 ≤ r.place.1 + 8 * i) && decide (r.place.1 + 8 * i < q.place.1 + 8 * q.place.2))
      = some r := by
    cases e : (Reg.all.find? fun q => decide (q.place.1 ≤ r.place.1 + 8 * i) && decide (r.place.1 + 8 * i < q.place.1 + 8 * q.place.2)) with
    | none =>
      have := List.find?_eq_none.1 e r (Reg.mem_all r)
      simp at this
      omega
    | some q =>
      have p := List.find?_some e
      simp only [Bool.and_eq_true, decide_eq_true_eq] at p
      rcases Reg.apart r q with a | a | a
      · rw [a]
      · omega
      · omega
  rw [f]
  have m := Reg.place_mod r
  simp only
  rw [if_pos (by omega)]
  simp only [Option.some.injEq, Prod.mk.injEq, true_and]
  omega

/-! Values -/

theorem Reg.resetVal_lt (r : Reg) (i : Nat) : r.resetVal i < 2 ^ 64 := by
  cases r <;> first
    | (simp only [Reg.resetVal, Reg.fields]; decide)
    | (simp only [Reg.resetVal, Reg.fields]; split <;> decide)

/-- A register reads the value just given to it. -/
@[simp] theorem State.reg_setReg_self (s : State) (r : Reg) (i v : Nat) : (s.setReg r i v).reg r i = v % 2 ^ 64 := by
  unfold State.reg
  rw [State.setReg_regs, SMap.find_put, if_pos rfl]
  split
  · next h =>
    split at h
    · cases h
    · cases h; simp
  · next h =>
    split at h
    · next e =>
      have := congrArg BitVec.toNat e
      simp only [BitVec.toNat_ofNat] at this
      rw [this, Nat.mod_eq_of_lt (Reg.resetVal_lt r i)]
    · cases h

/-- Every register at another address reads as before. -/
theorem State.reg_setReg_of_ne (s : State) {r q : Reg} {i j : Nat} (v : Nat) (h : q.addr j ≠ r.addr i) :
    (s.setReg r i v).reg q j = s.reg q j := by
  unfold State.reg
  rw [State.setReg_regs, SMap.find_put, if_neg h]

/-- Every other register of R531 reads as before. -/
theorem State.reg_setReg_of_other (s : State) {r q : Reg} {i j : Nat} (v : Nat) (hi : i < r.count) (hj : j < q.count)
    (h : q ≠ r ∨ j ≠ i) : (s.setReg r i v).reg q j = s.reg q j := by
  apply State.reg_setReg_of_ne
  intro e
  obtain ⟨a, b⟩ := Reg.addr_inj hj hi e
  rcases h with h | h
  · exact h a
  · exact h b

theorem State.reg_lt (s : State) (r : Reg) (i : Nat) : s.reg r i < 2 ^ 64 := by
  unfold State.reg
  split
  · exact BitVec.isLt _
  · exact Reg.resetVal_lt r i

/-! Fields -/

/-- A field reads the value just given to it, as far as it fits. -/
theorem State.f_setF_self (s : State) (x : Fld) (i v : Nat) (h : x.lo ≤ x.hi) (h' : x.hi < 64) :
    (s.setF x i v).f x i = v % 2 ^ (x.hi + 1 - x.lo) := by
  unfold State.f State.setF
  rw [State.reg_setReg_self, Nat.mod_eq_of_lt (setBits_lt _ _ _ _ _ h h' (State.reg_lt s _ _)), bits_setBits _ _ _ _ h]

/-- A field of another register reads as before. -/
theorem State.f_setF_of_ne (s : State) {x y : Fld} {i j : Nat} (v : Nat) (h : y.reg.addr j ≠ x.reg.addr i) :
    (s.setF x i v).f y j = s.f y j := by
  unfold State.f State.setF
  rw [State.reg_setReg_of_ne s _ h]

/-- A field beside the one that is set reads as before. -/
theorem State.f_setF_beside (s : State) {x y : Fld} {i : Nat} (v : Nat) (e : y.reg = x.reg) (h : x.lo ≤ x.hi) (h' : x.hi < 64)
    (d : y.hi < x.lo ∨ x.hi < y.lo) : (s.setF x i v).f y i = s.f y i := by
  unfold State.f State.setF
  rw [e, State.reg_setReg_self, Nat.mod_eq_of_lt (setBits_lt _ _ _ _ _ h h' (State.reg_lt s _ _)),
    bits_setBits_of_disjoint _ _ _ _ _ _ h d]

theorem State.reg_setF_of_ne (s : State) {x : Fld} {q : Reg} {i j : Nat} (v : Nat) (h : q.addr j ≠ x.reg.addr i) :
    (s.setF x i v).reg q j = s.reg q j := State.reg_setReg_of_ne s _ h

theorem State.reg_addF_of_ne (s : State) {x : Fld} {q : Reg} {i j : Nat} (v : Nat) (h : q.addr j ≠ x.reg.addr i) :
    (s.addF x i v).reg q j = s.reg q j := State.reg_setReg_of_ne s _ h

theorem State.reg_setFs_of_ne (s : State) (q : Reg) (i j : Nat) (l : List (Fld × Nat))
    (h : ∀ x ∈ l, q.addr j ≠ x.1.reg.addr i) : (s.setFs i l).reg q j = s.reg q j := by
  induction l generalizing s with
  | nil => rfl
  | cons x r ih =>
    obtain ⟨x, v⟩ := x
    rw [State.setFs_cons, ih _ fun y m => h y (List.mem_cons_of_mem _ m), State.reg_setF_of_ne _ _ (h (x, v) List.mem_cons_self)]

/-- A count that is raised. -/
theorem State.f_addF_self (s : State) (x : Fld) (i n : Nat) (h : x.lo ≤ x.hi) (h' : x.hi < 64) :
    (s.addF x i n).f x i = satAdd (x.hi + 1 - x.lo) (s.f x i) n := by
  unfold State.addF
  rw [State.f_setF_self _ _ _ _ h h']
  apply Nat.mod_eq_of_lt
  have := Nat.two_pow_pos (x.hi + 1 - x.lo)
  unfold satAdd
  omega

/-! Registers where another part of the state changes -/

theorem State.reg_of_regs {a b : State} (h : a.regs = b.regs) (r : Reg) (i : Nat) : a.reg r i = b.reg r i := by
  unfold State.reg
  rw [h]

theorem State.f_of_regs {a b : State} (h : a.regs = b.regs) (x : Fld) (i : Nat) : a.f x i = b.f x i := by
  unfold State.f
  rw [State.reg_of_regs h]

theorem Reg.addr_ne {r q : Reg} {i j : Nat} (h : r ≠ q) (hi : i < r.count) (hj : j < q.count) : r.addr i ≠ q.addr j :=
  fun e => h (Reg.addr_inj hi hj e).1

@[simp] theorem State.setSyn_reg (s : State) (c : Nat) (x : Syn) (r : Reg) (k : Nat) : (s.setSyn c x).reg r k = s.reg r k := State.reg_of_regs (s.setSyn_regs c x) r k
@[simp] theorem State.setSyn_f (s : State) (c : Nat) (y : Syn) (x : Fld) (k : Nat) : (s.setSyn c y).f x k = s.f x k := State.f_of_regs (s.setSyn_regs c y) x k
@[simp] theorem State.setCtx_reg (s : State) (c : Nat) (f : CtxSt → CtxSt) (r : Reg) (k : Nat) : (s.setCtx c f).reg r k = s.reg r k := State.reg_of_regs (s.setCtx_regs c f) r k
@[simp] theorem State.setCtx_f (s : State) (c : Nat) (f : CtxSt → CtxSt) (x : Fld) (k : Nat) : (s.setCtx c f).f x k = s.f x k := State.f_of_regs (s.setCtx_regs c f) x k
@[simp] theorem State.setIdx_reg (s : State) (c : Nat) (f : IdxSt → IdxSt) (r : Reg) (k : Nat) : (s.setIdx c f).reg r k = s.reg r k := State.reg_of_regs (s.setIdx_regs c f) r k
@[simp] theorem State.setIdx_f (s : State) (c : Nat) (f : IdxSt → IdxSt) (x : Fld) (k : Nat) : (s.setIdx c f).f x k = s.f x k := State.f_of_regs (s.setIdx_regs c f) x k
@[simp] theorem State.setPu_reg (s : State) (c : Nat) (f : PressUnit → PressUnit) (r : Reg) (k : Nat) : (s.setPu c f).reg r k = s.reg r k := State.reg_of_regs (s.setPu_regs c f) r k
@[simp] theorem State.setPu_f (s : State) (c : Nat) (f : PressUnit → PressUnit) (x : Fld) (k : Nat) : (s.setPu c f).f x k = s.f x k := State.f_of_regs (s.setPu_regs c f) x k
@[simp] theorem State.setPart_reg (s : State) (c : Nat) (f : PartSt → PartSt) (r : Reg) (k : Nat) : (s.setPart c f).reg r k = s.reg r k := State.reg_of_regs (s.setPart_regs c f) r k
@[simp] theorem State.setPart_f (s : State) (c : Nat) (f : PartSt → PartSt) (x : Fld) (k : Nat) : (s.setPart c f).f x k = s.f x k := State.f_of_regs (s.setPart_regs c f) x k
@[simp] theorem State.setJob_reg (s : State) (c : Nat) (j : SearchJob) (r : Reg) (k : Nat) : (s.setJob c j).reg r k = s.reg r k := State.reg_of_regs (s.setJob_regs c j) r k
@[simp] theorem State.setJob_f (s : State) (c : Nat) (j : SearchJob) (x : Fld) (k : Nat) : (s.setJob c j).f x k = s.f x k := State.f_of_regs (s.setJob_regs c j) x k
@[simp] theorem State.dropJob_reg (s : State) (c : Nat) (r : Reg) (k : Nat) : (s.dropJob c).reg r k = s.reg r k := State.reg_of_regs (s.dropJob_regs c) r k
@[simp] theorem State.dropJob_f (s : State) (c : Nat) (x : Fld) (k : Nat) : (s.dropJob c).f x k = s.f x k := State.f_of_regs (s.dropJob_regs c) x k
@[simp] theorem State.setFab_reg (s : State) (f : FabSt → FabSt) (r : Reg) (k : Nat) : (s.setFab f).reg r k = s.reg r k := State.reg_of_regs (s.setFab_regs f) r k
@[simp] theorem State.setFab_f (s : State) (f : FabSt → FabSt) (x : Fld) (k : Nat) : (s.setFab f).f x k = s.f x k := State.f_of_regs (s.setFab_regs f) x k
@[simp] theorem State.setComp_reg (s : State) (n : Nat) (f : CompSt → CompSt) (r : Reg) (k : Nat) : (s.setComp n f).reg r k = s.reg r k := State.reg_of_regs (s.setComp_regs n f) r k
@[simp] theorem State.setComp_f (s : State) (n : Nat) (f : CompSt → CompSt) (x : Fld) (k : Nat) : (s.setComp n f).f x k = s.f x k := State.f_of_regs (s.setComp_regs n f) x k
@[simp] theorem State.setCel_reg (s : State) (f : CellarSt → CellarSt) (r : Reg) (k : Nat) : (s.setCel f).reg r k = s.reg r k := State.reg_of_regs (s.setCel_regs f) r k
@[simp] theorem State.setCel_f (s : State) (f : CellarSt → CellarSt) (x : Fld) (k : Nat) : (s.setCel f).f x k = s.f x k := State.f_of_regs (s.setCel_regs f) x k
@[simp] theorem State.setPool_reg (s : State) (f : PoolSt → PoolSt) (r : Reg) (k : Nat) : (s.setPool f).reg r k = s.reg r k := State.reg_of_regs (s.setPool_regs f) r k
@[simp] theorem State.setPool_f (s : State) (f : PoolSt → PoolSt) (x : Fld) (k : Nat) : (s.setPool f).f x k = s.f x k := State.f_of_regs (s.setPool_regs f) x k
@[simp] theorem State.setFlt_reg (s : State) (f : FltSt → FltSt) (r : Reg) (k : Nat) : (s.setFlt f).reg r k = s.reg r k := State.reg_of_regs (s.setFlt_regs f) r k
@[simp] theorem State.setFlt_f (s : State) (f : FltSt → FltSt) (x : Fld) (k : Nat) : (s.setFlt f).f x k = s.f x k := State.f_of_regs (s.setFlt_regs f) x k
@[simp] theorem State.setSec_reg (s : State) (f : SecSt → SecSt) (r : Reg) (k : Nat) : (s.setSec f).reg r k = s.reg r k := State.reg_of_regs (s.setSec_regs f) r k
@[simp] theorem State.setSec_f (s : State) (f : SecSt → SecSt) (x : Fld) (k : Nat) : (s.setSec f).f x k = s.f x k := State.f_of_regs (s.setSec_regs f) x k
@[simp] theorem State.setPwr_reg (s : State) (f : PwrSt → PwrSt) (r : Reg) (k : Nat) : (s.setPwr f).reg r k = s.reg r k := State.reg_of_regs (s.setPwr_regs f) r k
@[simp] theorem State.setPwr_f (s : State) (f : PwrSt → PwrSt) (x : Fld) (k : Nat) : (s.setPwr f).f x k = s.f x k := State.f_of_regs (s.setPwr_regs f) x k
@[simp] theorem State.setPins_reg (s : State) (f : Pins → Pins) (r : Reg) (k : Nat) : (s.setPins f).reg r k = s.reg r k := State.reg_of_regs (s.setPins_regs f) r k
@[simp] theorem State.setPins_f (s : State) (f : Pins → Pins) (x : Fld) (k : Nat) : (s.setPins f).f x k = s.f x k := State.f_of_regs (s.setPins_regs f) x k
@[simp] theorem State.withPending_reg (s : State) (l : List Instr) (r : Reg) (k : Nat) : (s.withPending l).reg r k = s.reg r k := State.reg_of_regs (s.withPending_regs l) r k
@[simp] theorem State.withPending_f (s : State) (l : List Instr) (x : Fld) (k : Nat) : (s.withPending l).f x k = s.f x k := State.f_of_regs (s.withPending_regs l) x k
@[simp] theorem State.setNl_reg (s : State) (p : Nat) (f : NlPort → NlPort) (r : Reg) (k : Nat) : (s.setNl p f).reg r k = s.reg r k := State.reg_of_regs (s.setNl_regs p f) r k
@[simp] theorem State.setNl_f (s : State) (p : Nat) (f : NlPort → NlPort) (x : Fld) (k : Nat) : (s.setNl p f).f x k = s.f x k := State.f_of_regs (s.setNl_regs p f) x k

end Sys2Proof.Machine
end

