-- ==== Sys2Proof/Laws/Commands.lean ====
section
/-! SUPPORT. What every command has in common: what the end of a command adds to its effect (R525, R526), that the queue stays, and
that nothing happens while the node's clocks are stopped. -/
namespace Sys2Proof.Machine

variable (s t : State)

/-! Interrupts change the Nahel ports alone; the end of a command changes TOP_INT_STAT, those ports and what is remembered of P -/

@[simp] theorem State.sendPacket_pending (p : Nat) (k : TxPacket) : (s.sendPacket p k).pending = s.pending := by
  unfold State.sendPacket; simp only; split <;> [simp; (split <;> simp)]
@[simp] theorem State.raiseIntr_pending (p v : Nat) : (s.raiseIntr p v).pending = s.pending := by
  unfold State.raiseIntr; simp only; split <;> [simp; (split <;> [simp; (split <;> simp)])]
@[simp] theorem State.devIntrPort_pending (p : Nat) : (s.devIntrPort p).pending = s.pending := by unfold State.devIntrPort; split <;> simp
@[simp] theorem State.devIntr_pending : s.devIntr.pending = s.pending := by rw [State.devIntr, State.devIntrPort_pending, State.devIntrPort_pending]
@[simp] theorem State.tellP_pending : s.tellP.pending = s.pending := by unfold State.tellP; split <;> simp
@[simp] theorem State.setIntP_pending (b : Bool) : (s.setIntP b).pending = s.pending := rfl
@[simp] theorem State.queueOf_pending : (t.queueOf s).pending = s.pending := rfl
@[simp] theorem State.follow_pending : s.follow.pending = s.pending := by rw [State.follow, State.setFs_pending]
@[simp] theorem State.settle_pending : s.settle.pending = s.pending := by
  rw [State.settle, State.setIntP_pending, State.tellP_pending, State.follow_pending]
@[simp] theorem State.sendPacket_regs (p : Nat) (k : TxPacket) : (s.sendPacket p k).regs = s.regs := by
  unfold State.sendPacket; simp only; split <;> [simp; (split <;> simp)]
@[simp] theorem State.raiseIntr_regs (p v : Nat) : (s.raiseIntr p v).regs = s.regs := by
  unfold State.raiseIntr; simp only; split <;> [simp; (split <;> [simp; (split <;> simp)])]
@[simp] theorem State.devIntrPort_regs (p : Nat) : (s.devIntrPort p).regs = s.regs := by unfold State.devIntrPort; split <;> simp
@[simp] theorem State.devIntr_regs : s.devIntr.regs = s.regs := by rw [State.devIntr, State.devIntrPort_regs, State.devIntrPort_regs]
@[simp] theorem State.tellP_regs : s.tellP.regs = s.regs := by unfold State.tellP; split <;> simp
@[simp] theorem State.setIntP_regs (b : Bool) : (s.setIntP b).regs = s.regs := rfl
@[simp] theorem State.queueOf_regs : (t.queueOf s).regs = t.regs := rfl
theorem State.settle_regs : s.settle.regs = s.follow.regs := by rw [State.settle, State.setIntP_regs, State.tellP_regs]
@[simp] theorem State.sendPacket_mem (p : Nat) (k : TxPacket) : (s.sendPacket p k).mem = s.mem := by
  unfold State.sendPacket; simp only; split <;> [simp; (split <;> simp)]
@[simp] theorem State.raiseIntr_mem (p v : Nat) : (s.raiseIntr p v).mem = s.mem := by
  unfold State.raiseIntr; simp only; split <;> [simp; (split <;> [simp; (split <;> simp)])]
@[simp] theorem State.devIntrPort_mem (p : Nat) : (s.devIntrPort p).mem = s.mem := by unfold State.devIntrPort; split <;> simp
@[simp] theorem State.devIntr_mem : s.devIntr.mem = s.mem := by rw [State.devIntr, State.devIntrPort_mem, State.devIntrPort_mem]
@[simp] theorem State.tellP_mem : s.tellP.mem = s.mem := by unfold State.tellP; split <;> simp
@[simp] theorem State.setIntP_mem (b : Bool) : (s.setIntP b).mem = s.mem := rfl
@[simp] theorem State.queueOf_mem : (t.queueOf s).mem = t.mem := rfl
@[simp] theorem State.follow_mem : s.follow.mem = s.mem := by rw [State.follow, State.setFs_mem]
@[simp] theorem State.settle_mem : s.settle.mem = s.mem := by
  rw [State.settle, State.setIntP_mem, State.tellP_mem, State.follow_mem]
@[simp] theorem State.sendPacket_ecc (p : Nat) (k : TxPacket) : (s.sendPacket p k).ecc = s.ecc := by
  unfold State.sendPacket; simp only; split <;> [simp; (split <;> simp)]
@[simp] theorem State.raiseIntr_ecc (p v : Nat) : (s.raiseIntr p v).ecc = s.ecc := by
  unfold State.raiseIntr; simp only; split <;> [simp; (split <;> [simp; (split <;> simp)])]
@[simp] theorem State.devIntrPort_ecc (p : Nat) : (s.devIntrPort p).ecc = s.ecc := by unfold State.devIntrPort; split <;> simp
@[simp] theorem State.devIntr_ecc : s.devIntr.ecc = s.ecc := by rw [State.devIntr, State.devIntrPort_ecc, State.devIntrPort_ecc]
@[simp] theorem State.tellP_ecc : s.tellP.ecc = s.ecc := by unfold State.tellP; split <;> simp
@[simp] theorem State.setIntP_ecc (b : Bool) : (s.setIntP b).ecc = s.ecc := rfl
@[simp] theorem State.queueOf_ecc : (t.queueOf s).ecc = t.ecc := rfl
@[simp] theorem State.follow_ecc : s.follow.ecc = s.ecc := by rw [State.follow, State.setFs_ecc]
@[simp] theorem State.settle_ecc : s.settle.ecc = s.ecc := by
  rw [State.settle, State.setIntP_ecc, State.tellP_ecc, State.follow_ecc]
@[simp] theorem State.sendPacket_ctxs (p : Nat) (k : TxPacket) : (s.sendPacket p k).ctxs = s.ctxs := by
  unfold State.sendPacket; simp only; split <;> [simp; (split <;> simp)]
@[simp] theorem State.raiseIntr_ctxs (p v : Nat) : (s.raiseIntr p v).ctxs = s.ctxs := by
  unfold State.raiseIntr; simp only; split <;> [simp; (split <;> [simp; (split <;> simp)])]
@[simp] theorem State.devIntrPort_ctxs (p : Nat) : (s.devIntrPort p).ctxs = s.ctxs := by unfold State.devIntrPort; split <;> simp
@[simp] theorem State.devIntr_ctxs : s.devIntr.ctxs = s.ctxs := by rw [State.devIntr, State.devIntrPort_ctxs, State.devIntrPort_ctxs]
@[simp] theorem State.tellP_ctxs : s.tellP.ctxs = s.ctxs := by unfold State.tellP; split <;> simp
@[simp] theorem State.setIntP_ctxs (b : Bool) : (s.setIntP b).ctxs = s.ctxs := rfl
@[simp] theorem State.queueOf_ctxs : (t.queueOf s).ctxs = t.ctxs := rfl
@[simp] theorem State.follow_ctxs : s.follow.ctxs = s.ctxs := by rw [State.follow, State.setFs_ctxs]
@[simp] theorem State.settle_ctxs : s.settle.ctxs = s.ctxs := by
  rw [State.settle, State.setIntP_ctxs, State.tellP_ctxs, State.follow_ctxs]
@[simp] theorem State.sendPacket_tlb (p : Nat) (k : TxPacket) : (s.sendPacket p k).tlb = s.tlb := by
  unfold State.sendPacket; simp only; split <;> [simp; (split <;> simp)]
@[simp] theorem State.raiseIntr_tlb (p v : Nat) : (s.raiseIntr p v).tlb = s.tlb := by
  unfold State.raiseIntr; simp only; split <;> [simp; (split <;> [simp; (split <;> simp)])]
@[simp] theorem State.devIntrPort_tlb (p : Nat) : (s.devIntrPort p).tlb = s.tlb := by unfold State.devIntrPort; split <;> simp
@[simp] theorem State.devIntr_tlb : s.devIntr.tlb = s.tlb := by rw [State.devIntr, State.devIntrPort_tlb, State.devIntrPort_tlb]
@[simp] theorem State.tellP_tlb : s.tellP.tlb = s.tlb := by unfold State.tellP; split <;> simp
@[simp] theorem State.setIntP_tlb (b : Bool) : (s.setIntP b).tlb = s.tlb := rfl
@[simp] theorem State.queueOf_tlb : (t.queueOf s).tlb = t.tlb := rfl
@[simp] theorem State.follow_tlb : s.follow.tlb = s.tlb := by rw [State.follow, State.setFs_tlb]
@[simp] theorem State.settle_tlb : s.settle.tlb = s.tlb := by
  rw [State.settle, State.setIntP_tlb, State.tellP_tlb, State.follow_tlb]
@[simp] theorem State.sendPacket_jobs (p : Nat) (k : TxPacket) : (s.sendPacket p k).jobs = s.jobs := by
  unfold State.sendPacket; simp only; split <;> [simp; (split <;> simp)]
@[simp] theorem State.raiseIntr_jobs (p v : Nat) : (s.raiseIntr p v).jobs = s.jobs := by
  unfold State.raiseIntr; simp only; split <;> [simp; (split <;> [simp; (split <;> simp)])]
@[simp] theorem State.devIntrPort_jobs (p : Nat) : (s.devIntrPort p).jobs = s.jobs := by unfold State.devIntrPort; split <;> simp
@[simp] theorem State.devIntr_jobs : s.devIntr.jobs = s.jobs := by rw [State.devIntr, State.devIntrPort_jobs, State.devIntrPort_jobs]
@[simp] theorem State.tellP_jobs : s.tellP.jobs = s.jobs := by unfold State.tellP; split <;> simp
@[simp] theorem State.setIntP_jobs (b : Bool) : (s.setIntP b).jobs = s.jobs := rfl
@[simp] theorem State.queueOf_jobs : (t.queueOf s).jobs = t.jobs := rfl
@[simp] theorem State.follow_jobs : s.follow.jobs = s.jobs := by rw [State.follow, State.setFs_jobs]
@[simp] theorem State.settle_jobs : s.settle.jobs = s.jobs := by
  rw [State.settle, State.setIntP_jobs, State.tellP_jobs, State.follow_jobs]
@[simp] theorem State.sendPacket_nextJob (p : Nat) (k : TxPacket) : (s.sendPacket p k).nextJob = s.nextJob := by
  unfold State.sendPacket; simp only; split <;> [simp; (split <;> simp)]
@[simp] theorem State.raiseIntr_nextJob (p v : Nat) : (s.raiseIntr p v).nextJob = s.nextJob := by
  unfold State.raiseIntr; simp only; split <;> [simp; (split <;> [simp; (split <;> simp)])]
@[simp] theorem State.devIntrPort_nextJob (p : Nat) : (s.devIntrPort p).nextJob = s.nextJob := by unfold State.devIntrPort; split <;> simp
@[simp] theorem State.devIntr_nextJob : s.devIntr.nextJob = s.nextJob := by rw [State.devIntr, State.devIntrPort_nextJob, State.devIntrPort_nextJob]
@[simp] theorem State.tellP_nextJob : s.tellP.nextJob = s.nextJob := by unfold State.tellP; split <;> simp
@[simp] theorem State.setIntP_nextJob (b : Bool) : (s.setIntP b).nextJob = s.nextJob := rfl
@[simp] theorem State.queueOf_nextJob : (t.queueOf s).nextJob = t.nextJob := rfl
@[simp] theorem State.follow_nextJob : s.follow.nextJob = s.nextJob := by rw [State.follow, State.setFs_nextJob]
@[simp] theorem State.settle_nextJob : s.settle.nextJob = s.nextJob := by
  rw [State.settle, State.setIntP_nextJob, State.tellP_nextJob, State.follow_nextJob]
@[simp] theorem State.sendPacket_idxs (p : Nat) (k : TxPacket) : (s.sendPacket p k).idxs = s.idxs := by
  unfold State.sendPacket; simp only; split <;> [simp; (split <;> simp)]
@[simp] theorem State.raiseIntr_idxs (p v : Nat) : (s.raiseIntr p v).idxs = s.idxs := by
  unfold State.raiseIntr; simp only; split <;> [simp; (split <;> [simp; (split <;> simp)])]
@[simp] theorem State.devIntrPort_idxs (p : Nat) : (s.devIntrPort p).idxs = s.idxs := by unfold State.devIntrPort; split <;> simp
@[simp] theorem State.devIntr_idxs : s.devIntr.idxs = s.idxs := by rw [State.devIntr, State.devIntrPort_idxs, State.devIntrPort_idxs]
@[simp] theorem State.tellP_idxs : s.tellP.idxs = s.idxs := by unfold State.tellP; split <;> simp
@[simp] theorem State.setIntP_idxs (b : Bool) : (s.setIntP b).idxs = s.idxs := rfl
@[simp] theorem State.queueOf_idxs : (t.queueOf s).idxs = t.idxs := rfl
@[simp] theorem State.follow_idxs : s.follow.idxs = s.idxs := by rw [State.follow, State.setFs_idxs]
@[simp] theorem State.settle_idxs : s.settle.idxs = s.idxs := by
  rw [State.settle, State.setIntP_idxs, State.tellP_idxs, State.follow_idxs]
@[simp] theorem State.sendPacket_press (p : Nat) (k : TxPacket) : (s.sendPacket p k).press = s.press := by
  unfold State.sendPacket; simp only; split <;> [simp; (split <;> simp)]
@[simp] theorem State.raiseIntr_press (p v : Nat) : (s.raiseIntr p v).press = s.press := by
  unfold State.raiseIntr; simp only; split <;> [simp; (split <;> [simp; (split <;> simp)])]
@[simp] theorem State.devIntrPort_press (p : Nat) : (s.devIntrPort p).press = s.press := by unfold State.devIntrPort; split <;> simp
@[simp] theorem State.devIntr_press : s.devIntr.press = s.press := by rw [State.devIntr, State.devIntrPort_press, State.devIntrPort_press]
@[simp] theorem State.tellP_press : s.tellP.press = s.press := by unfold State.tellP; split <;> simp
@[simp] theorem State.setIntP_press (b : Bool) : (s.setIntP b).press = s.press := rfl
@[simp] theorem State.queueOf_press : (t.queueOf s).press = t.press := rfl
@[simp] theorem State.follow_press : s.follow.press = s.press := by rw [State.follow, State.setFs_press]
@[simp] theorem State.settle_press : s.settle.press = s.press := by
  rw [State.settle, State.setIntP_press, State.tellP_press, State.follow_press]
@[simp] theorem State.sendPacket_pressOut (p : Nat) (k : TxPacket) : (s.sendPacket p k).pressOut = s.pressOut := by
  unfold State.sendPacket; simp only; split <;> [simp; (split <;> simp)]
@[simp] theorem State.raiseIntr_pressOut (p v : Nat) : (s.raiseIntr p v).pressOut = s.pressOut := by
  unfold State.raiseIntr; simp only; split <;> [simp; (split <;> [simp; (split <;> simp)])]
@[simp] theorem State.devIntrPort_pressOut (p : Nat) : (s.devIntrPort p).pressOut = s.pressOut := by unfold State.devIntrPort; split <;> simp
@[simp] theorem State.devIntr_pressOut : s.devIntr.pressOut = s.pressOut := by rw [State.devIntr, State.devIntrPort_pressOut, State.devIntrPort_pressOut]
@[simp] theorem State.tellP_pressOut : s.tellP.pressOut = s.pressOut := by unfold State.tellP; split <;> simp
@[simp] theorem State.setIntP_pressOut (b : Bool) : (s.setIntP b).pressOut = s.pressOut := rfl
@[simp] theorem State.queueOf_pressOut : (t.queueOf s).pressOut = t.pressOut := rfl
@[simp] theorem State.follow_pressOut : s.follow.pressOut = s.pressOut := by rw [State.follow, State.setFs_pressOut]
@[simp] theorem State.settle_pressOut : s.settle.pressOut = s.pressOut := by
  rw [State.settle, State.setIntP_pressOut, State.tellP_pressOut, State.follow_pressOut]
@[simp] theorem State.sendPacket_toFree (p : Nat) (k : TxPacket) : (s.sendPacket p k).toFree = s.toFree := by
  unfold State.sendPacket; simp only; split <;> [simp; (split <;> simp)]
@[simp] theorem State.raiseIntr_toFree (p v : Nat) : (s.raiseIntr p v).toFree = s.toFree := by
  unfold State.raiseIntr; simp only; split <;> [simp; (split <;> [simp; (split <;> simp)])]
@[simp] theorem State.devIntrPort_toFree (p : Nat) : (s.devIntrPort p).toFree = s.toFree := by unfold State.devIntrPort; split <;> simp
@[simp] theorem State.devIntr_toFree : s.devIntr.toFree = s.toFree := by rw [State.devIntr, State.devIntrPort_toFree, State.devIntrPort_toFree]
@[simp] theorem State.tellP_toFree : s.tellP.toFree = s.toFree := by unfold State.tellP; split <;> simp
@[simp] theorem State.setIntP_toFree (b : Bool) : (s.setIntP b).toFree = s.toFree := rfl
@[simp] theorem State.queueOf_toFree : (t.queueOf s).toFree = t.toFree := rfl
@[simp] theorem State.follow_toFree : s.follow.toFree = s.toFree := by rw [State.follow, State.setFs_toFree]
@[simp] theorem State.settle_toFree : s.settle.toFree = s.toFree := by
  rw [State.settle, State.setIntP_toFree, State.tellP_toFree, State.follow_toFree]
@[simp] theorem State.sendPacket_cellar (p : Nat) (k : TxPacket) : (s.sendPacket p k).cellar = s.cellar := by
  unfold State.sendPacket; simp only; split <;> [simp; (split <;> simp)]
@[simp] theorem State.raiseIntr_cellar (p v : Nat) : (s.raiseIntr p v).cellar = s.cellar := by
  unfold State.raiseIntr; simp only; split <;> [simp; (split <;> [simp; (split <;> simp)])]
@[simp] theorem State.devIntrPort_cellar (p : Nat) : (s.devIntrPort p).cellar = s.cellar := by unfold State.devIntrPort; split <;> simp
@[simp] theorem State.devIntr_cellar : s.devIntr.cellar = s.cellar := by rw [State.devIntr, State.devIntrPort_cellar, State.devIntrPort_cellar]
@[simp] theorem State.tellP_cellar : s.tellP.cellar = s.cellar := by unfold State.tellP; split <;> simp
@[simp] theorem State.setIntP_cellar (b : Bool) : (s.setIntP b).cellar = s.cellar := rfl
@[simp] theorem State.queueOf_cellar : (t.queueOf s).cellar = t.cellar := rfl
@[simp] theorem State.follow_cellar : s.follow.cellar = s.cellar := by rw [State.follow, State.setFs_cellar]
@[simp] theorem State.settle_cellar : s.settle.cellar = s.cellar := by
  rw [State.settle, State.setIntP_cellar, State.tellP_cellar, State.follow_cellar]
@[simp] theorem State.sendPacket_pool (p : Nat) (k : TxPacket) : (s.sendPacket p k).pool = s.pool := by
  unfold State.sendPacket; simp only; split <;> [simp; (split <;> simp)]
@[simp] theorem State.raiseIntr_pool (p v : Nat) : (s.raiseIntr p v).pool = s.pool := by
  unfold State.raiseIntr; simp only; split <;> [simp; (split <;> [simp; (split <;> simp)])]
@[simp] theorem State.devIntrPort_pool (p : Nat) : (s.devIntrPort p).pool = s.pool := by unfold State.devIntrPort; split <;> simp
@[simp] theorem State.devIntr_pool : s.devIntr.pool = s.pool := by rw [State.devIntr, State.devIntrPort_pool, State.devIntrPort_pool]
@[simp] theorem State.tellP_pool : s.tellP.pool = s.pool := by unfold State.tellP; split <;> simp
@[simp] theorem State.setIntP_pool (b : Bool) : (s.setIntP b).pool = s.pool := rfl
@[simp] theorem State.queueOf_pool : (t.queueOf s).pool = { t.pool with needs := [] } := rfl
@[simp] theorem State.follow_pool : s.follow.pool = s.pool := by rw [State.follow, State.setFs_pool]
@[simp] theorem State.settle_pool : s.settle.pool = s.pool := by
  rw [State.settle, State.setIntP_pool, State.tellP_pool, State.follow_pool]
@[simp] theorem State.sendPacket_parts (p : Nat) (k : TxPacket) : (s.sendPacket p k).parts = s.parts := by
  unfold State.sendPacket; simp only; split <;> [simp; (split <;> simp)]
@[simp] theorem State.raiseIntr_parts (p v : Nat) : (s.raiseIntr p v).parts = s.parts := by
  unfold State.raiseIntr; simp only; split <;> [simp; (split <;> [simp; (split <;> simp)])]
@[simp] theorem State.devIntrPort_parts (p : Nat) : (s.devIntrPort p).parts = s.parts := by unfold State.devIntrPort; split <;> simp
@[simp] theorem State.devIntr_parts : s.devIntr.parts = s.parts := by rw [State.devIntr, State.devIntrPort_parts, State.devIntrPort_parts]
@[simp] theorem State.tellP_parts : s.tellP.parts = s.parts := by unfold State.tellP; split <;> simp
@[simp] theorem State.setIntP_parts (b : Bool) : (s.setIntP b).parts = s.parts := rfl
@[simp] theorem State.queueOf_parts : (t.queueOf s).parts = t.parts := rfl
@[simp] theorem State.follow_parts : s.follow.parts = s.parts := by rw [State.follow, State.setFs_parts]
@[simp] theorem State.settle_parts : s.settle.parts = s.parts := by
  rw [State.settle, State.setIntP_parts, State.tellP_parts, State.follow_parts]
@[simp] theorem State.sendPacket_prefetch (p : Nat) (k : TxPacket) : (s.sendPacket p k).prefetch = s.prefetch := by
  unfold State.sendPacket; simp only; split <;> [simp; (split <;> simp)]
@[simp] theorem State.raiseIntr_prefetch (p v : Nat) : (s.raiseIntr p v).prefetch = s.prefetch := by
  unfold State.raiseIntr; simp only; split <;> [simp; (split <;> [simp; (split <;> simp)])]
@[simp] theorem State.devIntrPort_prefetch (p : Nat) : (s.devIntrPort p).prefetch = s.prefetch := by unfold State.devIntrPort; split <;> simp
@[simp] theorem State.devIntr_prefetch : s.devIntr.prefetch = s.prefetch := by rw [State.devIntr, State.devIntrPort_prefetch, State.devIntrPort_prefetch]
@[simp] theorem State.tellP_prefetch : s.tellP.prefetch = s.prefetch := by unfold State.tellP; split <;> simp
@[simp] theorem State.setIntP_prefetch (b : Bool) : (s.setIntP b).prefetch = s.prefetch := rfl
@[simp] theorem State.queueOf_prefetch : (t.queueOf s).prefetch = t.prefetch := rfl
@[simp] theorem State.follow_prefetch : s.follow.prefetch = s.prefetch := by rw [State.follow, State.setFs_prefetch]
@[simp] theorem State.settle_prefetch : s.settle.prefetch = s.prefetch := by
  rw [State.settle, State.setIntP_prefetch, State.tellP_prefetch, State.follow_prefetch]
@[simp] theorem State.sendPacket_episodes (p : Nat) (k : TxPacket) : (s.sendPacket p k).episodes = s.episodes := by
  unfold State.sendPacket; simp only; split <;> [simp; (split <;> simp)]
@[simp] theorem State.raiseIntr_episodes (p v : Nat) : (s.raiseIntr p v).episodes = s.episodes := by
  unfold State.raiseIntr; simp only; split <;> [simp; (split <;> [simp; (split <;> simp)])]
@[simp] theorem State.devIntrPort_episodes (p : Nat) : (s.devIntrPort p).episodes = s.episodes := by unfold State.devIntrPort; split <;> simp
@[simp] theorem State.devIntr_episodes : s.devIntr.episodes = s.episodes := by rw [State.devIntr, State.devIntrPort_episodes, State.devIntrPort_episodes]
@[simp] theorem State.tellP_episodes : s.tellP.episodes = s.episodes := by unfold State.tellP; split <;> simp
@[simp] theorem State.setIntP_episodes (b : Bool) : (s.setIntP b).episodes = s.episodes := rfl
@[simp] theorem State.queueOf_episodes : (t.queueOf s).episodes = t.episodes := rfl
@[simp] theorem State.follow_episodes : s.follow.episodes = s.episodes := by rw [State.follow, State.setFs_episodes]
@[simp] theorem State.settle_episodes : s.settle.episodes = s.episodes := by
  rw [State.settle, State.setIntP_episodes, State.tellP_episodes, State.follow_episodes]
@[simp] theorem State.sendPacket_arrivals (p : Nat) (k : TxPacket) : (s.sendPacket p k).arrivals = s.arrivals := by
  unfold State.sendPacket; simp only; split <;> [simp; (split <;> simp)]
@[simp] theorem State.raiseIntr_arrivals (p v : Nat) : (s.raiseIntr p v).arrivals = s.arrivals := by
  unfold State.raiseIntr; simp only; split <;> [simp; (split <;> [simp; (split <;> simp)])]
@[simp] theorem State.devIntrPort_arrivals (p : Nat) : (s.devIntrPort p).arrivals = s.arrivals := by unfold State.devIntrPort; split <;> simp
@[simp] theorem State.devIntr_arrivals : s.devIntr.arrivals = s.arrivals := by rw [State.devIntr, State.devIntrPort_arrivals, State.devIntrPort_arrivals]
@[simp] theorem State.tellP_arrivals : s.tellP.arrivals = s.arrivals := by unfold State.tellP; split <;> simp
@[simp] theorem State.setIntP_arrivals (b : Bool) : (s.setIntP b).arrivals = s.arrivals := rfl
@[simp] theorem State.queueOf_arrivals : (t.queueOf s).arrivals = t.arrivals := rfl
@[simp] theorem State.follow_arrivals : s.follow.arrivals = s.arrivals := by rw [State.follow, State.setFs_arrivals]
@[simp] theorem State.settle_arrivals : s.settle.arrivals = s.arrivals := by
  rw [State.settle, State.setIntP_arrivals, State.tellP_arrivals, State.follow_arrivals]
@[simp] theorem State.sendPacket_slow (p : Nat) (k : TxPacket) : (s.sendPacket p k).slow = s.slow := by
  unfold State.sendPacket; simp only; split <;> [simp; (split <;> simp)]
@[simp] theorem State.raiseIntr_slow (p v : Nat) : (s.raiseIntr p v).slow = s.slow := by
  unfold State.raiseIntr; simp only; split <;> [simp; (split <;> [simp; (split <;> simp)])]
@[simp] theorem State.devIntrPort_slow (p : Nat) : (s.devIntrPort p).slow = s.slow := by unfold State.devIntrPort; split <;> simp
@[simp] theorem State.devIntr_slow : s.devIntr.slow = s.slow := by rw [State.devIntr, State.devIntrPort_slow, State.devIntrPort_slow]
@[simp] theorem State.tellP_slow : s.tellP.slow = s.slow := by unfold State.tellP; split <;> simp
@[simp] theorem State.setIntP_slow (b : Bool) : (s.setIntP b).slow = s.slow := rfl
@[simp] theorem State.queueOf_slow : (t.queueOf s).slow = t.slow := rfl
@[simp] theorem State.follow_slow : s.follow.slow = s.slow := by rw [State.follow, State.setFs_slow]
@[simp] theorem State.settle_slow : s.settle.slow = s.slow := by
  rw [State.settle, State.setIntP_slow, State.tellP_slow, State.follow_slow]
@[simp] theorem State.sendPacket_slowAt (p : Nat) (k : TxPacket) : (s.sendPacket p k).slowAt = s.slowAt := by
  unfold State.sendPacket; simp only; split <;> [simp; (split <;> simp)]
@[simp] theorem State.raiseIntr_slowAt (p v : Nat) : (s.raiseIntr p v).slowAt = s.slowAt := by
  unfold State.raiseIntr; simp only; split <;> [simp; (split <;> [simp; (split <;> simp)])]
@[simp] theorem State.devIntrPort_slowAt (p : Nat) : (s.devIntrPort p).slowAt = s.slowAt := by unfold State.devIntrPort; split <;> simp
@[simp] theorem State.devIntr_slowAt : s.devIntr.slowAt = s.slowAt := by rw [State.devIntr, State.devIntrPort_slowAt, State.devIntrPort_slowAt]
@[simp] theorem State.tellP_slowAt : s.tellP.slowAt = s.slowAt := by unfold State.tellP; split <;> simp
@[simp] theorem State.setIntP_slowAt (b : Bool) : (s.setIntP b).slowAt = s.slowAt := rfl
@[simp] theorem State.queueOf_slowAt : (t.queueOf s).slowAt = t.slowAt := rfl
@[simp] theorem State.follow_slowAt : s.follow.slowAt = s.slowAt := by rw [State.follow, State.setFs_slowAt]
@[simp] theorem State.settle_slowAt : s.settle.slowAt = s.slowAt := by
  rw [State.settle, State.setIntP_slowAt, State.tellP_slowAt, State.follow_slowAt]
@[simp] theorem State.sendPacket_slowPer (p : Nat) (k : TxPacket) : (s.sendPacket p k).slowPer = s.slowPer := by
  unfold State.sendPacket; simp only; split <;> [simp; (split <;> simp)]
@[simp] theorem State.raiseIntr_slowPer (p v : Nat) : (s.raiseIntr p v).slowPer = s.slowPer := by
  unfold State.raiseIntr; simp only; split <;> [simp; (split <;> [simp; (split <;> simp)])]
@[simp] theorem State.devIntrPort_slowPer (p : Nat) : (s.devIntrPort p).slowPer = s.slowPer := by unfold State.devIntrPort; split <;> simp
@[simp] theorem State.devIntr_slowPer : s.devIntr.slowPer = s.slowPer := by rw [State.devIntr, State.devIntrPort_slowPer, State.devIntrPort_slowPer]
@[simp] theorem State.tellP_slowPer : s.tellP.slowPer = s.slowPer := by unfold State.tellP; split <;> simp
@[simp] theorem State.setIntP_slowPer (b : Bool) : (s.setIntP b).slowPer = s.slowPer := rfl
@[simp] theorem State.queueOf_slowPer : (t.queueOf s).slowPer = t.slowPer := rfl
@[simp] theorem State.follow_slowPer : s.follow.slowPer = s.slowPer := by rw [State.follow, State.setFs_slowPer]
@[simp] theorem State.settle_slowPer : s.settle.slowPer = s.slowPer := by
  rw [State.settle, State.setIntP_slowPer, State.tellP_slowPer, State.follow_slowPer]
@[simp] theorem State.sendPacket_fab (p : Nat) (k : TxPacket) : (s.sendPacket p k).fab = s.fab := by
  unfold State.sendPacket; simp only; split <;> [simp; (split <;> simp)]
@[simp] theorem State.raiseIntr_fab (p v : Nat) : (s.raiseIntr p v).fab = s.fab := by
  unfold State.raiseIntr; simp only; split <;> [simp; (split <;> [simp; (split <;> simp)])]
@[simp] theorem State.devIntrPort_fab (p : Nat) : (s.devIntrPort p).fab = s.fab := by unfold State.devIntrPort; split <;> simp
@[simp] theorem State.devIntr_fab : s.devIntr.fab = s.fab := by rw [State.devIntr, State.devIntrPort_fab, State.devIntrPort_fab]
@[simp] theorem State.tellP_fab : s.tellP.fab = s.fab := by unfold State.tellP; split <;> simp
@[simp] theorem State.setIntP_fab (b : Bool) : (s.setIntP b).fab = s.fab := rfl
@[simp] theorem State.queueOf_fab : (t.queueOf s).fab = t.fab := rfl
@[simp] theorem State.follow_fab : s.follow.fab = s.fab := by rw [State.follow, State.setFs_fab]
@[simp] theorem State.settle_fab : s.settle.fab = s.fab := by
  rw [State.settle, State.setIntP_fab, State.tellP_fab, State.follow_fab]
@[simp] theorem State.sendPacket_flt (p : Nat) (k : TxPacket) : (s.sendPacket p k).flt = s.flt := by
  unfold State.sendPacket; simp only; split <;> [simp; (split <;> simp)]
@[simp] theorem State.raiseIntr_flt (p v : Nat) : (s.raiseIntr p v).flt = s.flt := by
  unfold State.raiseIntr; simp only; split <;> [simp; (split <;> [simp; (split <;> simp)])]
@[simp] theorem State.devIntrPort_flt (p : Nat) : (s.devIntrPort p).flt = s.flt := by unfold State.devIntrPort; split <;> simp
@[simp] theorem State.devIntr_flt : s.devIntr.flt = s.flt := by rw [State.devIntr, State.devIntrPort_flt, State.devIntrPort_flt]
@[simp] theorem State.tellP_flt : s.tellP.flt = s.flt := by unfold State.tellP; split <;> simp
@[simp] theorem State.setIntP_flt (b : Bool) : (s.setIntP b).flt = s.flt := rfl
@[simp] theorem State.queueOf_flt : (t.queueOf s).flt = t.flt := rfl
@[simp] theorem State.follow_flt : s.follow.flt = s.flt := by rw [State.follow, State.setFs_flt]
@[simp] theorem State.settle_flt : s.settle.flt = s.flt := by
  rw [State.settle, State.setIntP_flt, State.tellP_flt, State.follow_flt]
@[simp] theorem State.sendPacket_sec (p : Nat) (k : TxPacket) : (s.sendPacket p k).sec = s.sec := by
  unfold State.sendPacket; simp only; split <;> [simp; (split <;> simp)]
@[simp] theorem State.raiseIntr_sec (p v : Nat) : (s.raiseIntr p v).sec = s.sec := by
  unfold State.raiseIntr; simp only; split <;> [simp; (split <;> [simp; (split <;> simp)])]
@[simp] theorem State.devIntrPort_sec (p : Nat) : (s.devIntrPort p).sec = s.sec := by unfold State.devIntrPort; split <;> simp
@[simp] theorem State.devIntr_sec : s.devIntr.sec = s.sec := by rw [State.devIntr, State.devIntrPort_sec, State.devIntrPort_sec]
@[simp] theorem State.tellP_sec : s.tellP.sec = s.sec := by unfold State.tellP; split <;> simp
@[simp] theorem State.setIntP_sec (b : Bool) : (s.setIntP b).sec = s.sec := rfl
@[simp] theorem State.queueOf_sec : (t.queueOf s).sec = t.sec := rfl
@[simp] theorem State.follow_sec : s.follow.sec = s.sec := by rw [State.follow, State.setFs_sec]
@[simp] theorem State.settle_sec : s.settle.sec = s.sec := by
  rw [State.settle, State.setIntP_sec, State.tellP_sec, State.follow_sec]
@[simp] theorem State.sendPacket_pwr (p : Nat) (k : TxPacket) : (s.sendPacket p k).pwr = s.pwr := by
  unfold State.sendPacket; simp only; split <;> [simp; (split <;> simp)]
@[simp] theorem State.raiseIntr_pwr (p v : Nat) : (s.raiseIntr p v).pwr = s.pwr := by
  unfold State.raiseIntr; simp only; split <;> [simp; (split <;> [simp; (split <;> simp)])]
@[simp] theorem State.devIntrPort_pwr (p : Nat) : (s.devIntrPort p).pwr = s.pwr := by unfold State.devIntrPort; split <;> simp
@[simp] theorem State.devIntr_pwr : s.devIntr.pwr = s.pwr := by rw [State.devIntr, State.devIntrPort_pwr, State.devIntrPort_pwr]
@[simp] theorem State.tellP_pwr : s.tellP.pwr = s.pwr := by unfold State.tellP; split <;> simp
@[simp] theorem State.setIntP_pwr (b : Bool) : (s.setIntP b).pwr = s.pwr := rfl
@[simp] theorem State.queueOf_pwr : (t.queueOf s).pwr = t.pwr := rfl
@[simp] theorem State.follow_pwr : s.follow.pwr = s.pwr := by rw [State.follow, State.setFs_pwr]
@[simp] theorem State.settle_pwr : s.settle.pwr = s.pwr := by
  rw [State.settle, State.setIntP_pwr, State.tellP_pwr, State.follow_pwr]
@[simp] theorem State.sendPacket_pins (p : Nat) (k : TxPacket) : (s.sendPacket p k).pins = s.pins := by
  unfold State.sendPacket; simp only; split <;> [simp; (split <;> simp)]
@[simp] theorem State.raiseIntr_pins (p v : Nat) : (s.raiseIntr p v).pins = s.pins := by
  unfold State.raiseIntr; simp only; split <;> [simp; (split <;> [simp; (split <;> simp)])]
@[simp] theorem State.devIntrPort_pins (p : Nat) : (s.devIntrPort p).pins = s.pins := by unfold State.devIntrPort; split <;> simp
@[simp] theorem State.devIntr_pins : s.devIntr.pins = s.pins := by rw [State.devIntr, State.devIntrPort_pins, State.devIntrPort_pins]
@[simp] theorem State.tellP_pins : s.tellP.pins = s.pins := by unfold State.tellP; split <;> simp
@[simp] theorem State.setIntP_pins (b : Bool) : (s.setIntP b).pins = s.pins := rfl
@[simp] theorem State.queueOf_pins : (t.queueOf s).pins = t.pins := rfl
@[simp] theorem State.follow_pins : s.follow.pins = s.pins := by rw [State.follow, State.setFs_pins]
@[simp] theorem State.settle_pins : s.settle.pins = s.pins := by
  rw [State.settle, State.setIntP_pins, State.tellP_pins, State.follow_pins]
@[simp] theorem State.sendPacket_intP (p : Nat) (k : TxPacket) : (s.sendPacket p k).intP = s.intP := by
  unfold State.sendPacket; simp only; split <;> [simp; (split <;> simp)]
@[simp] theorem State.raiseIntr_intP (p v : Nat) : (s.raiseIntr p v).intP = s.intP := by
  unfold State.raiseIntr; simp only; split <;> [simp; (split <;> [simp; (split <;> simp)])]
@[simp] theorem State.devIntrPort_intP (p : Nat) : (s.devIntrPort p).intP = s.intP := by unfold State.devIntrPort; split <;> simp
@[simp] theorem State.devIntr_intP : s.devIntr.intP = s.intP := by rw [State.devIntr, State.devIntrPort_intP, State.devIntrPort_intP]
@[simp] theorem State.tellP_intP : s.tellP.intP = s.intP := by unfold State.tellP; split <;> simp
@[simp] theorem State.setIntP_intP (b : Bool) : (s.setIntP b).intP = b := rfl
@[simp] theorem State.queueOf_intP : (t.queueOf s).intP = t.intP := rfl
theorem State.settle_intP : s.settle.intP = decide (s.follow.intPending ≠ 0) := by rw [State.settle, State.setIntP_intP]
@[simp] theorem State.sendPacket_free (p : Nat) (k : TxPacket) : (s.sendPacket p k).free = s.free := by
  unfold State.sendPacket; simp only; split <;> [simp; (split <;> simp)]
@[simp] theorem State.raiseIntr_free (p v : Nat) : (s.raiseIntr p v).free = s.free := by
  unfold State.raiseIntr; simp only; split <;> [simp; (split <;> [simp; (split <;> simp)])]
@[simp] theorem State.devIntrPort_free (p : Nat) : (s.devIntrPort p).free = s.free := by unfold State.devIntrPort; split <;> simp
@[simp] theorem State.devIntr_free : s.devIntr.free = s.free := by rw [State.devIntr, State.devIntrPort_free, State.devIntrPort_free]
@[simp] theorem State.tellP_free : s.tellP.free = s.free := by unfold State.tellP; split <;> simp
@[simp] theorem State.setIntP_free (b : Bool) : (s.setIntP b).free = s.free := rfl
@[simp] theorem State.queueOf_free : (t.queueOf s).free = t.free := rfl
@[simp] theorem State.follow_free : s.follow.free = s.free := by rw [State.follow, State.setFs_free]
@[simp] theorem State.settle_free : s.settle.free = s.free := by
  rw [State.settle, State.setIntP_free, State.tellP_free, State.follow_free]

@[simp] theorem State.after_pending : (s.after t).pending = s.pending := by simp only [State.after, State.settle_pending, State.queueOf_pending]
@[simp] theorem State.after_mem : (s.after t).mem = t.mem := by simp only [State.after, State.settle_mem, State.queueOf_mem]
@[simp] theorem State.after_ecc : (s.after t).ecc = t.ecc := by simp only [State.after, State.settle_ecc, State.queueOf_ecc]
@[simp] theorem State.after_ctxs : (s.after t).ctxs = t.ctxs := by simp only [State.after, State.settle_ctxs, State.queueOf_ctxs]
@[simp] theorem State.after_tlb : (s.after t).tlb = t.tlb := by simp only [State.after, State.settle_tlb, State.queueOf_tlb]
@[simp] theorem State.after_jobs : (s.after t).jobs = t.jobs := by simp only [State.after, State.settle_jobs, State.queueOf_jobs]
@[simp] theorem State.after_nextJob : (s.after t).nextJob = t.nextJob := by simp only [State.after, State.settle_nextJob, State.queueOf_nextJob]
@[simp] theorem State.after_idxs : (s.after t).idxs = t.idxs := by simp only [State.after, State.settle_idxs, State.queueOf_idxs]
@[simp] theorem State.after_press : (s.after t).press = t.press := by simp only [State.after, State.settle_press, State.queueOf_press]
@[simp] theorem State.after_pressOut : (s.after t).pressOut = t.pressOut := by simp only [State.after, State.settle_pressOut, State.queueOf_pressOut]
@[simp] theorem State.after_toFree : (s.after t).toFree = t.toFree := by simp only [State.after, State.settle_toFree, State.queueOf_toFree]
@[simp] theorem State.after_cellar : (s.after t).cellar = t.cellar := by simp only [State.after, State.settle_cellar, State.queueOf_cellar]
@[simp] theorem State.after_pool : (s.after t).pool = { t.pool with needs := [] } := by simp only [State.after, State.settle_pool, State.queueOf_pool]
@[simp] theorem State.after_parts : (s.after t).parts = t.parts := by simp only [State.after, State.settle_parts, State.queueOf_parts]
@[simp] theorem State.after_prefetch : (s.after t).prefetch = t.prefetch := by simp only [State.after, State.settle_prefetch, State.queueOf_prefetch]
@[simp] theorem State.after_episodes : (s.after t).episodes = t.episodes := by simp only [State.after, State.settle_episodes, State.queueOf_episodes]
@[simp] theorem State.after_arrivals : (s.after t).arrivals = t.arrivals := by simp only [State.after, State.settle_arrivals, State.queueOf_arrivals]
@[simp] theorem State.after_slow : (s.after t).slow = t.slow := by simp only [State.after, State.settle_slow, State.queueOf_slow]
@[simp] theorem State.after_slowAt : (s.after t).slowAt = t.slowAt := by simp only [State.after, State.settle_slowAt, State.queueOf_slowAt]
@[simp] theorem State.after_slowPer : (s.after t).slowPer = t.slowPer := by simp only [State.after, State.settle_slowPer, State.queueOf_slowPer]
@[simp] theorem State.after_fab : (s.after t).fab = t.fab := by simp only [State.after, State.settle_fab, State.queueOf_fab]
@[simp] theorem State.after_flt : (s.after t).flt = t.flt := by simp only [State.after, State.settle_flt, State.queueOf_flt]
@[simp] theorem State.after_sec : (s.after t).sec = t.sec := by simp only [State.after, State.settle_sec, State.queueOf_sec]
@[simp] theorem State.after_pwr : (s.after t).pwr = t.pwr := by simp only [State.after, State.settle_pwr, State.queueOf_pwr]
@[simp] theorem State.after_pins : (s.after t).pins = t.pins := by simp only [State.after, State.settle_pins, State.queueOf_pins]
@[simp] theorem State.after_free : (s.after t).free = t.free := by simp only [State.after, State.settle_free, State.queueOf_free]

theorem State.after_regs : (s.after t).regs = (t.queueOf s).follow.regs := by
  unfold State.after
  rw [State.settle_regs]

theorem State.reg_congr {a b : State} (h : a.regs = b.regs) (r : Reg) (i : Nat) : a.reg r i = b.reg r i := by
  unfold State.reg
  rw [h]

/-- Every register but TOP_INT_STAT reads after a command what its effect left in it. -/
theorem State.after_reg (r : Reg) (i : Nat) (h : r.addr i ≠ Reg.topIntStat.addr 0) : (s.after t).reg r i = t.reg r i := by
  rw [State.reg_congr (State.after_regs s t)]
  unfold State.follow
  rw [State.reg_setFs_of_ne]
  · rfl
  · intro x m
    simp only [List.mem_cons, List.not_mem_nil, or_false] at m
    rcases m with m | m <;> subst m <;> exact h

theorem State.after_f (x : Fld) (i : Nat) (h : x.reg.addr i ≠ Reg.topIntStat.addr 0) : (s.after t).f x i = t.f x i := by
  unfold State.f
  rw [State.after_reg s t _ _ h]

/-- The two bits of TOP_INT_STAT that follow their sources, after a register map of a state is followed. -/
theorem State.follow_sources : s.follow.f F.TOP_INT_STAT_INDEX 0 = b2n ((List.range 64).any fun j => decide (s.follow.reg .topIdxPend j ≠ 0)) ∧
    s.follow.f F.TOP_INT_STAT_ERROR 0 = b2n (decide (s.follow.reg .topErrSum 0 ≠ 0)) := by
  have o : ∀ (r : Reg) (i : Nat), r.addr i ≠ Reg.topIntStat.addr 0 → s.follow.reg r i = s.reg r i := by
    intro r i h
    unfold State.follow
    rw [State.reg_setFs_of_ne]
    intro x m
    simp only [List.mem_cons, List.not_mem_nil, or_false] at m
    rcases m with m | m <;> subst m <;> exact h
  have e : ∀ b : Bool, b2n b % 2 = b2n b := by decide
  constructor
  · have : ((List.range 64).any fun j => decide (s.follow.reg .topIdxPend j ≠ 0)) = (List.range 64).any fun j => decide (s.reg .topIdxPend j ≠ 0) := by
      congr 1
      funext j
      rw [o]
      unfold Reg.addr Reg.place
      simp only
      omega
    rw [this]
    have b : ∀ (u : State) (v : Nat), (u.setF F.TOP_INT_STAT_ERROR 0 v).f F.TOP_INT_STAT_INDEX 0 = u.f F.TOP_INT_STAT_INDEX 0 :=
      fun u v => State.f_setF_beside u v rfl (by decide) (by decide) (by decide)
    have c : ∀ (u : State) (v : Nat), (u.setF F.TOP_INT_STAT_INDEX 0 v).f F.TOP_INT_STAT_INDEX 0 = v % 2 :=
      fun u v => State.f_setF_self u _ 0 v (by decide) (by decide)
    unfold State.follow
    simp only [State.setFs_cons, State.setFs_nil, b, c, e]
  · rw [o _ _ (by decide)]
    unfold State.follow
    have c : ∀ (u : State) (v : Nat), (u.setF F.TOP_INT_STAT_ERROR 0 v).f F.TOP_INT_STAT_ERROR 0 = v % 2 :=
      fun u v => State.f_setF_self u _ 0 v (by decide) (by decide)
    simp only [State.setFs_cons, State.setFs_nil, c, e]

/-- After a command the summary agrees with what it sums up. -/
theorem State.after_inv : Inv (s.after t) := by
  have k : (s.after t).regs = (t.queueOf s).follow.regs := State.after_regs s t
  generalize hu : (t.queueOf s) = u at k
  have f := State.follow_sources u
  have g : ∀ (r : Reg) (i : Nat), (s.after t).reg r i = u.follow.reg r i := State.reg_congr k
  refine ⟨?_, ?_, ?_, by rw [State.after_pool]⟩
  · unfold State.f
    simp only [g]
    exact f.1
  · unfold State.f
    simp only [g]
    exact f.2
  · have : (s.after t).intP = decide (u.follow.intPending ≠ 0) := by
      unfold State.after
      rw [hu, State.settle_intP]
    rw [this]
    unfold State.intPending
    rw [g, g]

/-! The two shapes of a command -/

theorem gated_live (f : State → State) (h : s.live = true) : gated s f = .next (s.after (f s)) := by unfold gated; rw [if_pos h]

theorem gated_stopped (f : State → State) (h : s.live = false) : gated s f = .next s := by
  unfold gated
  rw [if_neg (by simp [h])]

theorem gated_next (f : State → State) : ∃ u, gated s f = .next u := ⟨_, rfl⟩

theorem gated_pending {f : State → State} {u : State} (h : gated s f = .next u) : u.pending = s.pending := by
  unfold gated at h
  cases h
  split
  · simp
  · rfl

theorem gated_inv {f : State → State} {u : State} (i : Inv s) (h : gated s f = .next u) : Inv u := by
  unfold gated at h
  cases h
  split
  · exact State.after_inv s _
  · exact i

theorem always_pending {f : State → State} {u : State} (h : always s f = .next u) : u.pending = s.pending := by
  unfold always at h
  cases h
  simp

theorem always_inv {f : State → State} {u : State} (h : always s f = .next u) : Inv u := by
  unfold always at h
  cases h
  exact State.after_inv s _

end Sys2Proof.Machine
end

