-- ==== Sys2Proof/Laws/Rows.lean ====
section
/-! SUPPORT. Laws of register accesses: what a row that writes one register comes to (R9, R10, R556), and what a recorded event
changes (R529). -/
namespace Sys2Proof.Machine

variable (s : State)

/-! Accesses -/

theorem Reg.addr_mod (r : Reg) (i : Nat) : r.addr i % 8 = 0 := by
  have := Reg.place_mod r
  unfold Reg.addr
  omega

theorem Reg.addr_lt {r : Reg} {i : Nat} (h : i < r.count) : r.addr i + 8 ≤ 2 ^ 26 := by
  have := Reg.place_end r
  unfold Reg.count at h
  unfold Reg.addr
  omega

theorem mayAccess_eq {src : Src} (h : s.mayAccess src = true) : (src == .jtag && !s.jtagOpen) = false := by
  unfold State.mayAccess at h
  cases src <;> simp_all

theorem halfAddr_mod8 (r : Reg) (i : Nat) (upper : Bool) : halfAddr r i upper % 8 = if upper then 4 else 0 := by
  have := Reg.addr_mod r i
  unfold halfAddr
  split <;> omega

theorem accessMask_half {r : Reg} {i : Nat} {wide upper : Bool} (h : wide = true → upper = false) :
    accessMask (halfAddr r i upper) wide = halfMask wide upper := by
  unfold accessMask halfMask
  rw [halfAddr_mod8]
  cases wide <;> cases upper <;> simp at h ⊢

theorem accessBits_half {r : Reg} {i v : Nat} {wide upper : Bool} (h : wide = true → upper = false) :
    accessBits (halfAddr r i upper) wide v = halfBits wide upper v := by
  unfold accessBits halfBits
  rw [halfAddr_mod8]
  cases wide <;> cases upper <;> simp at h ⊢

theorem accessAligned_half (r : Reg) (i : Nat) {wide upper : Bool} (h : wide = true → upper = false) :
    accessAligned (halfAddr r i upper) wide = true := by
  have := halfAddr_mod8 r i upper
  unfold accessAligned
  cases wide <;> cases upper <;> simp at h this ⊢ <;> omega

theorem find_half {r : Reg} {i : Nat} (upper : Bool) (h : i < r.count) :
    Reg.find (halfAddr r i upper - halfAddr r i upper % 8) = some (r, i) := by
  rw [halfAddr_mod8]
  have e : halfAddr r i upper - (if upper then 4 else 0) = r.addr i := by unfold halfAddr; cases upper <;> simp
  rw [e, Reg.find_addr r i h]

theorem halfAddr_lt {r : Reg} {i : Nat} (upper : Bool) (h : i < r.count) : halfAddr r i upper < 2 ^ 26 := by
  have := Reg.addr_lt h
  unfold halfAddr
  split <;> omega

/-- The access of an address operand of 52 bits is the access of its register. -/
theorem halfAddr_toNat {r : Reg} {i : Nat} (upper : Bool) (h : i < r.count) : (BitVec.ofNat 52 (halfAddr r i upper)).toNat = halfAddr r i upper := by
  have := halfAddr_lt upper h
  rw [BitVec.toNat_ofNat, Nat.mod_eq_of_lt (by omega)]

theorem addr_toNat {r : Reg} {i : Nat} (h : i < r.count) : (BitVec.ofNat 52 (r.addr i)).toNat = r.addr i := by
  have := Reg.addr_lt h
  rw [BitVec.toNat_ofNat, Nat.mod_eq_of_lt (by omega)]

/-- A register write of a half or of the whole that no rule refuses or ignores. -/
theorem regWrite_half {src : Src} {r : Reg} {i v : Nat} {wide upper : Bool} (ha : s.mayAccess src = true) (hi : i < r.count)
    (h : wide = true → upper = false)
    (hr : s.refusesWrite r i (s.reg r i) (r.merged i (s.reg r i) (halfBits wide upper v) (halfMask wide upper)) = false)
    (hg : s.ignoresWrite r i (r.merged i (s.reg r i) (halfBits wide upper v) (halfMask wide upper)) = false) :
    s.regWrite src (halfAddr r i upper) wide v =
      if upper then (s.applyWrite src r i (halfBits wide upper v) (halfMask wide upper)).firstAt (s.on F.TOP_ERR_FIRST_VALID 0) (halfAddr r i upper)
      else s.applyWrite src r i (halfBits wide upper v) (halfMask wide upper) := by
  have l := halfAddr_lt upper hi
  unfold State.regWrite
  rw [mayAccess_eq s ha, show decide (2 ^ 26 ≤ halfAddr r i upper) = false by simp; omega, find_half upper hi]
  simp only [Bool.or_self, Bool.false_eq_true, if_false, accessAligned_half r i h, Bool.not_true, accessBits_half h,
    accessMask_half h, hr, hg, halfAddr_mod8]
  cases upper <;> simp

theorem accessMask_addr (r : Reg) (i : Nat) : accessMask (r.addr i) true = 2 ^ 64 - 1 := rfl

/-- A row's write of a whole register that no rule refuses or ignores. -/
theorem writeReg_takes {src : Src} {r : Reg} {i v : Nat} (t : Takes s src r i v) (hi : i < r.count) :
    s.writeReg src r i v = s.applyWrite src r i (v % 2 ^ 64) (2 ^ 64 - 1) := by
  obtain ⟨-, ha, hr, hg⟩ := t
  have := regWrite_half s (v := v) (wide := true) (upper := false) ha hi (fun _ => rfl) hr hg
  simpa [State.writeReg, halfAddr, halfBits, halfMask] using this

theorem and_mask (v : Nat) : v % 2 ^ 64 &&& (2 ^ 64 - 1) = v % 2 ^ 64 := by
  rw [Nat.and_two_pow_sub_one_eq_mod, Nat.mod_mod]

/-- The registers whose write does not go through `State.written`. -/
def wroteApart : Reg → Bool
  | .cellarNsEn | .tileEmbEn | .fabMacsecKey => true
  | _ => false

theorem applyWrite_eq {src : Src} {r : Reg} (i w m : Nat) (hw : wroteApart r = false) : s.applyWrite src r i w m =
    (s.setReg r i (r.merged i (s.reg r i) w m)).written src r i (s.reg r i) (w &&& m) (m.testBit 0) := by
  unfold State.applyWrite
  cases r <;> first | rfl | simp [wroteApart] at hw

/-- A row that writes a register sets its fields, and then its action starts. -/
theorem row_takes {src : Src} {r : Reg} {i v : Nat} (t : Takes s src r i v) (hi : i < r.count) (hw : wroteApart r = false) :
    gated s (fun s => s.writeReg src r i v) =
      .next (s.after ((s.rowWrite r i v).written src r i (s.reg r i) (v % 2 ^ 64) true)) := by
  rw [gated_live _ _ t.1, writeReg_takes s t hi]
  rw [applyWrite_eq s i _ _ hw, and_mask, show Nat.testBit (2 ^ 64 - 1) 0 = true by decide, State.rowWrite]

/-! A row's write changes its register alone -/

@[simp] theorem State.rowWrite_pending (r : Reg) (i v : Nat) : (s.rowWrite r i v).pending = s.pending := by rw [State.rowWrite, State.setReg_pending]
@[simp] theorem State.rowWrite_mem (r : Reg) (i v : Nat) : (s.rowWrite r i v).mem = s.mem := by rw [State.rowWrite, State.setReg_mem]
@[simp] theorem State.rowWrite_ecc (r : Reg) (i v : Nat) : (s.rowWrite r i v).ecc = s.ecc := by rw [State.rowWrite, State.setReg_ecc]
@[simp] theorem State.rowWrite_ctxs (r : Reg) (i v : Nat) : (s.rowWrite r i v).ctxs = s.ctxs := by rw [State.rowWrite, State.setReg_ctxs]
@[simp] theorem State.rowWrite_tlb (r : Reg) (i v : Nat) : (s.rowWrite r i v).tlb = s.tlb := by rw [State.rowWrite, State.setReg_tlb]
@[simp] theorem State.rowWrite_jobs (r : Reg) (i v : Nat) : (s.rowWrite r i v).jobs = s.jobs := by rw [State.rowWrite, State.setReg_jobs]
@[simp] theorem State.rowWrite_nextJob (r : Reg) (i v : Nat) : (s.rowWrite r i v).nextJob = s.nextJob := by rw [State.rowWrite, State.setReg_nextJob]
@[simp] theorem State.rowWrite_idxs (r : Reg) (i v : Nat) : (s.rowWrite r i v).idxs = s.idxs := by rw [State.rowWrite, State.setReg_idxs]
@[simp] theorem State.rowWrite_press (r : Reg) (i v : Nat) : (s.rowWrite r i v).press = s.press := by rw [State.rowWrite, State.setReg_press]
@[simp] theorem State.rowWrite_pressOut (r : Reg) (i v : Nat) : (s.rowWrite r i v).pressOut = s.pressOut := by rw [State.rowWrite, State.setReg_pressOut]
@[simp] theorem State.rowWrite_toFree (r : Reg) (i v : Nat) : (s.rowWrite r i v).toFree = s.toFree := by rw [State.rowWrite, State.setReg_toFree]
@[simp] theorem State.rowWrite_cellar (r : Reg) (i v : Nat) : (s.rowWrite r i v).cellar = s.cellar := by rw [State.rowWrite, State.setReg_cellar]
@[simp] theorem State.rowWrite_pool (r : Reg) (i v : Nat) : (s.rowWrite r i v).pool = s.pool := by rw [State.rowWrite, State.setReg_pool]
@[simp] theorem State.rowWrite_parts (r : Reg) (i v : Nat) : (s.rowWrite r i v).parts = s.parts := by rw [State.rowWrite, State.setReg_parts]
@[simp] theorem State.rowWrite_prefetch (r : Reg) (i v : Nat) : (s.rowWrite r i v).prefetch = s.prefetch := by rw [State.rowWrite, State.setReg_prefetch]
@[simp] theorem State.rowWrite_episodes (r : Reg) (i v : Nat) : (s.rowWrite r i v).episodes = s.episodes := by rw [State.rowWrite, State.setReg_episodes]
@[simp] theorem State.rowWrite_arrivals (r : Reg) (i v : Nat) : (s.rowWrite r i v).arrivals = s.arrivals := by rw [State.rowWrite, State.setReg_arrivals]
@[simp] theorem State.rowWrite_slow (r : Reg) (i v : Nat) : (s.rowWrite r i v).slow = s.slow := by rw [State.rowWrite, State.setReg_slow]
@[simp] theorem State.rowWrite_slowAt (r : Reg) (i v : Nat) : (s.rowWrite r i v).slowAt = s.slowAt := by rw [State.rowWrite, State.setReg_slowAt]
@[simp] theorem State.rowWrite_slowPer (r : Reg) (i v : Nat) : (s.rowWrite r i v).slowPer = s.slowPer := by rw [State.rowWrite, State.setReg_slowPer]
@[simp] theorem State.rowWrite_fab (r : Reg) (i v : Nat) : (s.rowWrite r i v).fab = s.fab := by rw [State.rowWrite, State.setReg_fab]
@[simp] theorem State.rowWrite_nl0 (r : Reg) (i v : Nat) : (s.rowWrite r i v).nl0 = s.nl0 := by rw [State.rowWrite, State.setReg_nl0]
@[simp] theorem State.rowWrite_nl1 (r : Reg) (i v : Nat) : (s.rowWrite r i v).nl1 = s.nl1 := by rw [State.rowWrite, State.setReg_nl1]
@[simp] theorem State.rowWrite_flt (r : Reg) (i v : Nat) : (s.rowWrite r i v).flt = s.flt := by rw [State.rowWrite, State.setReg_flt]
@[simp] theorem State.rowWrite_sec (r : Reg) (i v : Nat) : (s.rowWrite r i v).sec = s.sec := by rw [State.rowWrite, State.setReg_sec]
@[simp] theorem State.rowWrite_pwr (r : Reg) (i v : Nat) : (s.rowWrite r i v).pwr = s.pwr := by rw [State.rowWrite, State.setReg_pwr]
@[simp] theorem State.rowWrite_pins (r : Reg) (i v : Nat) : (s.rowWrite r i v).pins = s.pins := by rw [State.rowWrite, State.setReg_pins]
@[simp] theorem State.rowWrite_intP (r : Reg) (i v : Nat) : (s.rowWrite r i v).intP = s.intP := by rw [State.rowWrite, State.setReg_intP]
@[simp] theorem State.rowWrite_free (r : Reg) (i v : Nat) : (s.rowWrite r i v).free = s.free := by rw [State.rowWrite, State.setReg_free]
theorem State.rowWrite_reg_self {r : Reg} {i v : Nat} (h : r.merged i (s.reg r i) (v % 2 ^ 64) (2 ^ 64 - 1) < 2 ^ 64) :
    (s.rowWrite r i v).reg r i = r.merged i (s.reg r i) (v % 2 ^ 64) (2 ^ 64 - 1) := by
  rw [State.rowWrite, State.reg_setReg_self, Nat.mod_eq_of_lt h]
theorem State.rowWrite_reg_of_ne {r q : Reg} {i j : Nat} (v : Nat) (h : q.addr j ≠ r.addr i) : (s.rowWrite r i v).reg q j = s.reg q j := by
  rw [State.rowWrite, State.reg_setReg_of_ne _ _ h]

/-! The action of each register's write -/

theorem written_vintIdxCfg (src : Src) (i old w : Nat) (low : Bool) : s.written src .vintIdxCfg i old w low = (s.idxWritten src i old) := rfl
theorem written_vintClose (src : Src) (i old w : Nat) (low : Bool) : s.written src .vintClose i old w low = (if low then s.writeVintClose src w else s) := rfl
theorem written_cellarChCfg (src : Src) (i old w : Nat) (low : Bool) : s.written src .cellarChCfg i old w low = (s.channelWritten i old) := rfl
theorem written_cellarCfg (src : Src) (i old w : Nat) (low : Bool) : s.written src .cellarCfg i old w low = ((if bit w 61 then s.startCellar src else s).checkSpare) := rfl
theorem written_cellarLogTrim (src : Src) (i old w : Nat) (low : Bool) : s.written src .cellarLogTrim i old w low = (s) := rfl
theorem written_poolAgentLost (src : Src) (i old w : Nat) (low : Bool) : s.written src .poolAgentLost i old w low = (if low then (s.declareLost (bits w 17 0)).wakeJobs else s) := rfl
theorem written_poolCatInval (src : Src) (i old w : Nat) (low : Bool) : s.written src .poolCatInval i old w low = (if low then s.catInval w else s) := rfl
theorem written_trlCtl (src : Src) (i old w : Nat) (low : Bool) : s.written src .trlCtl i old w low = (if bit w 1 then s.trlStart src i true else if bit w 0 then s.trlStart src i false else s) := rfl
theorem written_ctxCfg (src : Src) (i old w : Nat) (low : Bool) : s.written src .ctxCfg i old w low = (s.ctxWritten src i old) := rfl
theorem written_ctxDb (src : Src) (i old w : Nat) (low : Bool) : s.written src .ctxDb i old w low = (s.doorbell src i w) := rfl
theorem written_ctxCtl (src : Src) (i old w : Nat) (low : Bool) : s.written src .ctxCtl i old w low = (s.ctxCtl src i w) := rfl
theorem written_ctxTlbInval (src : Src) (i old w : Nat) (low : Bool) : s.written src .ctxTlbInval i old w low = (if low then s.tlbInval w else s) := rfl
theorem written_fabPortCfg (src : Src) (i old w : Nat) (low : Bool) : s.written src .fabPortCfg i old w low = (s.fabPortWritten src i old) := rfl
theorem written_fabPeerCtl (src : Src) (i old w : Nat) (low : Bool) : s.written src .fabPeerCtl i old w low = (if low then s.peerCtl w else s) := rfl
theorem written_fabQueue (src : Src) (i old w : Nat) (low : Bool) : s.written src .fabQueue i old w low = (s.queueWritten i) := rfl
theorem written_fabShape (src : Src) (i old w : Nat) (low : Bool) : s.written src .fabShape i old w low = (s.shapeWritten i) := rfl
theorem written_fabPolice (src : Src) (i old w : Nat) (low : Bool) : s.written src .fabPolice i old w low = (s.policeWritten i) := rfl
theorem written_fabMacsecSa (src : Src) (i old w : Nat) (low : Bool) : s.written src .fabMacsecSa i old w low = (s.saWritten i) := rfl
theorem written_fabCompCtl (src : Src) (i old w : Nat) (low : Bool) : s.written src .fabCompCtl i old w low = (s.compCtl src i old w) := rfl
theorem written_nlPortCfg (src : Src) (i old w : Nat) (low : Bool) : s.written src .nlPortCfg i old w low = (s.nlPortWritten i old) := rfl
theorem written_clkWake (src : Src) (i old w : Nat) (low : Bool) : s.written src .clkWake i old w low = (s.clkWake w) := rfl
theorem written_secFuseProg (src : Src) (i old w : Nat) (low : Bool) : s.written src .secFuseProg i old w low = (if bit w 12 then s.fuseGo src else s) := rfl
theorem written_fltKick (src : Src) (i old w : Nat) (low : Bool) : s.written src .fltKick i old w low = (if bit w 0 then s.kick else s) := rfl
theorem written_fltReset (src : Src) (i old w : Nat) (low : Bool) : s.written src .fltReset i old w low = (if bits w 4 0 = 0 then s else s.fltReset src w) := rfl
theorem written_fltCkpt (src : Src) (i old w : Nat) (low : Bool) : s.written src .fltCkpt i old w low = (if bit w 0 then s.startCkpt src else s) := rfl
theorem written_fltInj (src : Src) (i old w : Nat) (low : Bool) : s.written src .fltInj i old w low = (s.injWritten i) := rfl
theorem written_fltAdmit (src : Src) (i old w : Nat) (low : Bool) : s.written src .fltAdmit i old w low = (if old.testBit 0 && !s.on F.FLT_ADMIT_HOLD i then s.stageHolds i else s) := rfl
theorem written_topIntStat (src : Src) (i old w : Nat) (low : Bool) : s.written src .topIntStat i old w low = (s.sumWritten) := rfl
theorem written_topIntEn (src : Src) (i old w : Nat) (low : Bool) : s.written src .topIntEn i old w low = (s.sumWritten) := rfl
theorem written_topIdxPend (src : Src) (i old w : Nat) (low : Bool) : s.written src .topIdxPend i old w low = (s.sumWritten) := rfl

/-! What a recorded event changes -/

theorem recordErr_first {k : ErrKind} (src : Src) (a : Nat) (w : Bool)
    (h : ((s.setF k.bit 0 1).addF F.TOP_ERR_CNT_COUNT 0 1).on F.TOP_ERR_FIRST_VALID 0 = true) :
    s.recordErr k src a w = (s.setF k.bit 0 1).addF F.TOP_ERR_CNT_COUNT 0 1 := by rw [State.recordErr, if_pos h]

theorem recordErr_new {k : ErrKind} (src : Src) (a : Nat) (w : Bool)
    (h : ¬ ((s.setF k.bit 0 1).addF F.TOP_ERR_CNT_COUNT 0 1).on F.TOP_ERR_FIRST_VALID 0 = true) :
    s.recordErr k src a w = ((s.setF k.bit 0 1).addF F.TOP_ERR_CNT_COUNT 0 1).setFs 0
      [(F.TOP_ERR_FIRST_ADDR, a), (F.TOP_ERR_FIRST_KIND, k.code), (F.TOP_ERR_FIRST_WRITE, b2n w), (F.TOP_ERR_FIRST_SOURCE, srcCode src),
        (F.TOP_ERR_FIRST_VALID, 1)] := by rw [State.recordErr, if_neg h]

@[simp] theorem State.recordErr_pending (k : ErrKind) (src : Src) (a : Nat) (w : Bool) : (s.recordErr k src a w).pending = s.pending := by
  by_cases h : ((s.setF k.bit 0 1).addF F.TOP_ERR_CNT_COUNT 0 1).on F.TOP_ERR_FIRST_VALID 0 = true
  · rw [recordErr_first s src a w h, State.addF_pending, State.setF_pending]
  · rw [recordErr_new s src a w h, State.setFs_pending, State.addF_pending, State.setF_pending]
@[simp] theorem State.writeErr_pending (k : ErrKind) (src : Src) (r : Reg) (i : Nat) : (s.writeErr k src r i).pending = s.pending := by
  rw [State.writeErr, State.recordErr_pending]
@[simp] theorem State.recordErr_mem (k : ErrKind) (src : Src) (a : Nat) (w : Bool) : (s.recordErr k src a w).mem = s.mem := by
  by_cases h : ((s.setF k.bit 0 1).addF F.TOP_ERR_CNT_COUNT 0 1).on F.TOP_ERR_FIRST_VALID 0 = true
  · rw [recordErr_first s src a w h, State.addF_mem, State.setF_mem]
  · rw [recordErr_new s src a w h, State.setFs_mem, State.addF_mem, State.setF_mem]
@[simp] theorem State.writeErr_mem (k : ErrKind) (src : Src) (r : Reg) (i : Nat) : (s.writeErr k src r i).mem = s.mem := by
  rw [State.writeErr, State.recordErr_mem]
@[simp] theorem State.recordErr_ecc (k : ErrKind) (src : Src) (a : Nat) (w : Bool) : (s.recordErr k src a w).ecc = s.ecc := by
  by_cases h : ((s.setF k.bit 0 1).addF F.TOP_ERR_CNT_COUNT 0 1).on F.TOP_ERR_FIRST_VALID 0 = true
  · rw [recordErr_first s src a w h, State.addF_ecc, State.setF_ecc]
  · rw [recordErr_new s src a w h, State.setFs_ecc, State.addF_ecc, State.setF_ecc]
@[simp] theorem State.writeErr_ecc (k : ErrKind) (src : Src) (r : Reg) (i : Nat) : (s.writeErr k src r i).ecc = s.ecc := by
  rw [State.writeErr, State.recordErr_ecc]
@[simp] theorem State.recordErr_ctxs (k : ErrKind) (src : Src) (a : Nat) (w : Bool) : (s.recordErr k src a w).ctxs = s.ctxs := by
  by_cases h : ((s.setF k.bit 0 1).addF F.TOP_ERR_CNT_COUNT 0 1).on F.TOP_ERR_FIRST_VALID 0 = true
  · rw [recordErr_first s src a w h, State.addF_ctxs, State.setF_ctxs]
  · rw [recordErr_new s src a w h, State.setFs_ctxs, State.addF_ctxs, State.setF_ctxs]
@[simp] theorem State.writeErr_ctxs (k : ErrKind) (src : Src) (r : Reg) (i : Nat) : (s.writeErr k src r i).ctxs = s.ctxs := by
  rw [State.writeErr, State.recordErr_ctxs]
@[simp] theorem State.recordErr_tlb (k : ErrKind) (src : Src) (a : Nat) (w : Bool) : (s.recordErr k src a w).tlb = s.tlb := by
  by_cases h : ((s.setF k.bit 0 1).addF F.TOP_ERR_CNT_COUNT 0 1).on F.TOP_ERR_FIRST_VALID 0 = true
  · rw [recordErr_first s src a w h, State.addF_tlb, State.setF_tlb]
  · rw [recordErr_new s src a w h, State.setFs_tlb, State.addF_tlb, State.setF_tlb]
@[simp] theorem State.writeErr_tlb (k : ErrKind) (src : Src) (r : Reg) (i : Nat) : (s.writeErr k src r i).tlb = s.tlb := by
  rw [State.writeErr, State.recordErr_tlb]
@[simp] theorem State.recordErr_jobs (k : ErrKind) (src : Src) (a : Nat) (w : Bool) : (s.recordErr k src a w).jobs = s.jobs := by
  by_cases h : ((s.setF k.bit 0 1).addF F.TOP_ERR_CNT_COUNT 0 1).on F.TOP_ERR_FIRST_VALID 0 = true
  · rw [recordErr_first s src a w h, State.addF_jobs, State.setF_jobs]
  · rw [recordErr_new s src a w h, State.setFs_jobs, State.addF_jobs, State.setF_jobs]
@[simp] theorem State.writeErr_jobs (k : ErrKind) (src : Src) (r : Reg) (i : Nat) : (s.writeErr k src r i).jobs = s.jobs := by
  rw [State.writeErr, State.recordErr_jobs]
@[simp] theorem State.recordErr_nextJob (k : ErrKind) (src : Src) (a : Nat) (w : Bool) : (s.recordErr k src a w).nextJob = s.nextJob := by
  by_cases h : ((s.setF k.bit 0 1).addF F.TOP_ERR_CNT_COUNT 0 1).on F.TOP_ERR_FIRST_VALID 0 = true
  · rw [recordErr_first s src a w h, State.addF_nextJob, State.setF_nextJob]
  · rw [recordErr_new s src a w h, State.setFs_nextJob, State.addF_nextJob, State.setF_nextJob]
@[simp] theorem State.writeErr_nextJob (k : ErrKind) (src : Src) (r : Reg) (i : Nat) : (s.writeErr k src r i).nextJob = s.nextJob := by
  rw [State.writeErr, State.recordErr_nextJob]
@[simp] theorem State.recordErr_idxs (k : ErrKind) (src : Src) (a : Nat) (w : Bool) : (s.recordErr k src a w).idxs = s.idxs := by
  by_cases h : ((s.setF k.bit 0 1).addF F.TOP_ERR_CNT_COUNT 0 1).on F.TOP_ERR_FIRST_VALID 0 = true
  · rw [recordErr_first s src a w h, State.addF_idxs, State.setF_idxs]
  · rw [recordErr_new s src a w h, State.setFs_idxs, State.addF_idxs, State.setF_idxs]
@[simp] theorem State.writeErr_idxs (k : ErrKind) (src : Src) (r : Reg) (i : Nat) : (s.writeErr k src r i).idxs = s.idxs := by
  rw [State.writeErr, State.recordErr_idxs]
@[simp] theorem State.recordErr_press (k : ErrKind) (src : Src) (a : Nat) (w : Bool) : (s.recordErr k src a w).press = s.press := by
  by_cases h : ((s.setF k.bit 0 1).addF F.TOP_ERR_CNT_COUNT 0 1).on F.TOP_ERR_FIRST_VALID 0 = true
  · rw [recordErr_first s src a w h, State.addF_press, State.setF_press]
  · rw [recordErr_new s src a w h, State.setFs_press, State.addF_press, State.setF_press]
@[simp] theorem State.writeErr_press (k : ErrKind) (src : Src) (r : Reg) (i : Nat) : (s.writeErr k src r i).press = s.press := by
  rw [State.writeErr, State.recordErr_press]
@[simp] theorem State.recordErr_pressOut (k : ErrKind) (src : Src) (a : Nat) (w : Bool) : (s.recordErr k src a w).pressOut = s.pressOut := by
  by_cases h : ((s.setF k.bit 0 1).addF F.TOP_ERR_CNT_COUNT 0 1).on F.TOP_ERR_FIRST_VALID 0 = true
  · rw [recordErr_first s src a w h, State.addF_pressOut, State.setF_pressOut]
  · rw [recordErr_new s src a w h, State.setFs_pressOut, State.addF_pressOut, State.setF_pressOut]
@[simp] theorem State.writeErr_pressOut (k : ErrKind) (src : Src) (r : Reg) (i : Nat) : (s.writeErr k src r i).pressOut = s.pressOut := by
  rw [State.writeErr, State.recordErr_pressOut]
@[simp] theorem State.recordErr_toFree (k : ErrKind) (src : Src) (a : Nat) (w : Bool) : (s.recordErr k src a w).toFree = s.toFree := by
  by_cases h : ((s.setF k.bit 0 1).addF F.TOP_ERR_CNT_COUNT 0 1).on F.TOP_ERR_FIRST_VALID 0 = true
  · rw [recordErr_first s src a w h, State.addF_toFree, State.setF_toFree]
  · rw [recordErr_new s src a w h, State.setFs_toFree, State.addF_toFree, State.setF_toFree]
@[simp] theorem State.writeErr_toFree (k : ErrKind) (src : Src) (r : Reg) (i : Nat) : (s.writeErr k src r i).toFree = s.toFree := by
  rw [State.writeErr, State.recordErr_toFree]
@[simp] theorem State.recordErr_cellar (k : ErrKind) (src : Src) (a : Nat) (w : Bool) : (s.recordErr k src a w).cellar = s.cellar := by
  by_cases h : ((s.setF k.bit 0 1).addF F.TOP_ERR_CNT_COUNT 0 1).on F.TOP_ERR_FIRST_VALID 0 = true
  · rw [recordErr_first s src a w h, State.addF_cellar, State.setF_cellar]
  · rw [recordErr_new s src a w h, State.setFs_cellar, State.addF_cellar, State.setF_cellar]
@[simp] theorem State.writeErr_cellar (k : ErrKind) (src : Src) (r : Reg) (i : Nat) : (s.writeErr k src r i).cellar = s.cellar := by
  rw [State.writeErr, State.recordErr_cellar]
@[simp] theorem State.recordErr_pool (k : ErrKind) (src : Src) (a : Nat) (w : Bool) : (s.recordErr k src a w).pool = s.pool := by
  by_cases h : ((s.setF k.bit 0 1).addF F.TOP_ERR_CNT_COUNT 0 1).on F.TOP_ERR_FIRST_VALID 0 = true
  · rw [recordErr_first s src a w h, State.addF_pool, State.setF_pool]
  · rw [recordErr_new s src a w h, State.setFs_pool, State.addF_pool, State.setF_pool]
@[simp] theorem State.writeErr_pool (k : ErrKind) (src : Src) (r : Reg) (i : Nat) : (s.writeErr k src r i).pool = s.pool := by
  rw [State.writeErr, State.recordErr_pool]
@[simp] theorem State.recordErr_parts (k : ErrKind) (src : Src) (a : Nat) (w : Bool) : (s.recordErr k src a w).parts = s.parts := by
  by_cases h : ((s.setF k.bit 0 1).addF F.TOP_ERR_CNT_COUNT 0 1).on F.TOP_ERR_FIRST_VALID 0 = true
  · rw [recordErr_first s src a w h, State.addF_parts, State.setF_parts]
  · rw [recordErr_new s src a w h, State.setFs_parts, State.addF_parts, State.setF_parts]
@[simp] theorem State.writeErr_parts (k : ErrKind) (src : Src) (r : Reg) (i : Nat) : (s.writeErr k src r i).parts = s.parts := by
  rw [State.writeErr, State.recordErr_parts]
@[simp] theorem State.recordErr_prefetch (k : ErrKind) (src : Src) (a : Nat) (w : Bool) : (s.recordErr k src a w).prefetch = s.prefetch := by
  by_cases h : ((s.setF k.bit 0 1).addF F.TOP_ERR_CNT_COUNT 0 1).on F.TOP_ERR_FIRST_VALID 0 = true
  · rw [recordErr_first s src a w h, State.addF_prefetch, State.setF_prefetch]
  · rw [recordErr_new s src a w h, State.setFs_prefetch, State.addF_prefetch, State.setF_prefetch]
@[simp] theorem State.writeErr_prefetch (k : ErrKind) (src : Src) (r : Reg) (i : Nat) : (s.writeErr k src r i).prefetch = s.prefetch := by
  rw [State.writeErr, State.recordErr_prefetch]
@[simp] theorem State.recordErr_episodes (k : ErrKind) (src : Src) (a : Nat) (w : Bool) : (s.recordErr k src a w).episodes = s.episodes := by
  by_cases h : ((s.setF k.bit 0 1).addF F.TOP_ERR_CNT_COUNT 0 1).on F.TOP_ERR_FIRST_VALID 0 = true
  · rw [recordErr_first s src a w h, State.addF_episodes, State.setF_episodes]
  · rw [recordErr_new s src a w h, State.setFs_episodes, State.addF_episodes, State.setF_episodes]
@[simp] theorem State.writeErr_episodes (k : ErrKind) (src : Src) (r : Reg) (i : Nat) : (s.writeErr k src r i).episodes = s.episodes := by
  rw [State.writeErr, State.recordErr_episodes]
@[simp] theorem State.recordErr_arrivals (k : ErrKind) (src : Src) (a : Nat) (w : Bool) : (s.recordErr k src a w).arrivals = s.arrivals := by
  by_cases h : ((s.setF k.bit 0 1).addF F.TOP_ERR_CNT_COUNT 0 1).on F.TOP_ERR_FIRST_VALID 0 = true
  · rw [recordErr_first s src a w h, State.addF_arrivals, State.setF_arrivals]
  · rw [recordErr_new s src a w h, State.setFs_arrivals, State.addF_arrivals, State.setF_arrivals]
@[simp] theorem State.writeErr_arrivals (k : ErrKind) (src : Src) (r : Reg) (i : Nat) : (s.writeErr k src r i).arrivals = s.arrivals := by
  rw [State.writeErr, State.recordErr_arrivals]
@[simp] theorem State.recordErr_slow (k : ErrKind) (src : Src) (a : Nat) (w : Bool) : (s.recordErr k src a w).slow = s.slow := by
  by_cases h : ((s.setF k.bit 0 1).addF F.TOP_ERR_CNT_COUNT 0 1).on F.TOP_ERR_FIRST_VALID 0 = true
  · rw [recordErr_first s src a w h, State.addF_slow, State.setF_slow]
  · rw [recordErr_new s src a w h, State.setFs_slow, State.addF_slow, State.setF_slow]
@[simp] theorem State.writeErr_slow (k : ErrKind) (src : Src) (r : Reg) (i : Nat) : (s.writeErr k src r i).slow = s.slow := by
  rw [State.writeErr, State.recordErr_slow]
@[simp] theorem State.recordErr_slowAt (k : ErrKind) (src : Src) (a : Nat) (w : Bool) : (s.recordErr k src a w).slowAt = s.slowAt := by
  by_cases h : ((s.setF k.bit 0 1).addF F.TOP_ERR_CNT_COUNT 0 1).on F.TOP_ERR_FIRST_VALID 0 = true
  · rw [recordErr_first s src a w h, State.addF_slowAt, State.setF_slowAt]
  · rw [recordErr_new s src a w h, State.setFs_slowAt, State.addF_slowAt, State.setF_slowAt]
@[simp] theorem State.writeErr_slowAt (k : ErrKind) (src : Src) (r : Reg) (i : Nat) : (s.writeErr k src r i).slowAt = s.slowAt := by
  rw [State.writeErr, State.recordErr_slowAt]
@[simp] theorem State.recordErr_slowPer (k : ErrKind) (src : Src) (a : Nat) (w : Bool) : (s.recordErr k src a w).slowPer = s.slowPer := by
  by_cases h : ((s.setF k.bit 0 1).addF F.TOP_ERR_CNT_COUNT 0 1).on F.TOP_ERR_FIRST_VALID 0 = true
  · rw [recordErr_first s src a w h, State.addF_slowPer, State.setF_slowPer]
  · rw [recordErr_new s src a w h, State.setFs_slowPer, State.addF_slowPer, State.setF_slowPer]
@[simp] theorem State.writeErr_slowPer (k : ErrKind) (src : Src) (r : Reg) (i : Nat) : (s.writeErr k src r i).slowPer = s.slowPer := by
  rw [State.writeErr, State.recordErr_slowPer]
@[simp] theorem State.recordErr_fab (k : ErrKind) (src : Src) (a : Nat) (w : Bool) : (s.recordErr k src a w).fab = s.fab := by
  by_cases h : ((s.setF k.bit 0 1).addF F.TOP_ERR_CNT_COUNT 0 1).on F.TOP_ERR_FIRST_VALID 0 = true
  · rw [recordErr_first s src a w h, State.addF_fab, State.setF_fab]
  · rw [recordErr_new s src a w h, State.setFs_fab, State.addF_fab, State.setF_fab]
@[simp] theorem State.writeErr_fab (k : ErrKind) (src : Src) (r : Reg) (i : Nat) : (s.writeErr k src r i).fab = s.fab := by
  rw [State.writeErr, State.recordErr_fab]
@[simp] theorem State.recordErr_nl0 (k : ErrKind) (src : Src) (a : Nat) (w : Bool) : (s.recordErr k src a w).nl0 = s.nl0 := by
  by_cases h : ((s.setF k.bit 0 1).addF F.TOP_ERR_CNT_COUNT 0 1).on F.TOP_ERR_FIRST_VALID 0 = true
  · rw [recordErr_first s src a w h, State.addF_nl0, State.setF_nl0]
  · rw [recordErr_new s src a w h, State.setFs_nl0, State.addF_nl0, State.setF_nl0]
@[simp] theorem State.writeErr_nl0 (k : ErrKind) (src : Src) (r : Reg) (i : Nat) : (s.writeErr k src r i).nl0 = s.nl0 := by
  rw [State.writeErr, State.recordErr_nl0]
@[simp] theorem State.recordErr_nl1 (k : ErrKind) (src : Src) (a : Nat) (w : Bool) : (s.recordErr k src a w).nl1 = s.nl1 := by
  by_cases h : ((s.setF k.bit 0 1).addF F.TOP_ERR_CNT_COUNT 0 1).on F.TOP_ERR_FIRST_VALID 0 = true
  · rw [recordErr_first s src a w h, State.addF_nl1, State.setF_nl1]
  · rw [recordErr_new s src a w h, State.setFs_nl1, State.addF_nl1, State.setF_nl1]
@[simp] theorem State.writeErr_nl1 (k : ErrKind) (src : Src) (r : Reg) (i : Nat) : (s.writeErr k src r i).nl1 = s.nl1 := by
  rw [State.writeErr, State.recordErr_nl1]
@[simp] theorem State.recordErr_flt (k : ErrKind) (src : Src) (a : Nat) (w : Bool) : (s.recordErr k src a w).flt = s.flt := by
  by_cases h : ((s.setF k.bit 0 1).addF F.TOP_ERR_CNT_COUNT 0 1).on F.TOP_ERR_FIRST_VALID 0 = true
  · rw [recordErr_first s src a w h, State.addF_flt, State.setF_flt]
  · rw [recordErr_new s src a w h, State.setFs_flt, State.addF_flt, State.setF_flt]
@[simp] theorem State.writeErr_flt (k : ErrKind) (src : Src) (r : Reg) (i : Nat) : (s.writeErr k src r i).flt = s.flt := by
  rw [State.writeErr, State.recordErr_flt]
@[simp] theorem State.recordErr_sec (k : ErrKind) (src : Src) (a : Nat) (w : Bool) : (s.recordErr k src a w).sec = s.sec := by
  by_cases h : ((s.setF k.bit 0 1).addF F.TOP_ERR_CNT_COUNT 0 1).on F.TOP_ERR_FIRST_VALID 0 = true
  · rw [recordErr_first s src a w h, State.addF_sec, State.setF_sec]
  · rw [recordErr_new s src a w h, State.setFs_sec, State.addF_sec, State.setF_sec]
@[simp] theorem State.writeErr_sec (k : ErrKind) (src : Src) (r : Reg) (i : Nat) : (s.writeErr k src r i).sec = s.sec := by
  rw [State.writeErr, State.recordErr_sec]
@[simp] theorem State.recordErr_pwr (k : ErrKind) (src : Src) (a : Nat) (w : Bool) : (s.recordErr k src a w).pwr = s.pwr := by
  by_cases h : ((s.setF k.bit 0 1).addF F.TOP_ERR_CNT_COUNT 0 1).on F.TOP_ERR_FIRST_VALID 0 = true
  · rw [recordErr_first s src a w h, State.addF_pwr, State.setF_pwr]
  · rw [recordErr_new s src a w h, State.setFs_pwr, State.addF_pwr, State.setF_pwr]
@[simp] theorem State.writeErr_pwr (k : ErrKind) (src : Src) (r : Reg) (i : Nat) : (s.writeErr k src r i).pwr = s.pwr := by
  rw [State.writeErr, State.recordErr_pwr]
@[simp] theorem State.recordErr_pins (k : ErrKind) (src : Src) (a : Nat) (w : Bool) : (s.recordErr k src a w).pins = s.pins := by
  by_cases h : ((s.setF k.bit 0 1).addF F.TOP_ERR_CNT_COUNT 0 1).on F.TOP_ERR_FIRST_VALID 0 = true
  · rw [recordErr_first s src a w h, State.addF_pins, State.setF_pins]
  · rw [recordErr_new s src a w h, State.setFs_pins, State.addF_pins, State.setF_pins]
@[simp] theorem State.writeErr_pins (k : ErrKind) (src : Src) (r : Reg) (i : Nat) : (s.writeErr k src r i).pins = s.pins := by
  rw [State.writeErr, State.recordErr_pins]
@[simp] theorem State.recordErr_intP (k : ErrKind) (src : Src) (a : Nat) (w : Bool) : (s.recordErr k src a w).intP = s.intP := by
  by_cases h : ((s.setF k.bit 0 1).addF F.TOP_ERR_CNT_COUNT 0 1).on F.TOP_ERR_FIRST_VALID 0 = true
  · rw [recordErr_first s src a w h, State.addF_intP, State.setF_intP]
  · rw [recordErr_new s src a w h, State.setFs_intP, State.addF_intP, State.setF_intP]
@[simp] theorem State.writeErr_intP (k : ErrKind) (src : Src) (r : Reg) (i : Nat) : (s.writeErr k src r i).intP = s.intP := by
  rw [State.writeErr, State.recordErr_intP]
@[simp] theorem State.recordErr_free (k : ErrKind) (src : Src) (a : Nat) (w : Bool) : (s.recordErr k src a w).free = s.free := by
  by_cases h : ((s.setF k.bit 0 1).addF F.TOP_ERR_CNT_COUNT 0 1).on F.TOP_ERR_FIRST_VALID 0 = true
  · rw [recordErr_first s src a w h, State.addF_free, State.setF_free]
  · rw [recordErr_new s src a w h, State.setFs_free, State.addF_free, State.setF_free]
@[simp] theorem State.writeErr_free (k : ErrKind) (src : Src) (r : Reg) (i : Nat) : (s.writeErr k src r i).free = s.free := by
  rw [State.writeErr, State.recordErr_free]

/-- Registers that a recorded event leaves as they were (R529). -/
theorem State.recordErr_reg (k : ErrKind) (src : Src) (a : Nat) (w : Bool) (q : Reg) (j : Nat) (h1 : q.addr j ≠ Reg.topErrSum.addr 0)
    (h2 : q.addr j ≠ Reg.topErrCnt.addr 0) (h3 : q.addr j ≠ Reg.topErrFirst.addr 0) : (s.recordErr k src a w).reg q j = s.reg q j := by
  have e : k.bit.reg = .topErrSum := by cases k <;> rfl
  have one : ((s.setF k.bit 0 1).addF F.TOP_ERR_CNT_COUNT 0 1).reg q j = s.reg q j := by
    rw [State.reg_addF_of_ne _ _ h2, State.reg_setF_of_ne _ _ (by rw [e]; exact h1)]
  by_cases h : ((s.setF k.bit 0 1).addF F.TOP_ERR_CNT_COUNT 0 1).on F.TOP_ERR_FIRST_VALID 0 = true
  · rw [recordErr_first s src a w h, one]
  · rw [recordErr_new s src a w h, State.reg_setFs_of_ne, one]
    intro x m
    simp only [List.mem_cons, List.not_mem_nil, or_false] at m
    rcases m with m | m | m | m | m <;> subst m <;> exact h3

end Sys2Proof.Machine
end

