-- ==== Sys2Proof/Laws/Fields.lean ====
section
/-! SUPPORT. Laws of the fields of a register: they lie apart (R7, R10), so that a write or a read that treats them one after
another treats each for itself. -/
namespace Sys2Proof.Machine

/-- Fields within 64 bits, no two of which share a bit. -/
def fieldsApart : List Fld → Bool
  | [] => true
  | f :: l => decide (f.lo ≤ f.hi) && decide (f.hi < 64) && (l.all fun g => decide (f.hi < g.lo) || decide (g.hi < f.lo)) && fieldsApart l

theorem Reg.fields_apart (r : Reg) (i : Nat) : fieldsApart (r.fields i) = true := by
  cases r <;> first
    | (simp only [Reg.fields]; decide)
    | (simp only [Reg.fields]; split <;> decide)

/-- Every field of a register is a field of it: the register is its own, whatever the instance. -/
theorem Reg.fields_reg (r : Reg) (i : Nat) : ∀ f ∈ r.fields i, f.reg = r := by
  cases r <;> first
    | (simp only [Reg.fields]; decide)
    | (simp only [Reg.fields]; split <;> decide)

theorem fieldsApart_range {l : List Fld} (h : fieldsApart l = true) {f : Fld} (m : f ∈ l) : f.lo ≤ f.hi ∧ f.hi < 64 := by
  induction l with
  | nil => cases m
  | cons x l ih =>
    simp only [fieldsApart, Bool.and_eq_true, decide_eq_true_eq] at h
    rcases List.mem_cons.1 m with e | m
    · subst e; exact h.1.1
    · exact ih h.2 m

/-- What a pass over the fields of a register does, one field after another: each sets its own bits, or none. -/
def fieldStep (p : Fld → Nat → Option Nat) (a : Nat) (f : Fld) : Nat :=
  match p f a with
  | some x => setBits a f.hi f.lo x
  | none => a

def fieldPass (p : Fld → Nat → Option Nat) (l : List Fld) (a : Nat) : Nat := l.foldl (fieldStep p) a

theorem fieldPass_cons (p : Fld → Nat → Option Nat) (x : Fld) (l : List Fld) (a : Nat) :
    fieldPass p (x :: l) a = fieldPass p l (fieldStep p a x) := rfl

theorem bits_fieldStep_of_apart (p : Fld → Nat → Option Nat) {x : Fld} {hi lo : Nat} (h : x.lo ≤ x.hi) (d : hi < x.lo ∨ x.hi < lo)
    (a : Nat) : bits (fieldStep p a x) hi lo = bits a hi lo := by
  unfold fieldStep
  split
  · rw [bits_setBits_of_disjoint _ _ _ _ _ _ h d]
  · rfl

/-- Bits that no field of the pass holds stay. -/
theorem bits_fieldPass_of_apart (p : Fld → Nat → Option Nat) (hi lo : Nat) {l : List Fld} (h : fieldsApart l = true)
    (d : ∀ g ∈ l, hi < g.lo ∨ g.hi < lo) (a : Nat) : bits (fieldPass p l a) hi lo = bits a hi lo := by
  induction l generalizing a with
  | nil => rfl
  | cons x l ih =>
    have hx := fieldsApart_range h (List.mem_cons_self (a := x) (l := l))
    simp only [fieldsApart, Bool.and_eq_true] at h
    rw [fieldPass_cons, ih h.2 fun g m => d g (List.mem_cons_of_mem _ m), bits_fieldStep_of_apart p hx.1 (d x List.mem_cons_self)]

theorem testBit_fieldPass_of_apart (p : Fld → Nat → Option Nat) (k : Nat) {l : List Fld} (h : fieldsApart l = true)
    (d : ∀ g ∈ l, ¬ (g.lo ≤ k ∧ k ≤ g.hi)) (a : Nat) : (fieldPass p l a).testBit k = a.testBit k := by
  have e := bits_fieldPass_of_apart p k k h (fun g m => by have := d g m; omega) a
  have t : ∀ w : Nat, bits w k k = if w.testBit k then 1 else 0 := fun w => by
    unfold bits
    rw [Nat.testBit_eq_decide_div_mod_eq, show k + 1 - k = 1 by omega]
    have := Nat.mod_two_eq_zero_or_one (w / 2 ^ k)
    rcases this with h | h <;> simp [h]
  rw [t, t] at e
  revert e
  cases (fieldPass p l a).testBit k <;> cases a.testBit k <;> simp

/-- A pass whose action at a field looks at that field alone gives each field its own value. -/
theorem bits_fieldPass (p : Fld → Nat → Option Nat) (hp : ∀ f a b, bits a f.hi f.lo = bits b f.hi f.lo → p f a = p f b)
    {l : List Fld} (h : fieldsApart l = true) {f : Fld} (m : f ∈ l) (a : Nat) :
    bits (fieldPass p l a) f.hi f.lo = match p f a with | some x => x % 2 ^ (f.hi + 1 - f.lo) | none => bits a f.hi f.lo := by
  induction l generalizing a with
  | nil => cases m
  | cons x l ih =>
    have hx := fieldsApart_range h (List.mem_cons_self (a := x) (l := l))
    have h0 := h
    simp only [fieldsApart, Bool.and_eq_true, List.all_eq_true, Bool.or_eq_true, decide_eq_true_eq] at h
    rw [fieldPass_cons]
    rcases List.mem_cons.1 m with e | m
    · subst e
      rw [bits_fieldPass_of_apart p _ _ h.2 fun g k => h.1.2 g k]
      unfold fieldStep
      split
      · rw [bits_setBits _ _ _ _ hx.1]
      · rfl
    · have dis := h.1.2 f m
      have eb : bits (fieldStep p a x) f.hi f.lo = bits a f.hi f.lo := bits_fieldStep_of_apart p hx.1 (by omega) a
      rw [ih h.2 m, hp f _ a eb, eb]

/-- A pass stays within 64 bits. -/
theorem fieldPass_lt (p : Fld → Nat → Option Nat) {l : List Fld} (h : fieldsApart l = true) {a : Nat} (ha : a < 2 ^ 64) :
    fieldPass p l a < 2 ^ 64 := by
  induction l generalizing a with
  | nil => exact ha
  | cons x l ih =>
    have hx := fieldsApart_range h (List.mem_cons_self (a := x) (l := l))
    simp only [fieldsApart, Bool.and_eq_true] at h
    rw [fieldPass_cons]
    apply ih h.2
    unfold fieldStep
    split
    · exact setBits_lt _ _ _ _ _ hx.1 hx.2 ha
    · exact ha

/-- A write is a pass over the fields of its register (R10). -/
theorem Reg.merged_eq_fieldPass (r : Reg) (i old w mask : Nat) : r.merged i old w mask = fieldPass (fun f _ =>
    match f.acc with
    | .rw => if f.rule.allows (bits (clearBits old mask + (w &&& mask)) f.hi f.lo) then
        some (bits (clearBits old mask + (w &&& mask)) f.hi f.lo) else none
    | .w1c => some (clearBits (bits old f.hi f.lo) (bits (w &&& mask) f.hi f.lo))
    | _ => none) (r.fields i) old := by
  unfold Reg.merged fieldPass
  congr 1
  funext a f
  obtain ⟨reg, hi, lo, acc, reset, rule⟩ := f
  cases acc <;> dsimp only [Fld.merge, fieldStep]
  cases rule.allows (bits (clearBits old mask + (w &&& mask)) hi lo) <;> rfl

/-- What a read clears is a pass over the fields of its register (R10). -/
theorem Reg.without_eq_fieldPass (r : Reg) (i : Nat) (a : Access) (mask v : Nat) : r.without i a mask v = fieldPass (fun f v =>
    if f.acc == a then some (clearBits (bits v f.hi f.lo) (bits mask f.hi f.lo)) else none) (r.fields i) v := by
  unfold Reg.without fieldPass
  congr 1
  funext v f
  unfold fieldStep
  dsimp only
  cases f.acc == a <;> rfl

theorem bits_lt_field (w hi lo : Nat) : bits w hi lo < 2 ^ (hi + 1 - lo) := Nat.mod_lt _ (Nat.two_pow_pos _)

theorem clearBits_le (w m : Nat) : clearBits w m ≤ w := Nat.sub_le _ _

/-! Several fields of one register set at once -/

theorem State.f_setFs_of_apart (s : State) (i : Nat) {l : List (Fld × Nat)} (y : Fld) (hr : ∀ x ∈ l, x.1.reg = y.reg)
    (a : fieldsApart (l.map (·.1)) = true) (d : ∀ x ∈ l, y.hi < x.1.lo ∨ x.1.hi < y.lo) : (s.setFs i l).f y i = s.f y i := by
  induction l generalizing s with
  | nil => rfl
  | cons x l ih =>
    obtain ⟨x, v⟩ := x
    have hx := fieldsApart_range a (f := x) (by simp)
    simp only [List.map_cons, fieldsApart, Bool.and_eq_true] at a
    rw [State.setFs_cons, ih _ (fun z m => hr z (List.mem_cons_of_mem _ m)) a.2 (fun z m => d z (List.mem_cons_of_mem _ m)),
      State.f_setF_beside s v (hr (x, v) List.mem_cons_self).symm hx.1 hx.2 (d (x, v) List.mem_cons_self)]

theorem State.f_setFs_of_mem (s : State) (i : Nat) {l : List (Fld × Nat)} (r : Reg) (hr : ∀ x ∈ l, x.1.reg = r)
    (a : fieldsApart (l.map (·.1)) = true) {y : Fld} {v : Nat} (m : (y, v) ∈ l) :
    (s.setFs i l).f y i = v % 2 ^ (y.hi + 1 - y.lo) := by
  induction l generalizing s with
  | nil => cases m
  | cons x l ih =>
    obtain ⟨x, w⟩ := x
    have a0 := a
    have hx := fieldsApart_range a (f := x) (by simp)
    simp only [List.map_cons, fieldsApart, Bool.and_eq_true, List.all_eq_true, Bool.or_eq_true, decide_eq_true_eq] at a
    rw [State.setFs_cons]
    rcases List.mem_cons.1 m with e | m
    · obtain ⟨rfl, rfl⟩ := Prod.mk.inj e
      rw [State.f_setFs_of_apart _ _ _ (fun z k => (hr z (List.mem_cons_of_mem _ k)).trans (hr (y, v) List.mem_cons_self).symm) a.2
        (fun z k => a.1.2 z.1 (List.mem_map_of_mem k)), State.f_setF_self _ _ _ _ hx.1 hx.2]
    · exact ih _ (fun z k => hr z (List.mem_cons_of_mem _ k)) a.2 m

end Sys2Proof.Machine
end

