-- ==== Sys2Proof/Laws/Memory.lean ====
section
/-! SUPPORT. Laws of memory: every operation keeps the canonical form, changes memory and its check codes alone, and a write of
bytes leaves every other place as it was (R100 to R102, R118 to R120). -/
namespace Sys2Proof.Machine

variable (s : State)

/-! The canonical form -/

theorem memPut_wf {m : List Host.Cell} (p : Nat) (b : Byte) (h : Memory.wf m = true) : Memory.wf (memPut m p b) = true :=
  SMap.wf_put 0#8 m p b h

theorem putP_wf (p : Nat) (d : Bytes) (h : Memory.wf s.mem = true) : Memory.wf (s.putP p d).mem = true := by
  induction d generalizing s p with
  | nil => exact h
  | cons b r ih => exact ih _ _ (memPut_wf p b h)

theorem putAll_wf (a : Nat) (d : Bytes) (h : Memory.wf s.mem = true) : Memory.wf (s.putAll a d).mem = true := by
  induction d generalizing s a with
  | nil => exact h
  | cons b r ih => exact ih _ _ (memPut_wf _ b h)

theorem repairCw_wf (w : Nat) (h : Memory.wf s.mem = true) : Memory.wf (s.repairCw w).mem = true := by
  unfold State.repairCw
  split
  · exact h
  · exact putP_wf s _ _ h
  · exact h

theorem foldl_repairCw_wf (l : List Nat) (h : Memory.wf s.mem = true) : Memory.wf (l.foldl State.repairCw s).mem = true := by
  induction l generalizing s with
  | nil => exact h
  | cons w l ih => exact ih _ (repairCw_wf s w h)

theorem foldl_setSyn_mem {α : Type} (l : List α) (g : State → α → Nat) (x : Syn) : (l.foldl (fun s k => s.setSyn (g s k) x) s).mem = s.mem := by
  induction l generalizing s with
  | nil => rfl
  | cons w l ih => rw [List.foldl_cons, ih, State.setSyn_mem]

theorem store_wf (a : Nat) (d : Bytes) (h : Memory.wf s.mem = true) : Memory.wf (s.store a d).mem = true := by
  unfold State.store
  split
  · exact putAll_wf s a d h
  · dsimp only
    rw [foldl_setSyn_mem]
    exact putAll_wf _ _ _ (foldl_repairCw_wf s _ h)

theorem storeN_wf (a n v : Nat) (h : Memory.wf s.mem = true) : Memory.wf (s.storeN a n v).mem = true := store_wf s _ _ h

theorem zeroRange_wf (a len : Nat) (h : Memory.wf s.mem = true) : Memory.wf (s.zeroRange a len).mem = true :=
  SMap.wf_filter 0#8 s.mem _ h

theorem blkWrite_wf (u b off : Nat) (d : Bytes) (h : Memory.wf s.mem = true) : Memory.wf (s.blkWrite u b off d).mem = true := by
  unfold State.blkWrite
  split
  · exact putP_wf s _ _ h
  · dsimp only
    rw [foldl_setSyn_mem]
    exact putP_wf _ _ _ (foldl_repairCw_wf s _ h)

theorem poisonAt_mem (a len : Nat) : (s.poisonAt a len).mem = s.mem := foldl_setSyn_mem s _ (fun _ w => w) _

theorem flipBit_wf (w sym b : Nat) (h : Memory.wf s.mem = true) : Memory.wf (s.flipBit w sym b).mem = true := by
  unfold State.flipBit
  exact putP_wf _ _ _ h

/-! Nothing else changes -/

@[simp] theorem State.putP_pending (p : Nat) (d : Bytes) : (s.putP p d).pending = s.pending := by
  induction d generalizing s p with
  | nil => rfl
  | cons b r ih => rw [State.putP, ih]
@[simp] theorem State.putAll_pending (a : Nat) (d : Bytes) : (s.putAll a d).pending = s.pending := by
  induction d generalizing s a with
  | nil => rfl
  | cons b r ih => rw [State.putAll, ih]
@[simp] theorem State.repairCw_pending (w : Nat) : (s.repairCw w).pending = s.pending := by
  unfold State.repairCw
  split
  · rfl
  · rw [State.setSyn_pending, State.putP_pending]
  · rfl
theorem State.foldRepair_pending (l : List Nat) : (l.foldl State.repairCw s).pending = s.pending := by
  induction l generalizing s with
  | nil => rfl
  | cons w l ih => rw [List.foldl_cons, ih, State.repairCw_pending]
theorem State.foldSyn_pending {α : Type} (l : List α) (g : State → α → Nat) (x : Syn) : (l.foldl (fun s k => s.setSyn (g s k) x) s).pending = s.pending := by
  induction l generalizing s with
  | nil => rfl
  | cons w l ih => rw [List.foldl_cons, ih, State.setSyn_pending]
@[simp] theorem State.store_pending (a : Nat) (d : Bytes) : (s.store a d).pending = s.pending := by
  unfold State.store
  split
  · rw [State.putAll_pending]
  · dsimp only
    rw [State.foldSyn_pending _ _ (fun s k => s.phys (32 * (ceilDiv a 32 + k)) / 32), State.putAll_pending, State.foldRepair_pending]
@[simp] theorem State.storeN_pending (a n v : Nat) : (s.storeN a n v).pending = s.pending := by rw [State.storeN, State.store_pending]
@[simp] theorem State.zeroRange_pending (a len : Nat) : (s.zeroRange a len).pending = s.pending := rfl
@[simp] theorem State.poisonAt_pending (a len : Nat) : (s.poisonAt a len).pending = s.pending := State.foldSyn_pending s _ (fun _ w => w) _
@[simp] theorem State.putP_regs (p : Nat) (d : Bytes) : (s.putP p d).regs = s.regs := by
  induction d generalizing s p with
  | nil => rfl
  | cons b r ih => rw [State.putP, ih]
@[simp] theorem State.putAll_regs (a : Nat) (d : Bytes) : (s.putAll a d).regs = s.regs := by
  induction d generalizing s a with
  | nil => rfl
  | cons b r ih => rw [State.putAll, ih]
@[simp] theorem State.repairCw_regs (w : Nat) : (s.repairCw w).regs = s.regs := by
  unfold State.repairCw
  split
  · rfl
  · rw [State.setSyn_regs, State.putP_regs]
  · rfl
theorem State.foldRepair_regs (l : List Nat) : (l.foldl State.repairCw s).regs = s.regs := by
  induction l generalizing s with
  | nil => rfl
  | cons w l ih => rw [List.foldl_cons, ih, State.repairCw_regs]
theorem State.foldSyn_regs {α : Type} (l : List α) (g : State → α → Nat) (x : Syn) : (l.foldl (fun s k => s.setSyn (g s k) x) s).regs = s.regs := by
  induction l generalizing s with
  | nil => rfl
  | cons w l ih => rw [List.foldl_cons, ih, State.setSyn_regs]
@[simp] theorem State.store_regs (a : Nat) (d : Bytes) : (s.store a d).regs = s.regs := by
  unfold State.store
  split
  · rw [State.putAll_regs]
  · dsimp only
    rw [State.foldSyn_regs _ _ (fun s k => s.phys (32 * (ceilDiv a 32 + k)) / 32), State.putAll_regs, State.foldRepair_regs]
@[simp] theorem State.storeN_regs (a n v : Nat) : (s.storeN a n v).regs = s.regs := by rw [State.storeN, State.store_regs]
@[simp] theorem State.zeroRange_regs (a len : Nat) : (s.zeroRange a len).regs = s.regs := rfl
@[simp] theorem State.poisonAt_regs (a len : Nat) : (s.poisonAt a len).regs = s.regs := State.foldSyn_regs s _ (fun _ w => w) _
@[simp] theorem State.putP_ctxs (p : Nat) (d : Bytes) : (s.putP p d).ctxs = s.ctxs := by
  induction d generalizing s p with
  | nil => rfl
  | cons b r ih => rw [State.putP, ih]
@[simp] theorem State.putAll_ctxs (a : Nat) (d : Bytes) : (s.putAll a d).ctxs = s.ctxs := by
  induction d generalizing s a with
  | nil => rfl
  | cons b r ih => rw [State.putAll, ih]
@[simp] theorem State.repairCw_ctxs (w : Nat) : (s.repairCw w).ctxs = s.ctxs := by
  unfold State.repairCw
  split
  · rfl
  · rw [State.setSyn_ctxs, State.putP_ctxs]
  · rfl
theorem State.foldRepair_ctxs (l : List Nat) : (l.foldl State.repairCw s).ctxs = s.ctxs := by
  induction l generalizing s with
  | nil => rfl
  | cons w l ih => rw [List.foldl_cons, ih, State.repairCw_ctxs]
theorem State.foldSyn_ctxs {α : Type} (l : List α) (g : State → α → Nat) (x : Syn) : (l.foldl (fun s k => s.setSyn (g s k) x) s).ctxs = s.ctxs := by
  induction l generalizing s with
  | nil => rfl
  | cons w l ih => rw [List.foldl_cons, ih, State.setSyn_ctxs]
@[simp] theorem State.store_ctxs (a : Nat) (d : Bytes) : (s.store a d).ctxs = s.ctxs := by
  unfold State.store
  split
  · rw [State.putAll_ctxs]
  · dsimp only
    rw [State.foldSyn_ctxs _ _ (fun s k => s.phys (32 * (ceilDiv a 32 + k)) / 32), State.putAll_ctxs, State.foldRepair_ctxs]
@[simp] theorem State.storeN_ctxs (a n v : Nat) : (s.storeN a n v).ctxs = s.ctxs := by rw [State.storeN, State.store_ctxs]
@[simp] theorem State.zeroRange_ctxs (a len : Nat) : (s.zeroRange a len).ctxs = s.ctxs := rfl
@[simp] theorem State.poisonAt_ctxs (a len : Nat) : (s.poisonAt a len).ctxs = s.ctxs := State.foldSyn_ctxs s _ (fun _ w => w) _
@[simp] theorem State.putP_tlb (p : Nat) (d : Bytes) : (s.putP p d).tlb = s.tlb := by
  induction d generalizing s p with
  | nil => rfl
  | cons b r ih => rw [State.putP, ih]
@[simp] theorem State.putAll_tlb (a : Nat) (d : Bytes) : (s.putAll a d).tlb = s.tlb := by
  induction d generalizing s a with
  | nil => rfl
  | cons b r ih => rw [State.putAll, ih]
@[simp] theorem State.repairCw_tlb (w : Nat) : (s.repairCw w).tlb = s.tlb := by
  unfold State.repairCw
  split
  · rfl
  · rw [State.setSyn_tlb, State.putP_tlb]
  · rfl
theorem State.foldRepair_tlb (l : List Nat) : (l.foldl State.repairCw s).tlb = s.tlb := by
  induction l generalizing s with
  | nil => rfl
  | cons w l ih => rw [List.foldl_cons, ih, State.repairCw_tlb]
theorem State.foldSyn_tlb {α : Type} (l : List α) (g : State → α → Nat) (x : Syn) : (l.foldl (fun s k => s.setSyn (g s k) x) s).tlb = s.tlb := by
  induction l generalizing s with
  | nil => rfl
  | cons w l ih => rw [List.foldl_cons, ih, State.setSyn_tlb]
@[simp] theorem State.store_tlb (a : Nat) (d : Bytes) : (s.store a d).tlb = s.tlb := by
  unfold State.store
  split
  · rw [State.putAll_tlb]
  · dsimp only
    rw [State.foldSyn_tlb _ _ (fun s k => s.phys (32 * (ceilDiv a 32 + k)) / 32), State.putAll_tlb, State.foldRepair_tlb]
@[simp] theorem State.storeN_tlb (a n v : Nat) : (s.storeN a n v).tlb = s.tlb := by rw [State.storeN, State.store_tlb]
@[simp] theorem State.zeroRange_tlb (a len : Nat) : (s.zeroRange a len).tlb = s.tlb := rfl
@[simp] theorem State.poisonAt_tlb (a len : Nat) : (s.poisonAt a len).tlb = s.tlb := State.foldSyn_tlb s _ (fun _ w => w) _
@[simp] theorem State.putP_jobs (p : Nat) (d : Bytes) : (s.putP p d).jobs = s.jobs := by
  induction d generalizing s p with
  | nil => rfl
  | cons b r ih => rw [State.putP, ih]
@[simp] theorem State.putAll_jobs (a : Nat) (d : Bytes) : (s.putAll a d).jobs = s.jobs := by
  induction d generalizing s a with
  | nil => rfl
  | cons b r ih => rw [State.putAll, ih]
@[simp] theorem State.repairCw_jobs (w : Nat) : (s.repairCw w).jobs = s.jobs := by
  unfold State.repairCw
  split
  · rfl
  · rw [State.setSyn_jobs, State.putP_jobs]
  · rfl
theorem State.foldRepair_jobs (l : List Nat) : (l.foldl State.repairCw s).jobs = s.jobs := by
  induction l generalizing s with
  | nil => rfl
  | cons w l ih => rw [List.foldl_cons, ih, State.repairCw_jobs]
theorem State.foldSyn_jobs {α : Type} (l : List α) (g : State → α → Nat) (x : Syn) : (l.foldl (fun s k => s.setSyn (g s k) x) s).jobs = s.jobs := by
  induction l generalizing s with
  | nil => rfl
  | cons w l ih => rw [List.foldl_cons, ih, State.setSyn_jobs]
@[simp] theorem State.store_jobs (a : Nat) (d : Bytes) : (s.store a d).jobs = s.jobs := by
  unfold State.store
  split
  · rw [State.putAll_jobs]
  · dsimp only
    rw [State.foldSyn_jobs _ _ (fun s k => s.phys (32 * (ceilDiv a 32 + k)) / 32), State.putAll_jobs, State.foldRepair_jobs]
@[simp] theorem State.storeN_jobs (a n v : Nat) : (s.storeN a n v).jobs = s.jobs := by rw [State.storeN, State.store_jobs]
@[simp] theorem State.zeroRange_jobs (a len : Nat) : (s.zeroRange a len).jobs = s.jobs := rfl
@[simp] theorem State.poisonAt_jobs (a len : Nat) : (s.poisonAt a len).jobs = s.jobs := State.foldSyn_jobs s _ (fun _ w => w) _
@[simp] theorem State.putP_nextJob (p : Nat) (d : Bytes) : (s.putP p d).nextJob = s.nextJob := by
  induction d generalizing s p with
  | nil => rfl
  | cons b r ih => rw [State.putP, ih]
@[simp] theorem State.putAll_nextJob (a : Nat) (d : Bytes) : (s.putAll a d).nextJob = s.nextJob := by
  induction d generalizing s a with
  | nil => rfl
  | cons b r ih => rw [State.putAll, ih]
@[simp] theorem State.repairCw_nextJob (w : Nat) : (s.repairCw w).nextJob = s.nextJob := by
  unfold State.repairCw
  split
  · rfl
  · rw [State.setSyn_nextJob, State.putP_nextJob]
  · rfl
theorem State.foldRepair_nextJob (l : List Nat) : (l.foldl State.repairCw s).nextJob = s.nextJob := by
  induction l generalizing s with
  | nil => rfl
  | cons w l ih => rw [List.foldl_cons, ih, State.repairCw_nextJob]
theorem State.foldSyn_nextJob {α : Type} (l : List α) (g : State → α → Nat) (x : Syn) : (l.foldl (fun s k => s.setSyn (g s k) x) s).nextJob = s.nextJob := by
  induction l generalizing s with
  | nil => rfl
  | cons w l ih => rw [List.foldl_cons, ih, State.setSyn_nextJob]
@[simp] theorem State.store_nextJob (a : Nat) (d : Bytes) : (s.store a d).nextJob = s.nextJob := by
  unfold State.store
  split
  · rw [State.putAll_nextJob]
  · dsimp only
    rw [State.foldSyn_nextJob _ _ (fun s k => s.phys (32 * (ceilDiv a 32 + k)) / 32), State.putAll_nextJob, State.foldRepair_nextJob]
@[simp] theorem State.storeN_nextJob (a n v : Nat) : (s.storeN a n v).nextJob = s.nextJob := by rw [State.storeN, State.store_nextJob]
@[simp] theorem State.zeroRange_nextJob (a len : Nat) : (s.zeroRange a len).nextJob = s.nextJob := rfl
@[simp] theorem State.poisonAt_nextJob (a len : Nat) : (s.poisonAt a len).nextJob = s.nextJob := State.foldSyn_nextJob s _ (fun _ w => w) _
@[simp] theorem State.putP_idxs (p : Nat) (d : Bytes) : (s.putP p d).idxs = s.idxs := by
  induction d generalizing s p with
  | nil => rfl
  | cons b r ih => rw [State.putP, ih]
@[simp] theorem State.putAll_idxs (a : Nat) (d : Bytes) : (s.putAll a d).idxs = s.idxs := by
  induction d generalizing s a with
  | nil => rfl
  | cons b r ih => rw [State.putAll, ih]
@[simp] theorem State.repairCw_idxs (w : Nat) : (s.repairCw w).idxs = s.idxs := by
  unfold State.repairCw
  split
  · rfl
  · rw [State.setSyn_idxs, State.putP_idxs]
  · rfl
theorem State.foldRepair_idxs (l : List Nat) : (l.foldl State.repairCw s).idxs = s.idxs := by
  induction l generalizing s with
  | nil => rfl
  | cons w l ih => rw [List.foldl_cons, ih, State.repairCw_idxs]
theorem State.foldSyn_idxs {α : Type} (l : List α) (g : State → α → Nat) (x : Syn) : (l.foldl (fun s k => s.setSyn (g s k) x) s).idxs = s.idxs := by
  induction l generalizing s with
  | nil => rfl
  | cons w l ih => rw [List.foldl_cons, ih, State.setSyn_idxs]
@[simp] theorem State.store_idxs (a : Nat) (d : Bytes) : (s.store a d).idxs = s.idxs := by
  unfold State.store
  split
  · rw [State.putAll_idxs]
  · dsimp only
    rw [State.foldSyn_idxs _ _ (fun s k => s.phys (32 * (ceilDiv a 32 + k)) / 32), State.putAll_idxs, State.foldRepair_idxs]
@[simp] theorem State.storeN_idxs (a n v : Nat) : (s.storeN a n v).idxs = s.idxs := by rw [State.storeN, State.store_idxs]
@[simp] theorem State.zeroRange_idxs (a len : Nat) : (s.zeroRange a len).idxs = s.idxs := rfl
@[simp] theorem State.poisonAt_idxs (a len : Nat) : (s.poisonAt a len).idxs = s.idxs := State.foldSyn_idxs s _ (fun _ w => w) _
@[simp] theorem State.putP_press (p : Nat) (d : Bytes) : (s.putP p d).press = s.press := by
  induction d generalizing s p with
  | nil => rfl
  | cons b r ih => rw [State.putP, ih]
@[simp] theorem State.putAll_press (a : Nat) (d : Bytes) : (s.putAll a d).press = s.press := by
  induction d generalizing s a with
  | nil => rfl
  | cons b r ih => rw [State.putAll, ih]
@[simp] theorem State.repairCw_press (w : Nat) : (s.repairCw w).press = s.press := by
  unfold State.repairCw
  split
  · rfl
  · rw [State.setSyn_press, State.putP_press]
  · rfl
theorem State.foldRepair_press (l : List Nat) : (l.foldl State.repairCw s).press = s.press := by
  induction l generalizing s with
  | nil => rfl
  | cons w l ih => rw [List.foldl_cons, ih, State.repairCw_press]
theorem State.foldSyn_press {α : Type} (l : List α) (g : State → α → Nat) (x : Syn) : (l.foldl (fun s k => s.setSyn (g s k) x) s).press = s.press := by
  induction l generalizing s with
  | nil => rfl
  | cons w l ih => rw [List.foldl_cons, ih, State.setSyn_press]
@[simp] theorem State.store_press (a : Nat) (d : Bytes) : (s.store a d).press = s.press := by
  unfold State.store
  split
  · rw [State.putAll_press]
  · dsimp only
    rw [State.foldSyn_press _ _ (fun s k => s.phys (32 * (ceilDiv a 32 + k)) / 32), State.putAll_press, State.foldRepair_press]
@[simp] theorem State.storeN_press (a n v : Nat) : (s.storeN a n v).press = s.press := by rw [State.storeN, State.store_press]
@[simp] theorem State.zeroRange_press (a len : Nat) : (s.zeroRange a len).press = s.press := rfl
@[simp] theorem State.poisonAt_press (a len : Nat) : (s.poisonAt a len).press = s.press := State.foldSyn_press s _ (fun _ w => w) _
@[simp] theorem State.putP_pressOut (p : Nat) (d : Bytes) : (s.putP p d).pressOut = s.pressOut := by
  induction d generalizing s p with
  | nil => rfl
  | cons b r ih => rw [State.putP, ih]
@[simp] theorem State.putAll_pressOut (a : Nat) (d : Bytes) : (s.putAll a d).pressOut = s.pressOut := by
  induction d generalizing s a with
  | nil => rfl
  | cons b r ih => rw [State.putAll, ih]
@[simp] theorem State.repairCw_pressOut (w : Nat) : (s.repairCw w).pressOut = s.pressOut := by
  unfold State.repairCw
  split
  · rfl
  · rw [State.setSyn_pressOut, State.putP_pressOut]
  · rfl
theorem State.foldRepair_pressOut (l : List Nat) : (l.foldl State.repairCw s).pressOut = s.pressOut := by
  induction l generalizing s with
  | nil => rfl
  | cons w l ih => rw [List.foldl_cons, ih, State.repairCw_pressOut]
theorem State.foldSyn_pressOut {α : Type} (l : List α) (g : State → α → Nat) (x : Syn) : (l.foldl (fun s k => s.setSyn (g s k) x) s).pressOut = s.pressOut := by
  induction l generalizing s with
  | nil => rfl
  | cons w l ih => rw [List.foldl_cons, ih, State.setSyn_pressOut]
@[simp] theorem State.store_pressOut (a : Nat) (d : Bytes) : (s.store a d).pressOut = s.pressOut := by
  unfold State.store
  split
  · rw [State.putAll_pressOut]
  · dsimp only
    rw [State.foldSyn_pressOut _ _ (fun s k => s.phys (32 * (ceilDiv a 32 + k)) / 32), State.putAll_pressOut, State.foldRepair_pressOut]
@[simp] theorem State.storeN_pressOut (a n v : Nat) : (s.storeN a n v).pressOut = s.pressOut := by rw [State.storeN, State.store_pressOut]
@[simp] theorem State.zeroRange_pressOut (a len : Nat) : (s.zeroRange a len).pressOut = s.pressOut := rfl
@[simp] theorem State.poisonAt_pressOut (a len : Nat) : (s.poisonAt a len).pressOut = s.pressOut := State.foldSyn_pressOut s _ (fun _ w => w) _
@[simp] theorem State.putP_toFree (p : Nat) (d : Bytes) : (s.putP p d).toFree = s.toFree := by
  induction d generalizing s p with
  | nil => rfl
  | cons b r ih => rw [State.putP, ih]
@[simp] theorem State.putAll_toFree (a : Nat) (d : Bytes) : (s.putAll a d).toFree = s.toFree := by
  induction d generalizing s a with
  | nil => rfl
  | cons b r ih => rw [State.putAll, ih]
@[simp] theorem State.repairCw_toFree (w : Nat) : (s.repairCw w).toFree = s.toFree := by
  unfold State.repairCw
  split
  · rfl
  · rw [State.setSyn_toFree, State.putP_toFree]
  · rfl
theorem State.foldRepair_toFree (l : List Nat) : (l.foldl State.repairCw s).toFree = s.toFree := by
  induction l generalizing s with
  | nil => rfl
  | cons w l ih => rw [List.foldl_cons, ih, State.repairCw_toFree]
theorem State.foldSyn_toFree {α : Type} (l : List α) (g : State → α → Nat) (x : Syn) : (l.foldl (fun s k => s.setSyn (g s k) x) s).toFree = s.toFree := by
  induction l generalizing s with
  | nil => rfl
  | cons w l ih => rw [List.foldl_cons, ih, State.setSyn_toFree]
@[simp] theorem State.store_toFree (a : Nat) (d : Bytes) : (s.store a d).toFree = s.toFree := by
  unfold State.store
  split
  · rw [State.putAll_toFree]
  · dsimp only
    rw [State.foldSyn_toFree _ _ (fun s k => s.phys (32 * (ceilDiv a 32 + k)) / 32), State.putAll_toFree, State.foldRepair_toFree]
@[simp] theorem State.storeN_toFree (a n v : Nat) : (s.storeN a n v).toFree = s.toFree := by rw [State.storeN, State.store_toFree]
@[simp] theorem State.zeroRange_toFree (a len : Nat) : (s.zeroRange a len).toFree = s.toFree := rfl
@[simp] theorem State.poisonAt_toFree (a len : Nat) : (s.poisonAt a len).toFree = s.toFree := State.foldSyn_toFree s _ (fun _ w => w) _
@[simp] theorem State.putP_cellar (p : Nat) (d : Bytes) : (s.putP p d).cellar = s.cellar := by
  induction d generalizing s p with
  | nil => rfl
  | cons b r ih => rw [State.putP, ih]
@[simp] theorem State.putAll_cellar (a : Nat) (d : Bytes) : (s.putAll a d).cellar = s.cellar := by
  induction d generalizing s a with
  | nil => rfl
  | cons b r ih => rw [State.putAll, ih]
@[simp] theorem State.repairCw_cellar (w : Nat) : (s.repairCw w).cellar = s.cellar := by
  unfold State.repairCw
  split
  · rfl
  · rw [State.setSyn_cellar, State.putP_cellar]
  · rfl
theorem State.foldRepair_cellar (l : List Nat) : (l.foldl State.repairCw s).cellar = s.cellar := by
  induction l generalizing s with
  | nil => rfl
  | cons w l ih => rw [List.foldl_cons, ih, State.repairCw_cellar]
theorem State.foldSyn_cellar {α : Type} (l : List α) (g : State → α → Nat) (x : Syn) : (l.foldl (fun s k => s.setSyn (g s k) x) s).cellar = s.cellar := by
  induction l generalizing s with
  | nil => rfl
  | cons w l ih => rw [List.foldl_cons, ih, State.setSyn_cellar]
@[simp] theorem State.store_cellar (a : Nat) (d : Bytes) : (s.store a d).cellar = s.cellar := by
  unfold State.store
  split
  · rw [State.putAll_cellar]
  · dsimp only
    rw [State.foldSyn_cellar _ _ (fun s k => s.phys (32 * (ceilDiv a 32 + k)) / 32), State.putAll_cellar, State.foldRepair_cellar]
@[simp] theorem State.storeN_cellar (a n v : Nat) : (s.storeN a n v).cellar = s.cellar := by rw [State.storeN, State.store_cellar]
@[simp] theorem State.zeroRange_cellar (a len : Nat) : (s.zeroRange a len).cellar = s.cellar := rfl
@[simp] theorem State.poisonAt_cellar (a len : Nat) : (s.poisonAt a len).cellar = s.cellar := State.foldSyn_cellar s _ (fun _ w => w) _
@[simp] theorem State.putP_pool (p : Nat) (d : Bytes) : (s.putP p d).pool = s.pool := by
  induction d generalizing s p with
  | nil => rfl
  | cons b r ih => rw [State.putP, ih]
@[simp] theorem State.putAll_pool (a : Nat) (d : Bytes) : (s.putAll a d).pool = s.pool := by
  induction d generalizing s a with
  | nil => rfl
  | cons b r ih => rw [State.putAll, ih]
@[simp] theorem State.repairCw_pool (w : Nat) : (s.repairCw w).pool = s.pool := by
  unfold State.repairCw
  split
  · rfl
  · rw [State.setSyn_pool, State.putP_pool]
  · rfl
theorem State.foldRepair_pool (l : List Nat) : (l.foldl State.repairCw s).pool = s.pool := by
  induction l generalizing s with
  | nil => rfl
  | cons w l ih => rw [List.foldl_cons, ih, State.repairCw_pool]
theorem State.foldSyn_pool {α : Type} (l : List α) (g : State → α → Nat) (x : Syn) : (l.foldl (fun s k => s.setSyn (g s k) x) s).pool = s.pool := by
  induction l generalizing s with
  | nil => rfl
  | cons w l ih => rw [List.foldl_cons, ih, State.setSyn_pool]
@[simp] theorem State.store_pool (a : Nat) (d : Bytes) : (s.store a d).pool = s.pool := by
  unfold State.store
  split
  · rw [State.putAll_pool]
  · dsimp only
    rw [State.foldSyn_pool _ _ (fun s k => s.phys (32 * (ceilDiv a 32 + k)) / 32), State.putAll_pool, State.foldRepair_pool]
@[simp] theorem State.storeN_pool (a n v : Nat) : (s.storeN a n v).pool = s.pool := by rw [State.storeN, State.store_pool]
@[simp] theorem State.zeroRange_pool (a len : Nat) : (s.zeroRange a len).pool = s.pool := rfl
@[simp] theorem State.poisonAt_pool (a len : Nat) : (s.poisonAt a len).pool = s.pool := State.foldSyn_pool s _ (fun _ w => w) _
@[simp] theorem State.putP_parts (p : Nat) (d : Bytes) : (s.putP p d).parts = s.parts := by
  induction d generalizing s p with
  | nil => rfl
  | cons b r ih => rw [State.putP, ih]
@[simp] theorem State.putAll_parts (a : Nat) (d : Bytes) : (s.putAll a d).parts = s.parts := by
  induction d generalizing s a with
  | nil => rfl
  | cons b r ih => rw [State.putAll, ih]
@[simp] theorem State.repairCw_parts (w : Nat) : (s.repairCw w).parts = s.parts := by
  unfold State.repairCw
  split
  · rfl
  · rw [State.setSyn_parts, State.putP_parts]
  · rfl
theorem State.foldRepair_parts (l : List Nat) : (l.foldl State.repairCw s).parts = s.parts := by
  induction l generalizing s with
  | nil => rfl
  | cons w l ih => rw [List.foldl_cons, ih, State.repairCw_parts]
theorem State.foldSyn_parts {α : Type} (l : List α) (g : State → α → Nat) (x : Syn) : (l.foldl (fun s k => s.setSyn (g s k) x) s).parts = s.parts := by
  induction l generalizing s with
  | nil => rfl
  | cons w l ih => rw [List.foldl_cons, ih, State.setSyn_parts]
@[simp] theorem State.store_parts (a : Nat) (d : Bytes) : (s.store a d).parts = s.parts := by
  unfold State.store
  split
  · rw [State.putAll_parts]
  · dsimp only
    rw [State.foldSyn_parts _ _ (fun s k => s.phys (32 * (ceilDiv a 32 + k)) / 32), State.putAll_parts, State.foldRepair_parts]
@[simp] theorem State.storeN_parts (a n v : Nat) : (s.storeN a n v).parts = s.parts := by rw [State.storeN, State.store_parts]
@[simp] theorem State.zeroRange_parts (a len : Nat) : (s.zeroRange a len).parts = s.parts := rfl
@[simp] theorem State.poisonAt_parts (a len : Nat) : (s.poisonAt a len).parts = s.parts := State.foldSyn_parts s _ (fun _ w => w) _
@[simp] theorem State.putP_prefetch (p : Nat) (d : Bytes) : (s.putP p d).prefetch = s.prefetch := by
  induction d generalizing s p with
  | nil => rfl
  | cons b r ih => rw [State.putP, ih]
@[simp] theorem State.putAll_prefetch (a : Nat) (d : Bytes) : (s.putAll a d).prefetch = s.prefetch := by
  induction d generalizing s a with
  | nil => rfl
  | cons b r ih => rw [State.putAll, ih]
@[simp] theorem State.repairCw_prefetch (w : Nat) : (s.repairCw w).prefetch = s.prefetch := by
  unfold State.repairCw
  split
  · rfl
  · rw [State.setSyn_prefetch, State.putP_prefetch]
  · rfl
theorem State.foldRepair_prefetch (l : List Nat) : (l.foldl State.repairCw s).prefetch = s.prefetch := by
  induction l generalizing s with
  | nil => rfl
  | cons w l ih => rw [List.foldl_cons, ih, State.repairCw_prefetch]
theorem State.foldSyn_prefetch {α : Type} (l : List α) (g : State → α → Nat) (x : Syn) : (l.foldl (fun s k => s.setSyn (g s k) x) s).prefetch = s.prefetch := by
  induction l generalizing s with
  | nil => rfl
  | cons w l ih => rw [List.foldl_cons, ih, State.setSyn_prefetch]
@[simp] theorem State.store_prefetch (a : Nat) (d : Bytes) : (s.store a d).prefetch = s.prefetch := by
  unfold State.store
  split
  · rw [State.putAll_prefetch]
  · dsimp only
    rw [State.foldSyn_prefetch _ _ (fun s k => s.phys (32 * (ceilDiv a 32 + k)) / 32), State.putAll_prefetch, State.foldRepair_prefetch]
@[simp] theorem State.storeN_prefetch (a n v : Nat) : (s.storeN a n v).prefetch = s.prefetch := by rw [State.storeN, State.store_prefetch]
@[simp] theorem State.zeroRange_prefetch (a len : Nat) : (s.zeroRange a len).prefetch = s.prefetch := rfl
@[simp] theorem State.poisonAt_prefetch (a len : Nat) : (s.poisonAt a len).prefetch = s.prefetch := State.foldSyn_prefetch s _ (fun _ w => w) _
@[simp] theorem State.putP_episodes (p : Nat) (d : Bytes) : (s.putP p d).episodes = s.episodes := by
  induction d generalizing s p with
  | nil => rfl
  | cons b r ih => rw [State.putP, ih]
@[simp] theorem State.putAll_episodes (a : Nat) (d : Bytes) : (s.putAll a d).episodes = s.episodes := by
  induction d generalizing s a with
  | nil => rfl
  | cons b r ih => rw [State.putAll, ih]
@[simp] theorem State.repairCw_episodes (w : Nat) : (s.repairCw w).episodes = s.episodes := by
  unfold State.repairCw
  split
  · rfl
  · rw [State.setSyn_episodes, State.putP_episodes]
  · rfl
theorem State.foldRepair_episodes (l : List Nat) : (l.foldl State.repairCw s).episodes = s.episodes := by
  induction l generalizing s with
  | nil => rfl
  | cons w l ih => rw [List.foldl_cons, ih, State.repairCw_episodes]
theorem State.foldSyn_episodes {α : Type} (l : List α) (g : State → α → Nat) (x : Syn) : (l.foldl (fun s k => s.setSyn (g s k) x) s).episodes = s.episodes := by
  induction l generalizing s with
  | nil => rfl
  | cons w l ih => rw [List.foldl_cons, ih, State.setSyn_episodes]
@[simp] theorem State.store_episodes (a : Nat) (d : Bytes) : (s.store a d).episodes = s.episodes := by
  unfold State.store
  split
  · rw [State.putAll_episodes]
  · dsimp only
    rw [State.foldSyn_episodes _ _ (fun s k => s.phys (32 * (ceilDiv a 32 + k)) / 32), State.putAll_episodes, State.foldRepair_episodes]
@[simp] theorem State.storeN_episodes (a n v : Nat) : (s.storeN a n v).episodes = s.episodes := by rw [State.storeN, State.store_episodes]
@[simp] theorem State.zeroRange_episodes (a len : Nat) : (s.zeroRange a len).episodes = s.episodes := rfl
@[simp] theorem State.poisonAt_episodes (a len : Nat) : (s.poisonAt a len).episodes = s.episodes := State.foldSyn_episodes s _ (fun _ w => w) _
@[simp] theorem State.putP_arrivals (p : Nat) (d : Bytes) : (s.putP p d).arrivals = s.arrivals := by
  induction d generalizing s p with
  | nil => rfl
  | cons b r ih => rw [State.putP, ih]
@[simp] theorem State.putAll_arrivals (a : Nat) (d : Bytes) : (s.putAll a d).arrivals = s.arrivals := by
  induction d generalizing s a with
  | nil => rfl
  | cons b r ih => rw [State.putAll, ih]
@[simp] theorem State.repairCw_arrivals (w : Nat) : (s.repairCw w).arrivals = s.arrivals := by
  unfold State.repairCw
  split
  · rfl
  · rw [State.setSyn_arrivals, State.putP_arrivals]
  · rfl
theorem State.foldRepair_arrivals (l : List Nat) : (l.foldl State.repairCw s).arrivals = s.arrivals := by
  induction l generalizing s with
  | nil => rfl
  | cons w l ih => rw [List.foldl_cons, ih, State.repairCw_arrivals]
theorem State.foldSyn_arrivals {α : Type} (l : List α) (g : State → α → Nat) (x : Syn) : (l.foldl (fun s k => s.setSyn (g s k) x) s).arrivals = s.arrivals := by
  induction l generalizing s with
  | nil => rfl
  | cons w l ih => rw [List.foldl_cons, ih, State.setSyn_arrivals]
@[simp] theorem State.store_arrivals (a : Nat) (d : Bytes) : (s.store a d).arrivals = s.arrivals := by
  unfold State.store
  split
  · rw [State.putAll_arrivals]
  · dsimp only
    rw [State.foldSyn_arrivals _ _ (fun s k => s.phys (32 * (ceilDiv a 32 + k)) / 32), State.putAll_arrivals, State.foldRepair_arrivals]
@[simp] theorem State.storeN_arrivals (a n v : Nat) : (s.storeN a n v).arrivals = s.arrivals := by rw [State.storeN, State.store_arrivals]
@[simp] theorem State.zeroRange_arrivals (a len : Nat) : (s.zeroRange a len).arrivals = s.arrivals := rfl
@[simp] theorem State.poisonAt_arrivals (a len : Nat) : (s.poisonAt a len).arrivals = s.arrivals := State.foldSyn_arrivals s _ (fun _ w => w) _
@[simp] theorem State.putP_slow (p : Nat) (d : Bytes) : (s.putP p d).slow = s.slow := by
  induction d generalizing s p with
  | nil => rfl
  | cons b r ih => rw [State.putP, ih]
@[simp] theorem State.putAll_slow (a : Nat) (d : Bytes) : (s.putAll a d).slow = s.slow := by
  induction d generalizing s a with
  | nil => rfl
  | cons b r ih => rw [State.putAll, ih]
@[simp] theorem State.repairCw_slow (w : Nat) : (s.repairCw w).slow = s.slow := by
  unfold State.repairCw
  split
  · rfl
  · rw [State.setSyn_slow, State.putP_slow]
  · rfl
theorem State.foldRepair_slow (l : List Nat) : (l.foldl State.repairCw s).slow = s.slow := by
  induction l generalizing s with
  | nil => rfl
  | cons w l ih => rw [List.foldl_cons, ih, State.repairCw_slow]
theorem State.foldSyn_slow {α : Type} (l : List α) (g : State → α → Nat) (x : Syn) : (l.foldl (fun s k => s.setSyn (g s k) x) s).slow = s.slow := by
  induction l generalizing s with
  | nil => rfl
  | cons w l ih => rw [List.foldl_cons, ih, State.setSyn_slow]
@[simp] theorem State.store_slow (a : Nat) (d : Bytes) : (s.store a d).slow = s.slow := by
  unfold State.store
  split
  · rw [State.putAll_slow]
  · dsimp only
    rw [State.foldSyn_slow _ _ (fun s k => s.phys (32 * (ceilDiv a 32 + k)) / 32), State.putAll_slow, State.foldRepair_slow]
@[simp] theorem State.storeN_slow (a n v : Nat) : (s.storeN a n v).slow = s.slow := by rw [State.storeN, State.store_slow]
@[simp] theorem State.zeroRange_slow (a len : Nat) : (s.zeroRange a len).slow = s.slow := rfl
@[simp] theorem State.poisonAt_slow (a len : Nat) : (s.poisonAt a len).slow = s.slow := State.foldSyn_slow s _ (fun _ w => w) _
@[simp] theorem State.putP_slowAt (p : Nat) (d : Bytes) : (s.putP p d).slowAt = s.slowAt := by
  induction d generalizing s p with
  | nil => rfl
  | cons b r ih => rw [State.putP, ih]
@[simp] theorem State.putAll_slowAt (a : Nat) (d : Bytes) : (s.putAll a d).slowAt = s.slowAt := by
  induction d generalizing s a with
  | nil => rfl
  | cons b r ih => rw [State.putAll, ih]
@[simp] theorem State.repairCw_slowAt (w : Nat) : (s.repairCw w).slowAt = s.slowAt := by
  unfold State.repairCw
  split
  · rfl
  · rw [State.setSyn_slowAt, State.putP_slowAt]
  · rfl
theorem State.foldRepair_slowAt (l : List Nat) : (l.foldl State.repairCw s).slowAt = s.slowAt := by
  induction l generalizing s with
  | nil => rfl
  | cons w l ih => rw [List.foldl_cons, ih, State.repairCw_slowAt]
theorem State.foldSyn_slowAt {α : Type} (l : List α) (g : State → α → Nat) (x : Syn) : (l.foldl (fun s k => s.setSyn (g s k) x) s).slowAt = s.slowAt := by
  induction l generalizing s with
  | nil => rfl
  | cons w l ih => rw [List.foldl_cons, ih, State.setSyn_slowAt]
@[simp] theorem State.store_slowAt (a : Nat) (d : Bytes) : (s.store a d).slowAt = s.slowAt := by
  unfold State.store
  split
  · rw [State.putAll_slowAt]
  · dsimp only
    rw [State.foldSyn_slowAt _ _ (fun s k => s.phys (32 * (ceilDiv a 32 + k)) / 32), State.putAll_slowAt, State.foldRepair_slowAt]
@[simp] theorem State.storeN_slowAt (a n v : Nat) : (s.storeN a n v).slowAt = s.slowAt := by rw [State.storeN, State.store_slowAt]
@[simp] theorem State.zeroRange_slowAt (a len : Nat) : (s.zeroRange a len).slowAt = s.slowAt := rfl
@[simp] theorem State.poisonAt_slowAt (a len : Nat) : (s.poisonAt a len).slowAt = s.slowAt := State.foldSyn_slowAt s _ (fun _ w => w) _
@[simp] theorem State.putP_slowPer (p : Nat) (d : Bytes) : (s.putP p d).slowPer = s.slowPer := by
  induction d generalizing s p with
  | nil => rfl
  | cons b r ih => rw [State.putP, ih]
@[simp] theorem State.putAll_slowPer (a : Nat) (d : Bytes) : (s.putAll a d).slowPer = s.slowPer := by
  induction d generalizing s a with
  | nil => rfl
  | cons b r ih => rw [State.putAll, ih]
@[simp] theorem State.repairCw_slowPer (w : Nat) : (s.repairCw w).slowPer = s.slowPer := by
  unfold State.repairCw
  split
  · rfl
  · rw [State.setSyn_slowPer, State.putP_slowPer]
  · rfl
theorem State.foldRepair_slowPer (l : List Nat) : (l.foldl State.repairCw s).slowPer = s.slowPer := by
  induction l generalizing s with
  | nil => rfl
  | cons w l ih => rw [List.foldl_cons, ih, State.repairCw_slowPer]
theorem State.foldSyn_slowPer {α : Type} (l : List α) (g : State → α → Nat) (x : Syn) : (l.foldl (fun s k => s.setSyn (g s k) x) s).slowPer = s.slowPer := by
  induction l generalizing s with
  | nil => rfl
  | cons w l ih => rw [List.foldl_cons, ih, State.setSyn_slowPer]
@[simp] theorem State.store_slowPer (a : Nat) (d : Bytes) : (s.store a d).slowPer = s.slowPer := by
  unfold State.store
  split
  · rw [State.putAll_slowPer]
  · dsimp only
    rw [State.foldSyn_slowPer _ _ (fun s k => s.phys (32 * (ceilDiv a 32 + k)) / 32), State.putAll_slowPer, State.foldRepair_slowPer]
@[simp] theorem State.storeN_slowPer (a n v : Nat) : (s.storeN a n v).slowPer = s.slowPer := by rw [State.storeN, State.store_slowPer]
@[simp] theorem State.zeroRange_slowPer (a len : Nat) : (s.zeroRange a len).slowPer = s.slowPer := rfl
@[simp] theorem State.poisonAt_slowPer (a len : Nat) : (s.poisonAt a len).slowPer = s.slowPer := State.foldSyn_slowPer s _ (fun _ w => w) _
@[simp] theorem State.putP_fab (p : Nat) (d : Bytes) : (s.putP p d).fab = s.fab := by
  induction d generalizing s p with
  | nil => rfl
  | cons b r ih => rw [State.putP, ih]
@[simp] theorem State.putAll_fab (a : Nat) (d : Bytes) : (s.putAll a d).fab = s.fab := by
  induction d generalizing s a with
  | nil => rfl
  | cons b r ih => rw [State.putAll, ih]
@[simp] theorem State.repairCw_fab (w : Nat) : (s.repairCw w).fab = s.fab := by
  unfold State.repairCw
  split
  · rfl
  · rw [State.setSyn_fab, State.putP_fab]
  · rfl
theorem State.foldRepair_fab (l : List Nat) : (l.foldl State.repairCw s).fab = s.fab := by
  induction l generalizing s with
  | nil => rfl
  | cons w l ih => rw [List.foldl_cons, ih, State.repairCw_fab]
theorem State.foldSyn_fab {α : Type} (l : List α) (g : State → α → Nat) (x : Syn) : (l.foldl (fun s k => s.setSyn (g s k) x) s).fab = s.fab := by
  induction l generalizing s with
  | nil => rfl
  | cons w l ih => rw [List.foldl_cons, ih, State.setSyn_fab]
@[simp] theorem State.store_fab (a : Nat) (d : Bytes) : (s.store a d).fab = s.fab := by
  unfold State.store
  split
  · rw [State.putAll_fab]
  · dsimp only
    rw [State.foldSyn_fab _ _ (fun s k => s.phys (32 * (ceilDiv a 32 + k)) / 32), State.putAll_fab, State.foldRepair_fab]
@[simp] theorem State.storeN_fab (a n v : Nat) : (s.storeN a n v).fab = s.fab := by rw [State.storeN, State.store_fab]
@[simp] theorem State.zeroRange_fab (a len : Nat) : (s.zeroRange a len).fab = s.fab := rfl
@[simp] theorem State.poisonAt_fab (a len : Nat) : (s.poisonAt a len).fab = s.fab := State.foldSyn_fab s _ (fun _ w => w) _
@[simp] theorem State.putP_nl0 (p : Nat) (d : Bytes) : (s.putP p d).nl0 = s.nl0 := by
  induction d generalizing s p with
  | nil => rfl
  | cons b r ih => rw [State.putP, ih]
@[simp] theorem State.putAll_nl0 (a : Nat) (d : Bytes) : (s.putAll a d).nl0 = s.nl0 := by
  induction d generalizing s a with
  | nil => rfl
  | cons b r ih => rw [State.putAll, ih]
@[simp] theorem State.repairCw_nl0 (w : Nat) : (s.repairCw w).nl0 = s.nl0 := by
  unfold State.repairCw
  split
  · rfl
  · rw [State.setSyn_nl0, State.putP_nl0]
  · rfl
theorem State.foldRepair_nl0 (l : List Nat) : (l.foldl State.repairCw s).nl0 = s.nl0 := by
  induction l generalizing s with
  | nil => rfl
  | cons w l ih => rw [List.foldl_cons, ih, State.repairCw_nl0]
theorem State.foldSyn_nl0 {α : Type} (l : List α) (g : State → α → Nat) (x : Syn) : (l.foldl (fun s k => s.setSyn (g s k) x) s).nl0 = s.nl0 := by
  induction l generalizing s with
  | nil => rfl
  | cons w l ih => rw [List.foldl_cons, ih, State.setSyn_nl0]
@[simp] theorem State.store_nl0 (a : Nat) (d : Bytes) : (s.store a d).nl0 = s.nl0 := by
  unfold State.store
  split
  · rw [State.putAll_nl0]
  · dsimp only
    rw [State.foldSyn_nl0 _ _ (fun s k => s.phys (32 * (ceilDiv a 32 + k)) / 32), State.putAll_nl0, State.foldRepair_nl0]
@[simp] theorem State.storeN_nl0 (a n v : Nat) : (s.storeN a n v).nl0 = s.nl0 := by rw [State.storeN, State.store_nl0]
@[simp] theorem State.zeroRange_nl0 (a len : Nat) : (s.zeroRange a len).nl0 = s.nl0 := rfl
@[simp] theorem State.poisonAt_nl0 (a len : Nat) : (s.poisonAt a len).nl0 = s.nl0 := State.foldSyn_nl0 s _ (fun _ w => w) _
@[simp] theorem State.putP_nl1 (p : Nat) (d : Bytes) : (s.putP p d).nl1 = s.nl1 := by
  induction d generalizing s p with
  | nil => rfl
  | cons b r ih => rw [State.putP, ih]
@[simp] theorem State.putAll_nl1 (a : Nat) (d : Bytes) : (s.putAll a d).nl1 = s.nl1 := by
  induction d generalizing s a with
  | nil => rfl
  | cons b r ih => rw [State.putAll, ih]
@[simp] theorem State.repairCw_nl1 (w : Nat) : (s.repairCw w).nl1 = s.nl1 := by
  unfold State.repairCw
  split
  · rfl
  · rw [State.setSyn_nl1, State.putP_nl1]
  · rfl
theorem State.foldRepair_nl1 (l : List Nat) : (l.foldl State.repairCw s).nl1 = s.nl1 := by
  induction l generalizing s with
  | nil => rfl
  | cons w l ih => rw [List.foldl_cons, ih, State.repairCw_nl1]
theorem State.foldSyn_nl1 {α : Type} (l : List α) (g : State → α → Nat) (x : Syn) : (l.foldl (fun s k => s.setSyn (g s k) x) s).nl1 = s.nl1 := by
  induction l generalizing s with
  | nil => rfl
  | cons w l ih => rw [List.foldl_cons, ih, State.setSyn_nl1]
@[simp] theorem State.store_nl1 (a : Nat) (d : Bytes) : (s.store a d).nl1 = s.nl1 := by
  unfold State.store
  split
  · rw [State.putAll_nl1]
  · dsimp only
    rw [State.foldSyn_nl1 _ _ (fun s k => s.phys (32 * (ceilDiv a 32 + k)) / 32), State.putAll_nl1, State.foldRepair_nl1]
@[simp] theorem State.storeN_nl1 (a n v : Nat) : (s.storeN a n v).nl1 = s.nl1 := by rw [State.storeN, State.store_nl1]
@[simp] theorem State.zeroRange_nl1 (a len : Nat) : (s.zeroRange a len).nl1 = s.nl1 := rfl
@[simp] theorem State.poisonAt_nl1 (a len : Nat) : (s.poisonAt a len).nl1 = s.nl1 := State.foldSyn_nl1 s _ (fun _ w => w) _
@[simp] theorem State.putP_flt (p : Nat) (d : Bytes) : (s.putP p d).flt = s.flt := by
  induction d generalizing s p with
  | nil => rfl
  | cons b r ih => rw [State.putP, ih]
@[simp] theorem State.putAll_flt (a : Nat) (d : Bytes) : (s.putAll a d).flt = s.flt := by
  induction d generalizing s a with
  | nil => rfl
  | cons b r ih => rw [State.putAll, ih]
@[simp] theorem State.repairCw_flt (w : Nat) : (s.repairCw w).flt = s.flt := by
  unfold State.repairCw
  split
  · rfl
  · rw [State.setSyn_flt, State.putP_flt]
  · rfl
theorem State.foldRepair_flt (l : List Nat) : (l.foldl State.repairCw s).flt = s.flt := by
  induction l generalizing s with
  | nil => rfl
  | cons w l ih => rw [List.foldl_cons, ih, State.repairCw_flt]
theorem State.foldSyn_flt {α : Type} (l : List α) (g : State → α → Nat) (x : Syn) : (l.foldl (fun s k => s.setSyn (g s k) x) s).flt = s.flt := by
  induction l generalizing s with
  | nil => rfl
  | cons w l ih => rw [List.foldl_cons, ih, State.setSyn_flt]
@[simp] theorem State.store_flt (a : Nat) (d : Bytes) : (s.store a d).flt = s.flt := by
  unfold State.store
  split
  · rw [State.putAll_flt]
  · dsimp only
    rw [State.foldSyn_flt _ _ (fun s k => s.phys (32 * (ceilDiv a 32 + k)) / 32), State.putAll_flt, State.foldRepair_flt]
@[simp] theorem State.storeN_flt (a n v : Nat) : (s.storeN a n v).flt = s.flt := by rw [State.storeN, State.store_flt]
@[simp] theorem State.zeroRange_flt (a len : Nat) : (s.zeroRange a len).flt = s.flt := rfl
@[simp] theorem State.poisonAt_flt (a len : Nat) : (s.poisonAt a len).flt = s.flt := State.foldSyn_flt s _ (fun _ w => w) _
@[simp] theorem State.putP_sec (p : Nat) (d : Bytes) : (s.putP p d).sec = s.sec := by
  induction d generalizing s p with
  | nil => rfl
  | cons b r ih => rw [State.putP, ih]
@[simp] theorem State.putAll_sec (a : Nat) (d : Bytes) : (s.putAll a d).sec = s.sec := by
  induction d generalizing s a with
  | nil => rfl
  | cons b r ih => rw [State.putAll, ih]
@[simp] theorem State.repairCw_sec (w : Nat) : (s.repairCw w).sec = s.sec := by
  unfold State.repairCw
  split
  · rfl
  · rw [State.setSyn_sec, State.putP_sec]
  · rfl
theorem State.foldRepair_sec (l : List Nat) : (l.foldl State.repairCw s).sec = s.sec := by
  induction l generalizing s with
  | nil => rfl
  | cons w l ih => rw [List.foldl_cons, ih, State.repairCw_sec]
theorem State.foldSyn_sec {α : Type} (l : List α) (g : State → α → Nat) (x : Syn) : (l.foldl (fun s k => s.setSyn (g s k) x) s).sec = s.sec := by
  induction l generalizing s with
  | nil => rfl
  | cons w l ih => rw [List.foldl_cons, ih, State.setSyn_sec]
@[simp] theorem State.store_sec (a : Nat) (d : Bytes) : (s.store a d).sec = s.sec := by
  unfold State.store
  split
  · rw [State.putAll_sec]
  · dsimp only
    rw [State.foldSyn_sec _ _ (fun s k => s.phys (32 * (ceilDiv a 32 + k)) / 32), State.putAll_sec, State.foldRepair_sec]
@[simp] theorem State.storeN_sec (a n v : Nat) : (s.storeN a n v).sec = s.sec := by rw [State.storeN, State.store_sec]
@[simp] theorem State.zeroRange_sec (a len : Nat) : (s.zeroRange a len).sec = s.sec := rfl
@[simp] theorem State.poisonAt_sec (a len : Nat) : (s.poisonAt a len).sec = s.sec := State.foldSyn_sec s _ (fun _ w => w) _
@[simp] theorem State.putP_pwr (p : Nat) (d : Bytes) : (s.putP p d).pwr = s.pwr := by
  induction d generalizing s p with
  | nil => rfl
  | cons b r ih => rw [State.putP, ih]
@[simp] theorem State.putAll_pwr (a : Nat) (d : Bytes) : (s.putAll a d).pwr = s.pwr := by
  induction d generalizing s a with
  | nil => rfl
  | cons b r ih => rw [State.putAll, ih]
@[simp] theorem State.repairCw_pwr (w : Nat) : (s.repairCw w).pwr = s.pwr := by
  unfold State.repairCw
  split
  · rfl
  · rw [State.setSyn_pwr, State.putP_pwr]
  · rfl
theorem State.foldRepair_pwr (l : List Nat) : (l.foldl State.repairCw s).pwr = s.pwr := by
  induction l generalizing s with
  | nil => rfl
  | cons w l ih => rw [List.foldl_cons, ih, State.repairCw_pwr]
theorem State.foldSyn_pwr {α : Type} (l : List α) (g : State → α → Nat) (x : Syn) : (l.foldl (fun s k => s.setSyn (g s k) x) s).pwr = s.pwr := by
  induction l generalizing s with
  | nil => rfl
  | cons w l ih => rw [List.foldl_cons, ih, State.setSyn_pwr]
@[simp] theorem State.store_pwr (a : Nat) (d : Bytes) : (s.store a d).pwr = s.pwr := by
  unfold State.store
  split
  · rw [State.putAll_pwr]
  · dsimp only
    rw [State.foldSyn_pwr _ _ (fun s k => s.phys (32 * (ceilDiv a 32 + k)) / 32), State.putAll_pwr, State.foldRepair_pwr]
@[simp] theorem State.storeN_pwr (a n v : Nat) : (s.storeN a n v).pwr = s.pwr := by rw [State.storeN, State.store_pwr]
@[simp] theorem State.zeroRange_pwr (a len : Nat) : (s.zeroRange a len).pwr = s.pwr := rfl
@[simp] theorem State.poisonAt_pwr (a len : Nat) : (s.poisonAt a len).pwr = s.pwr := State.foldSyn_pwr s _ (fun _ w => w) _
@[simp] theorem State.putP_pins (p : Nat) (d : Bytes) : (s.putP p d).pins = s.pins := by
  induction d generalizing s p with
  | nil => rfl
  | cons b r ih => rw [State.putP, ih]
@[simp] theorem State.putAll_pins (a : Nat) (d : Bytes) : (s.putAll a d).pins = s.pins := by
  induction d generalizing s a with
  | nil => rfl
  | cons b r ih => rw [State.putAll, ih]
@[simp] theorem State.repairCw_pins (w : Nat) : (s.repairCw w).pins = s.pins := by
  unfold State.repairCw
  split
  · rfl
  · rw [State.setSyn_pins, State.putP_pins]
  · rfl
theorem State.foldRepair_pins (l : List Nat) : (l.foldl State.repairCw s).pins = s.pins := by
  induction l generalizing s with
  | nil => rfl
  | cons w l ih => rw [List.foldl_cons, ih, State.repairCw_pins]
theorem State.foldSyn_pins {α : Type} (l : List α) (g : State → α → Nat) (x : Syn) : (l.foldl (fun s k => s.setSyn (g s k) x) s).pins = s.pins := by
  induction l generalizing s with
  | nil => rfl
  | cons w l ih => rw [List.foldl_cons, ih, State.setSyn_pins]
@[simp] theorem State.store_pins (a : Nat) (d : Bytes) : (s.store a d).pins = s.pins := by
  unfold State.store
  split
  · rw [State.putAll_pins]
  · dsimp only
    rw [State.foldSyn_pins _ _ (fun s k => s.phys (32 * (ceilDiv a 32 + k)) / 32), State.putAll_pins, State.foldRepair_pins]
@[simp] theorem State.storeN_pins (a n v : Nat) : (s.storeN a n v).pins = s.pins := by rw [State.storeN, State.store_pins]
@[simp] theorem State.zeroRange_pins (a len : Nat) : (s.zeroRange a len).pins = s.pins := rfl
@[simp] theorem State.poisonAt_pins (a len : Nat) : (s.poisonAt a len).pins = s.pins := State.foldSyn_pins s _ (fun _ w => w) _
@[simp] theorem State.putP_intP (p : Nat) (d : Bytes) : (s.putP p d).intP = s.intP := by
  induction d generalizing s p with
  | nil => rfl
  | cons b r ih => rw [State.putP, ih]
@[simp] theorem State.putAll_intP (a : Nat) (d : Bytes) : (s.putAll a d).intP = s.intP := by
  induction d generalizing s a with
  | nil => rfl
  | cons b r ih => rw [State.putAll, ih]
@[simp] theorem State.repairCw_intP (w : Nat) : (s.repairCw w).intP = s.intP := by
  unfold State.repairCw
  split
  · rfl
  · rw [State.setSyn_intP, State.putP_intP]
  · rfl
theorem State.foldRepair_intP (l : List Nat) : (l.foldl State.repairCw s).intP = s.intP := by
  induction l generalizing s with
  | nil => rfl
  | cons w l ih => rw [List.foldl_cons, ih, State.repairCw_intP]
theorem State.foldSyn_intP {α : Type} (l : List α) (g : State → α → Nat) (x : Syn) : (l.foldl (fun s k => s.setSyn (g s k) x) s).intP = s.intP := by
  induction l generalizing s with
  | nil => rfl
  | cons w l ih => rw [List.foldl_cons, ih, State.setSyn_intP]
@[simp] theorem State.store_intP (a : Nat) (d : Bytes) : (s.store a d).intP = s.intP := by
  unfold State.store
  split
  · rw [State.putAll_intP]
  · dsimp only
    rw [State.foldSyn_intP _ _ (fun s k => s.phys (32 * (ceilDiv a 32 + k)) / 32), State.putAll_intP, State.foldRepair_intP]
@[simp] theorem State.storeN_intP (a n v : Nat) : (s.storeN a n v).intP = s.intP := by rw [State.storeN, State.store_intP]
@[simp] theorem State.zeroRange_intP (a len : Nat) : (s.zeroRange a len).intP = s.intP := rfl
@[simp] theorem State.poisonAt_intP (a len : Nat) : (s.poisonAt a len).intP = s.intP := State.foldSyn_intP s _ (fun _ w => w) _
@[simp] theorem State.putP_free (p : Nat) (d : Bytes) : (s.putP p d).free = s.free := by
  induction d generalizing s p with
  | nil => rfl
  | cons b r ih => rw [State.putP, ih]
@[simp] theorem State.putAll_free (a : Nat) (d : Bytes) : (s.putAll a d).free = s.free := by
  induction d generalizing s a with
  | nil => rfl
  | cons b r ih => rw [State.putAll, ih]
@[simp] theorem State.repairCw_free (w : Nat) : (s.repairCw w).free = s.free := by
  unfold State.repairCw
  split
  · rfl
  · rw [State.setSyn_free, State.putP_free]
  · rfl
theorem State.foldRepair_free (l : List Nat) : (l.foldl State.repairCw s).free = s.free := by
  induction l generalizing s with
  | nil => rfl
  | cons w l ih => rw [List.foldl_cons, ih, State.repairCw_free]
theorem State.foldSyn_free {α : Type} (l : List α) (g : State → α → Nat) (x : Syn) : (l.foldl (fun s k => s.setSyn (g s k) x) s).free = s.free := by
  induction l generalizing s with
  | nil => rfl
  | cons w l ih => rw [List.foldl_cons, ih, State.setSyn_free]
@[simp] theorem State.store_free (a : Nat) (d : Bytes) : (s.store a d).free = s.free := by
  unfold State.store
  split
  · rw [State.putAll_free]
  · dsimp only
    rw [State.foldSyn_free _ _ (fun s k => s.phys (32 * (ceilDiv a 32 + k)) / 32), State.putAll_free, State.foldRepair_free]
@[simp] theorem State.storeN_free (a n v : Nat) : (s.storeN a n v).free = s.free := by rw [State.storeN, State.store_free]
@[simp] theorem State.zeroRange_free (a len : Nat) : (s.zeroRange a len).free = s.free := rfl
@[simp] theorem State.poisonAt_free (a len : Nat) : (s.poisonAt a len).free = s.free := State.foldSyn_free s _ (fun _ w => w) _

@[simp] theorem State.store_reg (a : Nat) (d : Bytes) (r : Reg) (i : Nat) : (s.store a d).reg r i = s.reg r i :=
  State.reg_of_regs (s.store_regs a d) r i
@[simp] theorem State.store_f (a : Nat) (d : Bytes) (x : Fld) (i : Nat) : (s.store a d).f x i = s.f x i :=
  State.f_of_regs (s.store_regs a d) x i
@[simp] theorem State.zeroRange_f (a len : Nat) (x : Fld) (i : Nat) : (s.zeroRange a len).f x i = s.f x i :=
  State.f_of_regs (s.zeroRange_regs a len) x i

/-! Places and bytes -/

/-- The mapping of window 1 depends on the registers alone (R100). -/
theorem State.phys_of_regs {a b : State} (h : a.regs = b.regs) (x : Nat) : a.phys x = b.phys x := by
  unfold State.phys State.pressMode
  simp only [State.reg_of_regs h]

theorem byteP_memPut (m : List Host.Cell) (p q : Nat) (b : Byte) : SMap.get 0#8 (memPut m p b) q = if q = p then b else SMap.get 0#8 m q := by
  unfold memPut
  split
  · next h => subst h; exact SMap.get_put_self _ _ _ _
  · next h => exact SMap.get_put_of_ne _ _ _ h

/-- A place that a write does not reach keeps its byte. -/
theorem byteP_putAll_of_ne (a : Nat) (d : Bytes) (q : Nat) (h : ∀ k, k < d.length → s.phys (a + k) ≠ q) :
    (s.putAll a d).byteP q = s.byteP q := by
  induction d generalizing s a with
  | nil => rfl
  | cons b r ih =>
    rw [State.putAll, ih]
    · unfold State.byteP
      rw [byteP_memPut, if_neg]
      exact fun e => h 0 (by simp) e.symm
    · intro k hk
      rw [State.phys_of_regs (b := s) rfl, show a + 1 + k = a + (k + 1) by omega]
      exact h (k + 1) (by simpa using hk)

/-- A place that one byte of a write reaches holds that byte. -/
theorem byteP_putAll_self (a : Nat) (d : Bytes) (i : Nat) (hi : i < d.length)
    (h : ∀ k, k < d.length → k ≠ i → s.phys (a + k) ≠ s.phys (a + i)) : (s.putAll a d).byteP (s.phys (a + i)) = d[i] := by
  induction d generalizing s a i with
  | nil => cases hi
  | cons b r ih =>
    rw [State.putAll]
    cases i with
    | zero =>
      rw [byteP_putAll_of_ne]
      · unfold State.byteP
        rw [Nat.add_zero, byteP_memPut, if_pos rfl]
        rfl
      · intro k hk
        rw [State.phys_of_regs (b := s) rfl, show a + 1 + k = a + (k + 1) by omega]
        exact h (k + 1) (by simpa using hk) (by omega)
    | succ i =>
      have e : s.phys (a + (i + 1)) = ({ s with mem := memPut s.mem (s.phys a) b } : State).phys (a + 1 + i) := by
        rw [show a + 1 + i = a + (i + 1) by omega]
        exact State.phys_of_regs rfl _
      rw [e, ih _ _ i (by simpa using hi)]
      · rfl
      · intro k hk hn
        rw [State.phys_of_regs (b := s) rfl, State.phys_of_regs (b := s) rfl, show a + 1 + k = a + (k + 1) by omega,
          show a + 1 + i = a + (i + 1) by omega]
        exact h (k + 1) (by simpa using hk) (by omega)

end Sys2Proof.Machine
end

