-- ==== Sys2Proof/Laws/Requests.lean ====
section
/-! SUPPORT. Laws of requests: what their end changes (R30, R344, R356), and what a command comes to that its context may run
(R343, R423). -/
namespace Sys2Proof.Machine

variable (s : State)

/-! A request changed, or ended: the requests of its context and the slowdown's period alone -/

@[simp] theorem State.draw_pending : s.draw.1.pending = s.pending := rfl
@[simp] theorem State.draw_regs : s.draw.1.regs = s.regs := rfl
@[simp] theorem State.draw_mem : s.draw.1.mem = s.mem := rfl
@[simp] theorem State.draw_ecc : s.draw.1.ecc = s.ecc := rfl
@[simp] theorem State.draw_ctxs : s.draw.1.ctxs = s.ctxs := rfl
@[simp] theorem State.draw_tlb : s.draw.1.tlb = s.tlb := rfl
@[simp] theorem State.draw_jobs : s.draw.1.jobs = s.jobs := rfl
@[simp] theorem State.draw_nextJob : s.draw.1.nextJob = s.nextJob := rfl
@[simp] theorem State.draw_idxs : s.draw.1.idxs = s.idxs := rfl
@[simp] theorem State.draw_press : s.draw.1.press = s.press := rfl
@[simp] theorem State.draw_pressOut : s.draw.1.pressOut = s.pressOut := rfl
@[simp] theorem State.draw_toFree : s.draw.1.toFree = s.toFree := rfl
@[simp] theorem State.draw_cellar : s.draw.1.cellar = s.cellar := rfl
@[simp] theorem State.draw_pool : s.draw.1.pool = s.pool := rfl
@[simp] theorem State.draw_parts : s.draw.1.parts = s.parts := rfl
@[simp] theorem State.draw_prefetch : s.draw.1.prefetch = s.prefetch := rfl
@[simp] theorem State.draw_episodes : s.draw.1.episodes = s.episodes := rfl
@[simp] theorem State.draw_arrivals : s.draw.1.arrivals = s.arrivals := rfl
@[simp] theorem State.draw_slow : s.draw.1.slow = s.slow := rfl
@[simp] theorem State.draw_slowAt : s.draw.1.slowAt = s.slowAt := rfl
@[simp] theorem State.draw_slowPer : s.draw.1.slowPer = s.slowPer := rfl
@[simp] theorem State.draw_fab : s.draw.1.fab = s.fab := rfl
@[simp] theorem State.draw_nl0 : s.draw.1.nl0 = s.nl0 := rfl
@[simp] theorem State.draw_nl1 : s.draw.1.nl1 = s.nl1 := rfl
@[simp] theorem State.draw_flt : s.draw.1.flt = s.flt := rfl
@[simp] theorem State.draw_sec : s.draw.1.sec = s.sec := rfl
@[simp] theorem State.draw_pwr : s.draw.1.pwr = s.pwr := rfl
@[simp] theorem State.draw_pins : s.draw.1.pins = s.pins := rfl
@[simp] theorem State.draw_intP : s.draw.1.intP = s.intP := rfl
@[simp] theorem State.noteSlow_pending (c q : Nat) (k : Code) : (s.noteSlow c q k).pending = s.pending := by
  unfold State.noteSlow
  split
  · dsimp only
    split <;> rfl
  · rfl
@[simp] theorem State.noteSlow_regs (c q : Nat) (k : Code) : (s.noteSlow c q k).regs = s.regs := by
  unfold State.noteSlow
  split
  · dsimp only
    split <;> rfl
  · rfl
@[simp] theorem State.noteSlow_mem (c q : Nat) (k : Code) : (s.noteSlow c q k).mem = s.mem := by
  unfold State.noteSlow
  split
  · dsimp only
    split <;> rfl
  · rfl
@[simp] theorem State.noteSlow_ecc (c q : Nat) (k : Code) : (s.noteSlow c q k).ecc = s.ecc := by
  unfold State.noteSlow
  split
  · dsimp only
    split <;> rfl
  · rfl
@[simp] theorem State.noteSlow_ctxs (c q : Nat) (k : Code) : (s.noteSlow c q k).ctxs = s.ctxs := by
  unfold State.noteSlow
  split
  · dsimp only
    split <;> rfl
  · rfl
@[simp] theorem State.noteSlow_tlb (c q : Nat) (k : Code) : (s.noteSlow c q k).tlb = s.tlb := by
  unfold State.noteSlow
  split
  · dsimp only
    split <;> rfl
  · rfl
@[simp] theorem State.noteSlow_jobs (c q : Nat) (k : Code) : (s.noteSlow c q k).jobs = s.jobs := by
  unfold State.noteSlow
  split
  · dsimp only
    split <;> rfl
  · rfl
@[simp] theorem State.noteSlow_nextJob (c q : Nat) (k : Code) : (s.noteSlow c q k).nextJob = s.nextJob := by
  unfold State.noteSlow
  split
  · dsimp only
    split <;> rfl
  · rfl
@[simp] theorem State.noteSlow_idxs (c q : Nat) (k : Code) : (s.noteSlow c q k).idxs = s.idxs := by
  unfold State.noteSlow
  split
  · dsimp only
    split <;> rfl
  · rfl
@[simp] theorem State.noteSlow_press (c q : Nat) (k : Code) : (s.noteSlow c q k).press = s.press := by
  unfold State.noteSlow
  split
  · dsimp only
    split <;> rfl
  · rfl
@[simp] theorem State.noteSlow_pressOut (c q : Nat) (k : Code) : (s.noteSlow c q k).pressOut = s.pressOut := by
  unfold State.noteSlow
  split
  · dsimp only
    split <;> rfl
  · rfl
@[simp] theorem State.noteSlow_toFree (c q : Nat) (k : Code) : (s.noteSlow c q k).toFree = s.toFree := by
  unfold State.noteSlow
  split
  · dsimp only
    split <;> rfl
  · rfl
@[simp] theorem State.noteSlow_cellar (c q : Nat) (k : Code) : (s.noteSlow c q k).cellar = s.cellar := by
  unfold State.noteSlow
  split
  · dsimp only
    split <;> rfl
  · rfl
@[simp] theorem State.noteSlow_pool (c q : Nat) (k : Code) : (s.noteSlow c q k).pool = s.pool := by
  unfold State.noteSlow
  split
  · dsimp only
    split <;> rfl
  · rfl
@[simp] theorem State.noteSlow_parts (c q : Nat) (k : Code) : (s.noteSlow c q k).parts = s.parts := by
  unfold State.noteSlow
  split
  · dsimp only
    split <;> rfl
  · rfl
@[simp] theorem State.noteSlow_prefetch (c q : Nat) (k : Code) : (s.noteSlow c q k).prefetch = s.prefetch := by
  unfold State.noteSlow
  split
  · dsimp only
    split <;> rfl
  · rfl
@[simp] theorem State.noteSlow_episodes (c q : Nat) (k : Code) : (s.noteSlow c q k).episodes = s.episodes := by
  unfold State.noteSlow
  split
  · dsimp only
    split <;> rfl
  · rfl
@[simp] theorem State.noteSlow_arrivals (c q : Nat) (k : Code) : (s.noteSlow c q k).arrivals = s.arrivals := by
  unfold State.noteSlow
  split
  · dsimp only
    split <;> rfl
  · rfl
@[simp] theorem State.noteSlow_slowAt (c q : Nat) (k : Code) : (s.noteSlow c q k).slowAt = s.slowAt := by
  unfold State.noteSlow
  split
  · dsimp only
    split <;> rfl
  · rfl
@[simp] theorem State.noteSlow_slowPer (c q : Nat) (k : Code) : (s.noteSlow c q k).slowPer = s.slowPer := by
  unfold State.noteSlow
  split
  · dsimp only
    split <;> rfl
  · rfl
@[simp] theorem State.noteSlow_fab (c q : Nat) (k : Code) : (s.noteSlow c q k).fab = s.fab := by
  unfold State.noteSlow
  split
  · dsimp only
    split <;> rfl
  · rfl
@[simp] theorem State.noteSlow_nl0 (c q : Nat) (k : Code) : (s.noteSlow c q k).nl0 = s.nl0 := by
  unfold State.noteSlow
  split
  · dsimp only
    split <;> rfl
  · rfl
@[simp] theorem State.noteSlow_nl1 (c q : Nat) (k : Code) : (s.noteSlow c q k).nl1 = s.nl1 := by
  unfold State.noteSlow
  split
  · dsimp only
    split <;> rfl
  · rfl
@[simp] theorem State.noteSlow_flt (c q : Nat) (k : Code) : (s.noteSlow c q k).flt = s.flt := by
  unfold State.noteSlow
  split
  · dsimp only
    split <;> rfl
  · rfl
@[simp] theorem State.noteSlow_sec (c q : Nat) (k : Code) : (s.noteSlow c q k).sec = s.sec := by
  unfold State.noteSlow
  split
  · dsimp only
    split <;> rfl
  · rfl
@[simp] theorem State.noteSlow_pwr (c q : Nat) (k : Code) : (s.noteSlow c q k).pwr = s.pwr := by
  unfold State.noteSlow
  split
  · dsimp only
    split <;> rfl
  · rfl
@[simp] theorem State.noteSlow_pins (c q : Nat) (k : Code) : (s.noteSlow c q k).pins = s.pins := by
  unfold State.noteSlow
  split
  · dsimp only
    split <;> rfl
  · rfl
@[simp] theorem State.noteSlow_intP (c q : Nat) (k : Code) : (s.noteSlow c q k).intP = s.intP := by
  unfold State.noteSlow
  split
  · dsimp only
    split <;> rfl
  · rfl
@[simp] theorem State.setReq_pending (c q : Nat) (g : Req → Req) : (s.setReq c q g).pending = s.pending := rfl
@[simp] theorem State.setWork_pending (c q : Nat) (w : Work) : (s.setWork c q w).pending = s.pending := rfl
@[simp] theorem State.setReq_regs (c q : Nat) (g : Req → Req) : (s.setReq c q g).regs = s.regs := rfl
@[simp] theorem State.setWork_regs (c q : Nat) (w : Work) : (s.setWork c q w).regs = s.regs := rfl
@[simp] theorem State.setReq_mem (c q : Nat) (g : Req → Req) : (s.setReq c q g).mem = s.mem := rfl
@[simp] theorem State.setWork_mem (c q : Nat) (w : Work) : (s.setWork c q w).mem = s.mem := rfl
@[simp] theorem State.setReq_ecc (c q : Nat) (g : Req → Req) : (s.setReq c q g).ecc = s.ecc := rfl
@[simp] theorem State.setWork_ecc (c q : Nat) (w : Work) : (s.setWork c q w).ecc = s.ecc := rfl
@[simp] theorem State.setReq_tlb (c q : Nat) (g : Req → Req) : (s.setReq c q g).tlb = s.tlb := rfl
@[simp] theorem State.setWork_tlb (c q : Nat) (w : Work) : (s.setWork c q w).tlb = s.tlb := rfl
@[simp] theorem State.setReq_jobs (c q : Nat) (g : Req → Req) : (s.setReq c q g).jobs = s.jobs := rfl
@[simp] theorem State.setWork_jobs (c q : Nat) (w : Work) : (s.setWork c q w).jobs = s.jobs := rfl
@[simp] theorem State.setReq_nextJob (c q : Nat) (g : Req → Req) : (s.setReq c q g).nextJob = s.nextJob := rfl
@[simp] theorem State.setWork_nextJob (c q : Nat) (w : Work) : (s.setWork c q w).nextJob = s.nextJob := rfl
@[simp] theorem State.setReq_idxs (c q : Nat) (g : Req → Req) : (s.setReq c q g).idxs = s.idxs := rfl
@[simp] theorem State.setWork_idxs (c q : Nat) (w : Work) : (s.setWork c q w).idxs = s.idxs := rfl
@[simp] theorem State.setReq_press (c q : Nat) (g : Req → Req) : (s.setReq c q g).press = s.press := rfl
@[simp] theorem State.setWork_press (c q : Nat) (w : Work) : (s.setWork c q w).press = s.press := rfl
@[simp] theorem State.setReq_pressOut (c q : Nat) (g : Req → Req) : (s.setReq c q g).pressOut = s.pressOut := rfl
@[simp] theorem State.setWork_pressOut (c q : Nat) (w : Work) : (s.setWork c q w).pressOut = s.pressOut := rfl
@[simp] theorem State.setReq_toFree (c q : Nat) (g : Req → Req) : (s.setReq c q g).toFree = s.toFree := rfl
@[simp] theorem State.setWork_toFree (c q : Nat) (w : Work) : (s.setWork c q w).toFree = s.toFree := rfl
@[simp] theorem State.setReq_cellar (c q : Nat) (g : Req → Req) : (s.setReq c q g).cellar = s.cellar := rfl
@[simp] theorem State.setWork_cellar (c q : Nat) (w : Work) : (s.setWork c q w).cellar = s.cellar := rfl
@[simp] theorem State.setReq_pool (c q : Nat) (g : Req → Req) : (s.setReq c q g).pool = s.pool := rfl
@[simp] theorem State.setWork_pool (c q : Nat) (w : Work) : (s.setWork c q w).pool = s.pool := rfl
@[simp] theorem State.setReq_parts (c q : Nat) (g : Req → Req) : (s.setReq c q g).parts = s.parts := rfl
@[simp] theorem State.setWork_parts (c q : Nat) (w : Work) : (s.setWork c q w).parts = s.parts := rfl
@[simp] theorem State.setReq_prefetch (c q : Nat) (g : Req → Req) : (s.setReq c q g).prefetch = s.prefetch := rfl
@[simp] theorem State.setWork_prefetch (c q : Nat) (w : Work) : (s.setWork c q w).prefetch = s.prefetch := rfl
@[simp] theorem State.setReq_episodes (c q : Nat) (g : Req → Req) : (s.setReq c q g).episodes = s.episodes := rfl
@[simp] theorem State.setWork_episodes (c q : Nat) (w : Work) : (s.setWork c q w).episodes = s.episodes := rfl
@[simp] theorem State.setReq_arrivals (c q : Nat) (g : Req → Req) : (s.setReq c q g).arrivals = s.arrivals := rfl
@[simp] theorem State.setWork_arrivals (c q : Nat) (w : Work) : (s.setWork c q w).arrivals = s.arrivals := rfl
@[simp] theorem State.setReq_slow (c q : Nat) (g : Req → Req) : (s.setReq c q g).slow = s.slow := rfl
@[simp] theorem State.setWork_slow (c q : Nat) (w : Work) : (s.setWork c q w).slow = s.slow := rfl
@[simp] theorem State.setReq_slowAt (c q : Nat) (g : Req → Req) : (s.setReq c q g).slowAt = s.slowAt := rfl
@[simp] theorem State.setWork_slowAt (c q : Nat) (w : Work) : (s.setWork c q w).slowAt = s.slowAt := rfl
@[simp] theorem State.setReq_slowPer (c q : Nat) (g : Req → Req) : (s.setReq c q g).slowPer = s.slowPer := rfl
@[simp] theorem State.setWork_slowPer (c q : Nat) (w : Work) : (s.setWork c q w).slowPer = s.slowPer := rfl
@[simp] theorem State.setReq_fab (c q : Nat) (g : Req → Req) : (s.setReq c q g).fab = s.fab := rfl
@[simp] theorem State.setWork_fab (c q : Nat) (w : Work) : (s.setWork c q w).fab = s.fab := rfl
@[simp] theorem State.setReq_nl0 (c q : Nat) (g : Req → Req) : (s.setReq c q g).nl0 = s.nl0 := rfl
@[simp] theorem State.setWork_nl0 (c q : Nat) (w : Work) : (s.setWork c q w).nl0 = s.nl0 := rfl
@[simp] theorem State.setReq_nl1 (c q : Nat) (g : Req → Req) : (s.setReq c q g).nl1 = s.nl1 := rfl
@[simp] theorem State.setWork_nl1 (c q : Nat) (w : Work) : (s.setWork c q w).nl1 = s.nl1 := rfl
@[simp] theorem State.setReq_flt (c q : Nat) (g : Req → Req) : (s.setReq c q g).flt = s.flt := rfl
@[simp] theorem State.setWork_flt (c q : Nat) (w : Work) : (s.setWork c q w).flt = s.flt := rfl
@[simp] theorem State.setReq_sec (c q : Nat) (g : Req → Req) : (s.setReq c q g).sec = s.sec := rfl
@[simp] theorem State.setWork_sec (c q : Nat) (w : Work) : (s.setWork c q w).sec = s.sec := rfl
@[simp] theorem State.setReq_pwr (c q : Nat) (g : Req → Req) : (s.setReq c q g).pwr = s.pwr := rfl
@[simp] theorem State.setWork_pwr (c q : Nat) (w : Work) : (s.setWork c q w).pwr = s.pwr := rfl
@[simp] theorem State.setReq_pins (c q : Nat) (g : Req → Req) : (s.setReq c q g).pins = s.pins := rfl
@[simp] theorem State.setWork_pins (c q : Nat) (w : Work) : (s.setWork c q w).pins = s.pins := rfl
@[simp] theorem State.setReq_intP (c q : Nat) (g : Req → Req) : (s.setReq c q g).intP = s.intP := rfl
@[simp] theorem State.setWork_intP (c q : Nat) (w : Work) : (s.setWork c q w).intP = s.intP := rfl
@[simp] theorem State.setReq_free (c q : Nat) (g : Req → Req) : (s.setReq c q g).free = s.free := rfl
@[simp] theorem State.setWork_free (c q : Nat) (w : Work) : (s.setWork c q w).free = s.free := rfl
@[simp] theorem State.finish_pending (c q : Nat) (k : Compl) : (s.finish c q k).pending = s.pending := by
  rw [State.finish, State.setCtx_pending, State.setReq_pending, State.noteSlow_pending]
@[simp] theorem State.finishCode_pending (c q : Nat) (k : Code) : (s.finishCode c q k).pending = s.pending := by rw [State.finishCode, State.finish_pending]
@[simp] theorem State.finish_regs (c q : Nat) (k : Compl) : (s.finish c q k).regs = s.regs := by
  rw [State.finish, State.setCtx_regs, State.setReq_regs, State.noteSlow_regs]
@[simp] theorem State.finishCode_regs (c q : Nat) (k : Code) : (s.finishCode c q k).regs = s.regs := by rw [State.finishCode, State.finish_regs]
@[simp] theorem State.finish_mem (c q : Nat) (k : Compl) : (s.finish c q k).mem = s.mem := by
  rw [State.finish, State.setCtx_mem, State.setReq_mem, State.noteSlow_mem]
@[simp] theorem State.finishCode_mem (c q : Nat) (k : Code) : (s.finishCode c q k).mem = s.mem := by rw [State.finishCode, State.finish_mem]
@[simp] theorem State.finish_ecc (c q : Nat) (k : Compl) : (s.finish c q k).ecc = s.ecc := by
  rw [State.finish, State.setCtx_ecc, State.setReq_ecc, State.noteSlow_ecc]
@[simp] theorem State.finishCode_ecc (c q : Nat) (k : Code) : (s.finishCode c q k).ecc = s.ecc := by rw [State.finishCode, State.finish_ecc]
@[simp] theorem State.finish_tlb (c q : Nat) (k : Compl) : (s.finish c q k).tlb = s.tlb := by
  rw [State.finish, State.setCtx_tlb, State.setReq_tlb, State.noteSlow_tlb]
@[simp] theorem State.finishCode_tlb (c q : Nat) (k : Code) : (s.finishCode c q k).tlb = s.tlb := by rw [State.finishCode, State.finish_tlb]
@[simp] theorem State.finish_jobs (c q : Nat) (k : Compl) : (s.finish c q k).jobs = s.jobs := by
  rw [State.finish, State.setCtx_jobs, State.setReq_jobs, State.noteSlow_jobs]
@[simp] theorem State.finishCode_jobs (c q : Nat) (k : Code) : (s.finishCode c q k).jobs = s.jobs := by rw [State.finishCode, State.finish_jobs]
@[simp] theorem State.finish_nextJob (c q : Nat) (k : Compl) : (s.finish c q k).nextJob = s.nextJob := by
  rw [State.finish, State.setCtx_nextJob, State.setReq_nextJob, State.noteSlow_nextJob]
@[simp] theorem State.finishCode_nextJob (c q : Nat) (k : Code) : (s.finishCode c q k).nextJob = s.nextJob := by rw [State.finishCode, State.finish_nextJob]
@[simp] theorem State.finish_idxs (c q : Nat) (k : Compl) : (s.finish c q k).idxs = s.idxs := by
  rw [State.finish, State.setCtx_idxs, State.setReq_idxs, State.noteSlow_idxs]
@[simp] theorem State.finishCode_idxs (c q : Nat) (k : Code) : (s.finishCode c q k).idxs = s.idxs := by rw [State.finishCode, State.finish_idxs]
@[simp] theorem State.finish_press (c q : Nat) (k : Compl) : (s.finish c q k).press = s.press := by
  rw [State.finish, State.setCtx_press, State.setReq_press, State.noteSlow_press]
@[simp] theorem State.finishCode_press (c q : Nat) (k : Code) : (s.finishCode c q k).press = s.press := by rw [State.finishCode, State.finish_press]
@[simp] theorem State.finish_pressOut (c q : Nat) (k : Compl) : (s.finish c q k).pressOut = s.pressOut := by
  rw [State.finish, State.setCtx_pressOut, State.setReq_pressOut, State.noteSlow_pressOut]
@[simp] theorem State.finishCode_pressOut (c q : Nat) (k : Code) : (s.finishCode c q k).pressOut = s.pressOut := by rw [State.finishCode, State.finish_pressOut]
@[simp] theorem State.finish_toFree (c q : Nat) (k : Compl) : (s.finish c q k).toFree = s.toFree := by
  rw [State.finish, State.setCtx_toFree, State.setReq_toFree, State.noteSlow_toFree]
@[simp] theorem State.finishCode_toFree (c q : Nat) (k : Code) : (s.finishCode c q k).toFree = s.toFree := by rw [State.finishCode, State.finish_toFree]
@[simp] theorem State.finish_cellar (c q : Nat) (k : Compl) : (s.finish c q k).cellar = s.cellar := by
  rw [State.finish, State.setCtx_cellar, State.setReq_cellar, State.noteSlow_cellar]
@[simp] theorem State.finishCode_cellar (c q : Nat) (k : Code) : (s.finishCode c q k).cellar = s.cellar := by rw [State.finishCode, State.finish_cellar]
@[simp] theorem State.finish_pool (c q : Nat) (k : Compl) : (s.finish c q k).pool = s.pool := by
  rw [State.finish, State.setCtx_pool, State.setReq_pool, State.noteSlow_pool]
@[simp] theorem State.finishCode_pool (c q : Nat) (k : Code) : (s.finishCode c q k).pool = s.pool := by rw [State.finishCode, State.finish_pool]
@[simp] theorem State.finish_parts (c q : Nat) (k : Compl) : (s.finish c q k).parts = s.parts := by
  rw [State.finish, State.setCtx_parts, State.setReq_parts, State.noteSlow_parts]
@[simp] theorem State.finishCode_parts (c q : Nat) (k : Code) : (s.finishCode c q k).parts = s.parts := by rw [State.finishCode, State.finish_parts]
@[simp] theorem State.finish_prefetch (c q : Nat) (k : Compl) : (s.finish c q k).prefetch = s.prefetch := by
  rw [State.finish, State.setCtx_prefetch, State.setReq_prefetch, State.noteSlow_prefetch]
@[simp] theorem State.finishCode_prefetch (c q : Nat) (k : Code) : (s.finishCode c q k).prefetch = s.prefetch := by rw [State.finishCode, State.finish_prefetch]
@[simp] theorem State.finish_episodes (c q : Nat) (k : Compl) : (s.finish c q k).episodes = s.episodes := by
  rw [State.finish, State.setCtx_episodes, State.setReq_episodes, State.noteSlow_episodes]
@[simp] theorem State.finishCode_episodes (c q : Nat) (k : Code) : (s.finishCode c q k).episodes = s.episodes := by rw [State.finishCode, State.finish_episodes]
@[simp] theorem State.finish_arrivals (c q : Nat) (k : Compl) : (s.finish c q k).arrivals = s.arrivals := by
  rw [State.finish, State.setCtx_arrivals, State.setReq_arrivals, State.noteSlow_arrivals]
@[simp] theorem State.finishCode_arrivals (c q : Nat) (k : Code) : (s.finishCode c q k).arrivals = s.arrivals := by rw [State.finishCode, State.finish_arrivals]
@[simp] theorem State.finish_slowAt (c q : Nat) (k : Compl) : (s.finish c q k).slowAt = s.slowAt := by
  rw [State.finish, State.setCtx_slowAt, State.setReq_slowAt, State.noteSlow_slowAt]
@[simp] theorem State.finishCode_slowAt (c q : Nat) (k : Code) : (s.finishCode c q k).slowAt = s.slowAt := by rw [State.finishCode, State.finish_slowAt]
@[simp] theorem State.finish_slowPer (c q : Nat) (k : Compl) : (s.finish c q k).slowPer = s.slowPer := by
  rw [State.finish, State.setCtx_slowPer, State.setReq_slowPer, State.noteSlow_slowPer]
@[simp] theorem State.finishCode_slowPer (c q : Nat) (k : Code) : (s.finishCode c q k).slowPer = s.slowPer := by rw [State.finishCode, State.finish_slowPer]
@[simp] theorem State.finish_fab (c q : Nat) (k : Compl) : (s.finish c q k).fab = s.fab := by
  rw [State.finish, State.setCtx_fab, State.setReq_fab, State.noteSlow_fab]
@[simp] theorem State.finishCode_fab (c q : Nat) (k : Code) : (s.finishCode c q k).fab = s.fab := by rw [State.finishCode, State.finish_fab]
@[simp] theorem State.finish_nl0 (c q : Nat) (k : Compl) : (s.finish c q k).nl0 = s.nl0 := by
  rw [State.finish, State.setCtx_nl0, State.setReq_nl0, State.noteSlow_nl0]
@[simp] theorem State.finishCode_nl0 (c q : Nat) (k : Code) : (s.finishCode c q k).nl0 = s.nl0 := by rw [State.finishCode, State.finish_nl0]
@[simp] theorem State.finish_nl1 (c q : Nat) (k : Compl) : (s.finish c q k).nl1 = s.nl1 := by
  rw [State.finish, State.setCtx_nl1, State.setReq_nl1, State.noteSlow_nl1]
@[simp] theorem State.finishCode_nl1 (c q : Nat) (k : Code) : (s.finishCode c q k).nl1 = s.nl1 := by rw [State.finishCode, State.finish_nl1]
@[simp] theorem State.finish_flt (c q : Nat) (k : Compl) : (s.finish c q k).flt = s.flt := by
  rw [State.finish, State.setCtx_flt, State.setReq_flt, State.noteSlow_flt]
@[simp] theorem State.finishCode_flt (c q : Nat) (k : Code) : (s.finishCode c q k).flt = s.flt := by rw [State.finishCode, State.finish_flt]
@[simp] theorem State.finish_sec (c q : Nat) (k : Compl) : (s.finish c q k).sec = s.sec := by
  rw [State.finish, State.setCtx_sec, State.setReq_sec, State.noteSlow_sec]
@[simp] theorem State.finishCode_sec (c q : Nat) (k : Code) : (s.finishCode c q k).sec = s.sec := by rw [State.finishCode, State.finish_sec]
@[simp] theorem State.finish_pwr (c q : Nat) (k : Compl) : (s.finish c q k).pwr = s.pwr := by
  rw [State.finish, State.setCtx_pwr, State.setReq_pwr, State.noteSlow_pwr]
@[simp] theorem State.finishCode_pwr (c q : Nat) (k : Code) : (s.finishCode c q k).pwr = s.pwr := by rw [State.finishCode, State.finish_pwr]
@[simp] theorem State.finish_pins (c q : Nat) (k : Compl) : (s.finish c q k).pins = s.pins := by
  rw [State.finish, State.setCtx_pins, State.setReq_pins, State.noteSlow_pins]
@[simp] theorem State.finishCode_pins (c q : Nat) (k : Code) : (s.finishCode c q k).pins = s.pins := by rw [State.finishCode, State.finish_pins]
@[simp] theorem State.finish_intP (c q : Nat) (k : Compl) : (s.finish c q k).intP = s.intP := by
  rw [State.finish, State.setCtx_intP, State.setReq_intP, State.noteSlow_intP]
@[simp] theorem State.finishCode_intP (c q : Nat) (k : Code) : (s.finishCode c q k).intP = s.intP := by rw [State.finishCode, State.finish_intP]
@[simp] theorem State.noteSlow_reg (c q : Nat) (k : Code) (r : Reg) (i : Nat) : (s.noteSlow c q k).reg r i = s.reg r i := State.reg_of_regs (s.noteSlow_regs c q k) r i
@[simp] theorem State.noteSlow_f (c q : Nat) (k : Code) (x : Fld) (i : Nat) : (s.noteSlow c q k).f x i = s.f x i := State.f_of_regs (s.noteSlow_regs c q k) x i
@[simp] theorem State.setReq_reg (c q : Nat) (g : Req → Req) (r : Reg) (i : Nat) : (s.setReq c q g).reg r i = s.reg r i := State.reg_of_regs (s.setReq_regs c q g) r i
@[simp] theorem State.setReq_f (c q : Nat) (g : Req → Req) (x : Fld) (i : Nat) : (s.setReq c q g).f x i = s.f x i := State.f_of_regs (s.setReq_regs c q g) x i
@[simp] theorem State.setWork_reg (c q : Nat) (w : Work) (r : Reg) (i : Nat) : (s.setWork c q w).reg r i = s.reg r i := State.reg_of_regs (s.setWork_regs c q w) r i
@[simp] theorem State.setWork_f (c q : Nat) (w : Work) (x : Fld) (i : Nat) : (s.setWork c q w).f x i = s.f x i := State.f_of_regs (s.setWork_regs c q w) x i
@[simp] theorem State.finish_reg (c q : Nat) (k : Compl) (r : Reg) (i : Nat) : (s.finish c q k).reg r i = s.reg r i := State.reg_of_regs (s.finish_regs c q k) r i
@[simp] theorem State.finish_f (c q : Nat) (k : Compl) (x : Fld) (i : Nat) : (s.finish c q k).f x i = s.f x i := State.f_of_regs (s.finish_regs c q k) x i
@[simp] theorem State.finishCode_reg (c q : Nat) (k : Code) (r : Reg) (i : Nat) : (s.finishCode c q k).reg r i = s.reg r i := State.reg_of_regs (s.finishCode_regs c q k) r i
@[simp] theorem State.finishCode_f (c q : Nat) (k : Code) (x : Fld) (i : Nat) : (s.finishCode c q k).f x i = s.f x i := State.f_of_regs (s.finishCode_regs c q k) x i

/-! The list of a context's requests -/

theorem find_replaceFirst {α : Type} (p : α → Bool) (f : α → α) (l : List α) (x : α) (h : l.find? p = some x) (k : p (f x) = true) :
    (replaceFirst p f l).find? p = some (f x) := by
  induction l with
  | nil => cases h
  | cons y l ih =>
    rw [List.find?_cons] at h
    rw [replaceFirst]
    cases e : p y with
    | true =>
      rw [e] at h
      cases h
      rw [if_pos rfl, List.find?_cons, k]
    | false =>
      rw [e] at h
      rw [if_neg (by simp), List.find?_cons, e]
      exact ih h

/-- The request of a ring slot after it has been changed and goes on. -/
theorem State.req_setReq {c q : Nat} {g : Req → Req} {r : Req} (h : s.req c q = some r) (k : (g r).slot = r.slot)
    (w : (g r).work.ended = false) : (s.setReq c q g).req c q = some (g r) := by
  unfold State.req at h ⊢
  unfold State.setReq
  rw [State.setCtx_ctx_self]
  apply find_replaceFirst _ _ _ _ h
  have := List.find?_some h
  simp only [Bool.and_eq_true] at this
  simp [k, w, this.1]

/-! Commands that may take effect -/

theorem withLines_done {n : Nat} {t : Nat} {f : State → State} (h : (f s).pool.needs = []) :
    State.withLines (n + 1) s t f = f s := by
  rw [State.withLines]
  simp only [h, if_true]

/-- R349: a request that has begun begins no second time. -/
theorem State.begin_begun {c q : Nat} {r : Req} (h : r.begun = true) : s.begin c q r = s := by rw [State.begin, if_pos h]

theorem State.accept_begun {c : Nat} {r : Req} (h : r.begun = true) : s.accept c r = r := by rw [State.accept, if_pos h]

/-- A command of a context that may take effect and needs no line of cask space that the node lacks: its effect, once, on the
state in which its request has begun. -/
theorem runCmd_runs {c q op : Nat} {r : Req} {f : State → Req → State} (h : Runs s c q op r)
    (n : (f (s.begin c q r) (s.accept c r)).pool.needs = []) :
    s.runCmd c q op f = f (s.begin c q r) (s.accept c r) := by
  obtain ⟨-, -, h1, h2, h3, h4, h5⟩ := h
  unfold State.runCmd
  rw [h1]
  dsimp only
  have a : (r.begun || s.hasTurn c q) = true := by
    rcases h5 with e | ⟨e, -⟩ <;> rw [e]
    · rw [Bool.true_or]
    · rw [Bool.or_true]
  have b : (r.begun || s.partAwake (s.partOf c)) = true := by
    rcases h5 with e | ⟨-, e⟩ <;> rw [e]
    · rw [Bool.true_or]
    · rw [Bool.or_true]
  rw [if_pos (by rw [h2, h3, h4, a]; simp), if_pos b, withLines_done _ n]

end Sys2Proof.Machine
end

