-- ==== Sys2Proof/Laws/Shapes.lean ====
section
/-! SUPPORT. The shape of every command's effect, one lemma per command: it acts while the node's clocks run, or whatever clocks run;
JTAG_INSTRUCTION alone may be refused. -/
namespace Sys2Proof.Machine

/-- A command that does nothing while the node's clocks are stopped. -/
def ActsLive (c : Instr) : Prop := ∀ s, ∃ f, exec c s = gated s f

/-- A command that acts whatever clocks run. -/
def ActsAlways (c : Instr) : Prop := ∀ s, ∃ f, exec c s = always s f

theorem exec_takeDescriptor {c} (s : State) : exec (.takeDescriptor c) s = execTakeDescriptor c s := rfl
theorem takeDescriptor_shape {c} : ActsLive (.takeDescriptor c) := fun s => ⟨_, Sys2Proof.Machine.execTakeDescriptor.eq_1 c s⟩
theorem exec_writeCompletion {c} (s : State) : exec (.writeCompletion c) s = execWriteCompletion c s := rfl
theorem writeCompletion_shape {c} : ActsLive (.writeCompletion c) := fun s => ⟨_, Sys2Proof.Machine.execWriteCompletion.eq_1 c s⟩
theorem exec_insert {c q} (s : State) : exec (.insert c q) s = execInsert c q s := rfl
theorem insert_shape {c q} : ActsLive (.insert c q) := fun s => ⟨_, Sys2Proof.Machine.execInsert.eq_1 c q s⟩
theorem exec_delete {c q} (s : State) : exec (.delete c q) s = execDelete c q s := rfl
theorem delete_shape {c q} : ActsLive (.delete c q) := fun s => ⟨_, Sys2Proof.Machine.execDelete.eq_1 c q s⟩
theorem exec_batch {c q} (s : State) : exec (.batch c q) s = execBatch c q s := rfl
theorem batch_shape {c q} : ActsLive (.batch c q) := fun s => ⟨_, Sys2Proof.Machine.execBatch.eq_1 c q s⟩
theorem exec_pin {c q} (s : State) : exec (.pin c q) s = execPin c q s := rfl
theorem pin_shape {c q} : ActsLive (.pin c q) := fun s => ⟨_, Sys2Proof.Machine.execPin.eq_1 c q s⟩
theorem exec_unpin {c q} (s : State) : exec (.unpin c q) s = execUnpin c q s := rfl
theorem unpin_shape {c q} : ActsLive (.unpin c q) := fun s => ⟨_, Sys2Proof.Machine.execUnpin.eq_1 c q s⟩
theorem exec_search {c q} (s : State) : exec (.search c q) s = execSearch c q s := rfl
theorem search_shape {c q} : ActsLive (.search c q) := fun s => ⟨_, Sys2Proof.Machine.execSearch.eq_1 c q s⟩
theorem exec_searchGraph {c q} (s : State) : exec (.searchGraph c q) s = execSearchGraph c q s := rfl
theorem searchGraph_shape {c q} : ActsLive (.searchGraph c q) := fun s => ⟨_, Sys2Proof.Machine.execSearchGraph.eq_1 c q s⟩
theorem exec_searchDelete {c q} (s : State) : exec (.searchDelete c q) s = execSearchDelete c q s := rfl
theorem searchDelete_shape {c q} : ActsLive (.searchDelete c q) := fun s => ⟨_, Sys2Proof.Machine.execSearchDelete.eq_1 c q s⟩
theorem exec_select {c q} (s : State) : exec (.select c q) s = execSelect c q s := rfl
theorem select_shape {c q} : ActsLive (.select c q) := fun s => ⟨_, Sys2Proof.Machine.execSelect.eq_1 c q s⟩
theorem exec_attend {c q} (s : State) : exec (.attend c q) s = execAttend c q s := rfl
theorem attend_shape {c q} : ActsLive (.attend c q) := fun s => ⟨_, Sys2Proof.Machine.execAttend.eq_1 c q s⟩
theorem exec_attendBwd {c q} (s : State) : exec (.attendBwd c q) s = execAttendBwd c q s := rfl
theorem attendBwd_shape {c q} : ActsLive (.attendBwd c q) := fun s => ⟨_, Sys2Proof.Machine.execAttendBwd.eq_1 c q s⟩
theorem exec_gather {c q} (s : State) : exec (.gather c q) s = execGather c q s := rfl
theorem gather_shape {c q} : ActsLive (.gather c q) := fun s => ⟨_, Sys2Proof.Machine.execGather.eq_1 c q s⟩
theorem exec_scatter {c q} (s : State) : exec (.scatter c q) s = execScatter c q s := rfl
theorem scatter_shape {c q} : ActsLive (.scatter c q) := fun s => ⟨_, Sys2Proof.Machine.execScatter.eq_1 c q s⟩
theorem exec_rowWrite {c q} (s : State) : exec (.rowWrite c q) s = execRowWrite c q s := rfl
theorem rowWrite_shape {c q} : ActsLive (.rowWrite c q) := fun s => ⟨_, Sys2Proof.Machine.execRowWrite.eq_1 c q s⟩
theorem exec_publish {c q} (s : State) : exec (.publish c q) s = execPublish c q s := rfl
theorem publish_shape {c q} : ActsLive (.publish c q) := fun s => ⟨_, Sys2Proof.Machine.execPublish.eq_1 c q s⟩
theorem exec_cellarRead {c q} (s : State) : exec (.cellarRead c q) s = execCellarRead c q s := rfl
theorem cellarRead_shape {c q} : ActsLive (.cellarRead c q) := fun s => ⟨_, Sys2Proof.Machine.execCellarRead.eq_1 c q s⟩
theorem exec_cellarWrite {c q} (s : State) : exec (.cellarWrite c q) s = execCellarWrite c q s := rfl
theorem cellarWrite_shape {c q} : ActsLive (.cellarWrite c q) := fun s => ⟨_, Sys2Proof.Machine.execCellarWrite.eq_1 c q s⟩
theorem exec_cellarDiscard {c q} (s : State) : exec (.cellarDiscard c q) s = execCellarDiscard c q s := rfl
theorem cellarDiscard_shape {c q} : ActsLive (.cellarDiscard c q) := fun s => ⟨_, Sys2Proof.Machine.execCellarDiscard.eq_1 c q s⟩
theorem exec_caskHint {c q} (s : State) : exec (.caskHint c q) s = execCaskHint c q s := rfl
theorem caskHint_shape {c q} : ActsLive (.caskHint c q) := fun s => ⟨_, Sys2Proof.Machine.execCaskHint.eq_1 c q s⟩
theorem exec_caskFlush {c q} (s : State) : exec (.caskFlush c q) s = execCaskFlush c q s := rfl
theorem caskFlush_shape {c q} : ActsLive (.caskFlush c q) := fun s => ⟨_, Sys2Proof.Machine.execCaskFlush.eq_1 c q s⟩
theorem exec_caskLend {c q} (s : State) : exec (.caskLend c q) s = execCaskLend c q s := rfl
theorem caskLend_shape {c q} : ActsLive (.caskLend c q) := fun s => ⟨_, Sys2Proof.Machine.execCaskLend.eq_1 c q s⟩
theorem exec_caskReclaim {c q} (s : State) : exec (.caskReclaim c q) s = execCaskReclaim c q s := rfl
theorem caskReclaim_shape {c q} : ActsLive (.caskReclaim c q) := fun s => ⟨_, Sys2Proof.Machine.execCaskReclaim.eq_1 c q s⟩
theorem exec_caskWithdraw {c q} (s : State) : exec (.caskWithdraw c q) s = execCaskWithdraw c q s := rfl
theorem caskWithdraw_shape {c q} : ActsLive (.caskWithdraw c q) := fun s => ⟨_, Sys2Proof.Machine.execCaskWithdraw.eq_1 c q s⟩
theorem exec_syncArm {c q} (s : State) : exec (.syncArm c q) s = execSyncArm c q s := rfl
theorem syncArm_shape {c q} : ActsLive (.syncArm c q) := fun s => ⟨_, Sys2Proof.Machine.execSyncArm.eq_1 c q s⟩
theorem exec_syncArrive {c q} (s : State) : exec (.syncArrive c q) s = execSyncArrive c q s := rfl
theorem syncArrive_shape {c q} : ActsLive (.syncArrive c q) := fun s => ⟨_, Sys2Proof.Machine.execSyncArrive.eq_1 c q s⟩
theorem exec_syncWait {c q} (s : State) : exec (.syncWait c q) s = execSyncWait c q s := rfl
theorem syncWait_shape {c q} : ActsLive (.syncWait c q) := fun s => ⟨_, Sys2Proof.Machine.execSyncWait.eq_1 c q s⟩
theorem exec_syncDisarm {c q} (s : State) : exec (.syncDisarm c q) s = execSyncDisarm c q s := rfl
theorem syncDisarm_shape {c q} : ActsLive (.syncDisarm c q) := fun s => ⟨_, Sys2Proof.Machine.execSyncDisarm.eq_1 c q s⟩
theorem exec_syncPost {c q} (s : State) : exec (.syncPost c q) s = execSyncPost c q s := rfl
theorem syncPost_shape {c q} : ActsLive (.syncPost c q) := fun s => ⟨_, Sys2Proof.Machine.execSyncPost.eq_1 c q s⟩
theorem exec_syncTake {c q} (s : State) : exec (.syncTake c q) s = execSyncTake c q s := rfl
theorem syncTake_shape {c q} : ActsLive (.syncTake c q) := fun s => ⟨_, Sys2Proof.Machine.execSyncTake.eq_1 c q s⟩
theorem exec_broadcast {c q} (s : State) : exec (.broadcast c q) s = execBroadcast c q s := rfl
theorem broadcast_shape {c q} : ActsLive (.broadcast c q) := fun s => ⟨_, Sys2Proof.Machine.execBroadcast.eq_1 c q s⟩
theorem exec_passGroupTimeout {c q} (s : State) : exec (.passGroupTimeout c q) s = execPassGroupTimeout c q s := rfl
theorem passGroupTimeout_shape {c q} : ActsLive (.passGroupTimeout c q) := fun s => ⟨_, Sys2Proof.Machine.execPassGroupTimeout.eq_1 c q s⟩
theorem exec_scan {t u cmd} (s : State) : exec (.scan t u cmd) s = execScan t u cmd s := rfl
theorem scan_shape {t u cmd} : ActsLive (.scan t u cmd) := fun s => ⟨_, Sys2Proof.Machine.execScan.eq_1 t u cmd s⟩
theorem exec_attn {t u cmd} (s : State) : exec (.attn t u cmd) s = execAttn t u cmd s := rfl
theorem attn_shape {t u cmd} : ActsLive (.attn t u cmd) := fun s => ⟨_, Sys2Proof.Machine.execAttn.eq_1 t u cmd s⟩
theorem exec_qk {t u cmd} (s : State) : exec (.qk t u cmd) s = execQk t u cmd s := rfl
theorem qk_shape {t u cmd} : ActsLive (.qk t u cmd) := fun s => ⟨_, Sys2Proof.Machine.execQk.eq_1 t u cmd s⟩
theorem exec_write {t u cmd data enables} (s : State) : exec (.write t u cmd data enables) s = execWrite t u cmd data enables s := rfl
theorem write_shape {t u cmd data enables} : ActsLive (.write t u cmd data enables) := fun s => ⟨_, Sys2Proof.Machine.execWrite.eq_1 t u cmd data enables s⟩
theorem exec_rack {t u cmd} (s : State) : exec (.rack t u cmd) s = execRack t u cmd s := rfl
theorem rack_shape {t u cmd} : ActsLive (.rack t u cmd) := fun s => ⟨_, Sys2Proof.Machine.execRack.eq_1 t u cmd s⟩
theorem exec_lutLoad {t st cmd data} (s : State) : exec (.lutLoad t st cmd data) s = execLutLoad t st cmd data s := rfl
theorem lutLoad_shape {t st cmd data} : ActsLive (.lutLoad t st cmd data) := fun s => ⟨_, Sys2Proof.Machine.execLutLoad.eq_1 t st cmd data s⟩
theorem exec_discard {t u cmd} (s : State) : exec (.discard t u cmd) s = execDiscard t u cmd s := rfl
theorem discard_shape {t u cmd} : ActsLive (.discard t u cmd) := fun s => ⟨_, Sys2Proof.Machine.execDiscard.eq_1 t u cmd s⟩
theorem exec_windowGrant {u} (s : State) : exec (.windowGrant u) s = execWindowGrant u s := rfl
theorem windowGrant_shape {u} : ActsLive (.windowGrant u) := fun s => ⟨_, Sys2Proof.Machine.execWindowGrant.eq_1 u s⟩
theorem exec_windowEnd {u} (s : State) : exec (.windowEnd u) s = execWindowEnd u s := rfl
theorem windowEnd_shape {u} : ActsLive (.windowEnd u) := fun s => ⟨_, Sys2Proof.Machine.execWindowEnd.eq_1 u s⟩
theorem exec_accountingPeriod {st} (s : State) : exec (.accountingPeriod st) s = execAccountingPeriod st s := rfl
theorem accountingPeriod_shape {st} : ActsLive (.accountingPeriod st) := fun s => ⟨_, Sys2Proof.Machine.execAccountingPeriod.eq_1 st s⟩
theorem exec_refresh {u bank} (s : State) : exec (.refresh u bank) s = execRefresh u bank s := rfl
theorem refresh_shape {u bank} : ActsLive (.refresh u bank) := fun s => ⟨_, Sys2Proof.Machine.execRefresh.eq_1 u bank s⟩
theorem exec_correctedRewrite {u} (s : State) : exec (.correctedRewrite u) s = execCorrectedRewrite u s := rfl
theorem correctedRewrite_shape {u} : ActsLive (.correctedRewrite u) := fun s => ⟨_, Sys2Proof.Machine.execCorrectedRewrite.eq_1 u s⟩
theorem exec_indexEnable {src ix v} (s : State) : exec (.indexEnable src ix v) s = execIndexEnable src ix v s := rfl
theorem indexEnable_shape {src ix v} : ActsLive (.indexEnable src ix v) := fun s => ⟨_, Sys2Proof.Machine.execIndexEnable.eq_1 src ix v s⟩
theorem exec_indexDisable {src ix v} (s : State) : exec (.indexDisable src ix v) s = execIndexDisable src ix v s := rfl
theorem indexDisable_shape {src ix v} : ActsLive (.indexDisable src ix v) := fun s => ⟨_, Sys2Proof.Machine.execIndexDisable.eq_1 src ix v s⟩
theorem exec_vintClose {src v} (s : State) : exec (.vintClose src v) s = execVintClose src v s := rfl
theorem vintClose_shape {src v} : ActsLive (.vintClose src v) := fun s => ⟨_, Sys2Proof.Machine.execVintClose.eq_1 src v s⟩
theorem exec_closeInterval {ix} (s : State) : exec (.closeInterval ix) s = execCloseInterval ix s := rfl
theorem closeInterval_shape {ix} : ActsLive (.closeInterval ix) := fun s => ⟨_, Sys2Proof.Machine.execCloseInterval.eq_1 ix s⟩
theorem exec_close {ix} (s : State) : exec (.close ix) s = execClose ix s := rfl
theorem close_shape {ix} : ActsLive (.close ix) := fun s => ⟨_, Sys2Proof.Machine.execClose.eq_1 ix s⟩
theorem exec_vintagePublish {ix} (s : State) : exec (.vintagePublish ix) s = execVintagePublish ix s := rfl
theorem vintagePublish_shape {ix} : ActsLive (.vintagePublish ix) := fun s => ⟨_, Sys2Proof.Machine.execVintagePublish.eq_1 ix s⟩
theorem exec_vintageDurable {ix} (s : State) : exec (.vintageDurable ix) s = execVintageDurable ix s := rfl
theorem vintageDurable_shape {ix} : ActsLive (.vintageDurable ix) := fun s => ⟨_, Sys2Proof.Machine.execVintageDurable.eq_1 ix s⟩
theorem exec_pinRevoke {ix h} (s : State) : exec (.pinRevoke ix h) s = execPinRevoke ix h s := rfl
theorem pinRevoke_shape {ix h} : ActsLive (.pinRevoke ix h) := fun s => ⟨_, Sys2Proof.Machine.execPinRevoke.eq_1 ix h s⟩
theorem exec_requestRevoke {c q} (s : State) : exec (.requestRevoke c q) s = execRequestRevoke c q s := rfl
theorem requestRevoke_shape {c q} : ActsLive (.requestRevoke c q) := fun s => ⟨_, Sys2Proof.Machine.execRequestRevoke.eq_1 c q s⟩
theorem exec_racking {ix at_} (s : State) : exec (.racking ix at_) s = execRacking ix at_ s := rfl
theorem racking_shape {ix at_} : ActsLive (.racking ix at_) := fun s => ⟨_, Sys2Proof.Machine.execRacking.eq_1 ix at_ s⟩
theorem exec_ageRebase {ix at_} (s : State) : exec (.ageRebase ix at_) s = execAgeRebase ix at_ s := rfl
theorem ageRebase_shape {ix at_} : ActsLive (.ageRebase ix at_) := fun s => ⟨_, Sys2Proof.Machine.execAgeRebase.eq_1 ix at_ s⟩
theorem exec_spillMove {ix at_ slot} (s : State) : exec (.spillMove ix at_ slot) s = execSpillMove ix at_ slot s := rfl
theorem spillMove_shape {ix at_ slot} : ActsLive (.spillMove ix at_ slot) := fun s => ⟨_, Sys2Proof.Machine.execSpillMove.eq_1 ix at_ slot s⟩
theorem exec_blockFree {u b} (s : State) : exec (.blockFree u b) s = execBlockFree u b s := rfl
theorem blockFree_shape {u b} : ActsLive (.blockFree u b) := fun s => ⟨_, Sys2Proof.Machine.execBlockFree.eq_1 u b s⟩
theorem exec_blockRepair {ix at_} (s : State) : exec (.blockRepair ix at_) s = execBlockRepair ix at_ s := rfl
theorem blockRepair_shape {ix at_} : ActsLive (.blockRepair ix at_) := fun s => ⟨_, Sys2Proof.Machine.execBlockRepair.eq_1 ix at_ s⟩
theorem exec_spillWaitTimeout {c q} (s : State) : exec (.spillWaitTimeout c q) s = execSpillWaitTimeout c q s := rfl
theorem spillWaitTimeout_shape {c q} : ActsLive (.spillWaitTimeout c q) := fun s => ⟨_, Sys2Proof.Machine.execSpillWaitTimeout.eq_1 c q s⟩
theorem exec_logWaitTimeout {c q} (s : State) : exec (.logWaitTimeout c q) s = execLogWaitTimeout c q s := rfl
theorem logWaitTimeout_shape {c q} : ActsLive (.logWaitTimeout c q) := fun s => ⟨_, Sys2Proof.Machine.execLogWaitTimeout.eq_1 c q s⟩
theorem exec_logFlush (s : State) : exec (.logFlush) s = execLogFlush s := rfl
theorem logFlush_shape : ActsLive (.logFlush) := fun s => ⟨_, Sys2Proof.Machine.execLogFlush.eq_1 s⟩
theorem exec_channelStart {src c v} (s : State) : exec (.channelStart src c v) s = execChannelStart src c v s := rfl
theorem channelStart_shape {src c v} : ActsLive (.channelStart src c v) := fun s => ⟨_, Sys2Proof.Machine.execChannelStart.eq_1 src c v s⟩
theorem exec_channelTrainingEnd {c targets trained} (s : State) : exec (.channelTrainingEnd c targets trained) s = execChannelTrainingEnd c targets trained s := rfl
theorem channelTrainingEnd_shape {c targets trained} : ActsLive (.channelTrainingEnd c targets trained) := fun s => ⟨_, Sys2Proof.Machine.execChannelTrainingEnd.eq_1 c targets trained s⟩
theorem exec_channelStop {src c v} (s : State) : exec (.channelStop src c v) s = execChannelStop src c v s := rfl
theorem channelStop_shape {src c v} : ActsLive (.channelStop src c v) := fun s => ⟨_, Sys2Proof.Machine.execChannelStop.eq_1 src c v s⟩
theorem exec_failedRun {c} (s : State) : exec (.failedRun c) s = execFailedRun c s := rfl
theorem failedRun_shape {c} : ActsLive (.failedRun c) := fun s => ⟨_, Sys2Proof.Machine.execFailedRun.eq_1 c s⟩
theorem exec_cellarStart {src v} (s : State) : exec (.cellarStart src v) s = execCellarStart src v s := rfl
theorem cellarStart_shape {src v} : ActsLive (.cellarStart src v) := fun s => ⟨_, Sys2Proof.Machine.execCellarStart.eq_1 src v s⟩
theorem exec_cellarStartEnd (s : State) : exec (.cellarStartEnd) s = execCellarStartEnd s := rfl
theorem cellarStartEnd_shape : ActsLive (.cellarStartEnd) := fun s => ⟨_, Sys2Proof.Machine.execCellarStartEnd.eq_1 s⟩
theorem exec_namespaceEnable {src n} (s : State) : exec (.namespaceEnable src n) s = execNamespaceEnable src n s := rfl
theorem namespaceEnable_shape {src n} : ActsLive (.namespaceEnable src n) := fun s => ⟨_, Sys2Proof.Machine.execNamespaceEnable.eq_1 src n s⟩
theorem exec_namespaceDisable {src n} (s : State) : exec (.namespaceDisable src n) s = execNamespaceDisable src n s := rfl
theorem namespaceDisable_shape {src n} : ActsLive (.namespaceDisable src n) := fun s => ⟨_, Sys2Proof.Machine.execNamespaceDisable.eq_1 src n s⟩
theorem exec_lunDispatch {c tg lun} (s : State) : exec (.lunDispatch c tg lun) s = execLunDispatch c tg lun s := rfl
theorem lunDispatch_shape {c tg lun} : ActsLive (.lunDispatch c tg lun) := fun s => ⟨_, Sys2Proof.Machine.execLunDispatch.eq_1 c tg lun s⟩
theorem exec_frameReadDone {c tg lun o} (s : State) : exec (.frameReadDone c tg lun o) s = execFrameReadDone c tg lun o s := rfl
theorem frameReadDone_shape {c tg lun o} : ActsLive (.frameReadDone c tg lun o) := fun s => ⟨_, Sys2Proof.Machine.execFrameReadDone.eq_1 c tg lun o s⟩
theorem exec_readDeadline {id} (s : State) : exec (.readDeadline id) s = execReadDeadline id s := rfl
theorem readDeadline_shape {id} : ActsLive (.readDeadline id) := fun s => ⟨_, Sys2Proof.Machine.execReadDeadline.eq_1 id s⟩
theorem exec_programDone {c tg lun} (s : State) : exec (.programDone c tg lun) s = execProgramDone c tg lun s := rfl
theorem programDone_shape {c tg lun} : ActsLive (.programDone c tg lun) := fun s => ⟨_, Sys2Proof.Machine.execProgramDone.eq_1 c tg lun s⟩
theorem exec_programFailure {c tg lun} (s : State) : exec (.programFailure c tg lun) s = execProgramFailure c tg lun s := rfl
theorem programFailure_shape {c tg lun} : ActsLive (.programFailure c tg lun) := fun s => ⟨_, Sys2Proof.Machine.execProgramFailure.eq_1 c tg lun s⟩
theorem exec_eraseDone {c tg lun ok} (s : State) : exec (.eraseDone c tg lun ok) s = execEraseDone c tg lun ok s := rfl
theorem eraseDone_shape {c tg lun ok} : ActsLive (.eraseDone c tg lun ok) := fun s => ⟨_, Sys2Proof.Machine.execEraseDone.eq_1 c tg lun ok s⟩
theorem exec_garbageCollection (s : State) : exec (.garbageCollection) s = execGarbageCollection s := rfl
theorem garbageCollection_shape : ActsLive (.garbageCollection) := fun s => ⟨_, Sys2Proof.Machine.execGarbageCollection.eq_1 s⟩
theorem exec_wearLevelling (s : State) : exec (.wearLevelling) s = execWearLevelling s := rfl
theorem wearLevelling_shape : ActsLive (.wearLevelling) := fun s => ⟨_, Sys2Proof.Machine.execWearLevelling.eq_1 s⟩
theorem exec_superblockVerify {sb reads} (s : State) : exec (.superblockVerify sb reads) s = execSuperblockVerify sb reads s := rfl
theorem superblockVerify_shape {sb reads} : ActsLive (.superblockVerify sb reads) := fun s => ⟨_, Sys2Proof.Machine.execSuperblockVerify.eq_1 sb reads s⟩
theorem exec_mapSegmentFlush (s : State) : exec (.mapSegmentFlush) s = execMapSegmentFlush s := rfl
theorem mapSegmentFlush_shape : ActsLive (.mapSegmentFlush) := fun s => ⟨_, Sys2Proof.Machine.execMapSegmentFlush.eq_1 s⟩
theorem exec_zqShortCalibration {c} (s : State) : exec (.zqShortCalibration c) s = execZqShortCalibration c s := rfl
theorem zqShortCalibration_shape {c} : ActsLive (.zqShortCalibration c) := fun s => ⟨_, Sys2Proof.Machine.execZqShortCalibration.eq_1 c s⟩
theorem exec_temperatureSample {temps} (s : State) : exec (.temperatureSample temps) s = execTemperatureSample temps s := rfl
theorem temperatureSample_shape {temps} : ActsLive (.temperatureSample temps) := fun s => ⟨_, Sys2Proof.Machine.execTemperatureSample.eq_1 temps s⟩
theorem exec_debugWindowAccess {src addr len wr} (s : State) : exec (.debugWindowAccess src addr len wr) s = execDebugWindowAccess src addr len wr s := rfl
theorem debugWindowAccess_shape {src addr len wr} : ActsLive (.debugWindowAccess src addr len wr) := fun s => ⟨_, Sys2Proof.Machine.execDebugWindowAccess.eq_1 src addr len wr s⟩
theorem exec_logTrimWrite {src v} (s : State) : exec (.logTrimWrite src v) s = execLogTrimWrite src v s := rfl
theorem logTrimWrite_shape {src v} : ActsLive (.logTrimWrite src v) := fun s => ⟨_, Sys2Proof.Machine.execLogTrimWrite.eq_1 src v s⟩
theorem exec_rdS {agent cask line gen} (s : State) : exec (.rdS agent cask line gen) s = execRdS agent cask line gen s := rfl
theorem rdS_shape {agent cask line gen} : ActsLive (.rdS agent cask line gen) := fun s => ⟨_, Sys2Proof.Machine.execRdS.eq_1 agent cask line gen s⟩
theorem exec_rdM {agent cask line gen} (s : State) : exec (.rdM agent cask line gen) s = execRdM agent cask line gen s := rfl
theorem rdM_shape {agent cask line gen} : ActsLive (.rdM agent cask line gen) := fun s => ⟨_, Sys2Proof.Machine.execRdM.eq_1 agent cask line gen s⟩
theorem exec_rdNc {agent cask line gen} (s : State) : exec (.rdNc agent cask line gen) s = execRdNc agent cask line gen s := rfl
theorem rdNc_shape {agent cask line gen} : ActsLive (.rdNc agent cask line gen) := fun s => ⟨_, Sys2Proof.Machine.execRdNc.eq_1 agent cask line gen s⟩
theorem exec_wrNc {agent cask line gen mask data} (s : State) : exec (.wrNc agent cask line gen mask data) s = execWrNc agent cask line gen mask data s := rfl
theorem wrNc_shape {agent cask line gen mask data} : ActsLive (.wrNc agent cask line gen mask data) := fun s => ⟨_, Sys2Proof.Machine.execWrNc.eq_1 agent cask line gen mask data s⟩
theorem exec_wb {agent cask line gen data} (s : State) : exec (.wb agent cask line gen data) s = execWb agent cask line gen data s := rfl
theorem wb_shape {agent cask line gen data} : ActsLive (.wb agent cask line gen data) := fun s => ⟨_, Sys2Proof.Machine.execWb.eq_1 agent cask line gen data s⟩
theorem exec_drop {agent cask line gen} (s : State) : exec (.drop agent cask line gen) s = execDrop agent cask line gen s := rfl
theorem drop_shape {agent cask line gen} : ActsLive (.drop agent cask line gen) := fun s => ⟨_, Sys2Proof.Machine.execDrop.eq_1 agent cask line gen s⟩
theorem exec_snpInv {lender cask line} (s : State) : exec (.snpInv lender cask line) s = execSnpInv lender cask line s := rfl
theorem snpInv_shape {lender cask line} : ActsLive (.snpInv lender cask line) := fun s => ⟨_, Sys2Proof.Machine.execSnpInv.eq_1 lender cask line s⟩
theorem exec_snpData {lender cask line} (s : State) : exec (.snpData lender cask line) s = execSnpData lender cask line s := rfl
theorem snpData_shape {lender cask line} : ActsLive (.snpData lender cask line) := fun s => ⟨_, Sys2Proof.Machine.execSnpData.eq_1 lender cask line s⟩
theorem exec_snpAck {agent cask line gen ans} (s : State) : exec (.snpAck agent cask line gen ans) s = execSnpAck agent cask line gen ans s := rfl
theorem snpAck_shape {agent cask line gen ans} : ActsLive (.snpAck agent cask line gen ans) := fun s => ⟨_, Sys2Proof.Machine.execSnpAck.eq_1 agent cask line gen ans s⟩
theorem exec_data {cask line status bytes} (s : State) : exec (.data cask line status bytes) s = execData cask line status bytes s := rfl
theorem data_shape {cask line status bytes} : ActsLive (.data cask line status bytes) := fun s => ⟨_, Sys2Proof.Machine.execData.eq_1 cask line status bytes s⟩
theorem exec_cmp {cask line status} (s : State) : exec (.cmp cask line status) s = execCmp cask line status s := rfl
theorem cmp_shape {cask line status} : ActsLive (.cmp cask line status) := fun s => ⟨_, Sys2Proof.Machine.execCmp.eq_1 cask line status s⟩
theorem exec_recallTimeout {agent cask line} (s : State) : exec (.recallTimeout agent cask line) s = execRecallTimeout agent cask line s := rfl
theorem recallTimeout_shape {agent cask line} : ActsLive (.recallTimeout agent cask line) := fun s => ⟨_, Sys2Proof.Machine.execRecallTimeout.eq_1 agent cask line s⟩
theorem exec_agentLost {src agent} (s : State) : exec (.agentLost src agent) s = execAgentLost src agent s := rfl
theorem agentLost_shape {src agent} : ActsLive (.agentLost src agent) := fun s => ⟨_, Sys2Proof.Machine.execAgentLost.eq_1 src agent s⟩
theorem exec_poolCatInval {src v} (s : State) : exec (.poolCatInval src v) s = execPoolCatInval src v s := rfl
theorem poolCatInval_shape {src v} : ActsLive (.poolCatInval src v) := fun s => ⟨_, Sys2Proof.Machine.execPoolCatInval.eq_1 src v s⟩
theorem exec_pageFetch {cask page} (s : State) : exec (.pageFetch cask page) s = execPageFetch cask page s := rfl
theorem pageFetch_shape {cask page} : ActsLive (.pageFetch cask page) := fun s => ⟨_, Sys2Proof.Machine.execPageFetch.eq_1 cask page s⟩
theorem exec_pageFetchDone {cask page} (s : State) : exec (.pageFetchDone cask page) s = execPageFetchDone cask page s := rfl
theorem pageFetchDone_shape {cask page} : ActsLive (.pageFetchDone cask page) := fun s => ⟨_, Sys2Proof.Machine.execPageFetchDone.eq_1 cask page s⟩
theorem exec_pageEviction (s : State) : exec (.pageEviction) s = execPageEviction s := rfl
theorem pageEviction_shape : ActsLive (.pageEviction) := fun s => ⟨_, Sys2Proof.Machine.execPageEviction.eq_1 s⟩
theorem exec_counterHalving (s : State) : exec (.counterHalving) s = execCounterHalving s := rfl
theorem counterHalving_shape : ActsLive (.counterHalving) := fun s => ⟨_, Sys2Proof.Machine.execCounterHalving.eq_1 s⟩
theorem exec_fetchTimeout {cask page} (s : State) : exec (.fetchTimeout cask page) s = execFetchTimeout cask page s := rfl
theorem fetchTimeout_shape {cask page} : ActsLive (.fetchTimeout cask page) := fun s => ⟨_, Sys2Proof.Machine.execFetchTimeout.eq_1 cask page s⟩
theorem exec_drainTimeout {cask} (s : State) : exec (.drainTimeout cask) s = execDrainTimeout cask s := rfl
theorem drainTimeout_shape {cask} : ActsLive (.drainTimeout cask) := fun s => ⟨_, Sys2Proof.Machine.execDrainTimeout.eq_1 cask s⟩
theorem exec_trellisLoad {src n v} (s : State) : exec (.trellisLoad src n v) s = execTrellisLoad src n v s := rfl
theorem trellisLoad_shape {src n v} : ActsLive (.trellisLoad src n v) := fun s => ⟨_, Sys2Proof.Machine.execTrellisLoad.eq_1 src n v s⟩
theorem exec_trellisUnload {src n v} (s : State) : exec (.trellisUnload src n v) s = execTrellisUnload src n v s := rfl
theorem trellisUnload_shape {src n v} : ActsLive (.trellisUnload src n v) := fun s => ⟨_, Sys2Proof.Machine.execTrellisUnload.eq_1 src n v s⟩
theorem exec_verifyDone {n} (s : State) : exec (.verifyDone n) s = execVerifyDone n s := rfl
theorem verifyDone_shape {n} : ActsLive (.verifyDone n) := fun s => ⟨_, Sys2Proof.Machine.execVerifyDone.eq_1 n s⟩
theorem exec_drainEnd {n} (s : State) : exec (.drainEnd n) s = execDrainEnd n s := rfl
theorem drainEnd_shape {n} : ActsLive (.drainEnd n) := fun s => ⟨_, Sys2Proof.Machine.execDrainEnd.eq_1 n s⟩
theorem exec_programEnd {n} (s : State) : exec (.programEnd n) s = execProgramEnd n s := rfl
theorem programEnd_shape {n} : ActsLive (.programEnd n) := fun s => ⟨_, Sys2Proof.Machine.execProgramEnd.eq_1 n s⟩
theorem exec_contextEnable {src c v} (s : State) : exec (.contextEnable src c v) s = execContextEnable src c v s := rfl
theorem contextEnable_shape {src c v} : ActsLive (.contextEnable src c v) := fun s => ⟨_, Sys2Proof.Machine.execContextEnable.eq_1 src c v s⟩
theorem exec_contextDisable {src c v} (s : State) : exec (.contextDisable src c v) s = execContextDisable src c v s := rfl
theorem contextDisable_shape {src c v} : ActsLive (.contextDisable src c v) := fun s => ⟨_, Sys2Proof.Machine.execContextDisable.eq_1 src c v s⟩
theorem exec_preempt {src c} (s : State) : exec (.preempt src c) s = execPreempt src c s := rfl
theorem preempt_shape {src c} : ActsLive (.preempt src c) := fun s => ⟨_, Sys2Proof.Machine.execPreempt.eq_1 src c s⟩
theorem exec_suspendDone {c} (s : State) : exec (.suspendDone c) s = execSuspendDone c s := rfl
theorem suspendDone_shape {c} : ActsLive (.suspendDone c) := fun s => ⟨_, Sys2Proof.Machine.execSuspendDone.eq_1 c s⟩
theorem exec_resume {src c} (s : State) : exec (.resume src c) s = execResume src c s := rfl
theorem resume_shape {src c} : ActsLive (.resume src c) := fun s => ⟨_, Sys2Proof.Machine.execResume.eq_1 src c s⟩
theorem exec_abort {src c} (s : State) : exec (.abort src c) s = execAbort src c s := rfl
theorem abort_shape {src c} : ActsLive (.abort src c) := fun s => ⟨_, Sys2Proof.Machine.execAbort.eq_1 src c s⟩
theorem exec_contextReset {src c} (s : State) : exec (.contextReset src c) s = execContextReset src c s := rfl
theorem contextReset_shape {src c} : ActsLive (.contextReset src c) := fun s => ⟨_, Sys2Proof.Machine.execContextReset.eq_1 src c s⟩
theorem exec_doorbell {src c v} (s : State) : exec (.doorbell src c v) s = execDoorbell src c v s := rfl
theorem doorbell_shape {src c v} : ActsLive (.doorbell src c v) := fun s => ⟨_, Sys2Proof.Machine.execDoorbell.eq_1 src c v s⟩
theorem exec_ctxTlbInval {src v} (s : State) : exec (.ctxTlbInval src v) s = execCtxTlbInval src v s := rfl
theorem ctxTlbInval_shape {src v} : ActsLive (.ctxTlbInval src v) := fun s => ⟨_, Sys2Proof.Machine.execCtxTlbInval.eq_1 src v s⟩
theorem exec_slowdownLatch (s : State) : exec (.slowdownLatch) s = execSlowdownLatch s := rfl
theorem slowdownLatch_shape : ActsLive (.slowdownLatch) := fun s => ⟨_, Sys2Proof.Machine.execSlowdownLatch.eq_1 s⟩
theorem exec_requestTimeout {c q} (s : State) : exec (.requestTimeout c q) s = execRequestTimeout c q s := rfl
theorem requestTimeout_shape {c q} : ActsLive (.requestTimeout c q) := fun s => ⟨_, Sys2Proof.Machine.execRequestTimeout.eq_1 c q s⟩
theorem exec_syncTimeout {c q} (s : State) : exec (.syncTimeout c q) s = execSyncTimeout c q s := rfl
theorem syncTimeout_shape {c q} : ActsLive (.syncTimeout c q) := fun s => ⟨_, Sys2Proof.Machine.execSyncTimeout.eq_1 c q s⟩
theorem exec_subreq {p f} (s : State) : exec (.subreq p f) s = execSubreq p f s := rfl
theorem subreq_shape {p f} : ActsLive (.subreq p f) := fun s => ⟨_, Sys2Proof.Machine.execSubreq.eq_1 p f s⟩
theorem exec_reply {p f} (s : State) : exec (.reply p f) s = execReply p f s := rfl
theorem reply_shape {p f} : ActsLive (.reply p f) := fun s => ⟨_, Sys2Proof.Machine.execReply.eq_1 p f s⟩
theorem exec_moved {p f} (s : State) : exec (.moved p f) s = execMoved p f s := rfl
theorem moved_shape {p f} : ActsLive (.moved p f) := fun s => ⟨_, Sys2Proof.Machine.execMoved.eq_1 p f s⟩
theorem exec_coherenceFrame {p f} (s : State) : exec (.coherenceFrame p f) s = execCoherenceFrame p f s := rfl
theorem coherenceFrame_shape {p f} : ActsLive (.coherenceFrame p f) := fun s => ⟨_, Sys2Proof.Machine.execCoherenceFrame.eq_1 p f s⟩
theorem exec_globalArrive {p f} (s : State) : exec (.globalArrive p f) s = execGlobalArrive p f s := rfl
theorem globalArrive_shape {p f} : ActsLive (.globalArrive p f) := fun s => ⟨_, Sys2Proof.Machine.execGlobalArrive.eq_1 p f s⟩
theorem exec_globalRelease {p f} (s : State) : exec (.globalRelease p f) s = execGlobalRelease p f s := rfl
theorem globalRelease_shape {p f} : ActsLive (.globalRelease p f) := fun s => ⟨_, Sys2Proof.Machine.execGlobalRelease.eq_1 p f s⟩
theorem exec_closeTrigger {p f} (s : State) : exec (.closeTrigger p f) s = execCloseTrigger p f s := rfl
theorem closeTrigger_shape {p f} : ActsLive (.closeTrigger p f) := fun s => ⟨_, Sys2Proof.Machine.execCloseTrigger.eq_1 p f s⟩
theorem exec_prepare {p f} (s : State) : exec (.prepare p f) s = execPrepare p f s := rfl
theorem prepare_shape {p f} : ActsLive (.prepare p f) := fun s => ⟨_, Sys2Proof.Machine.execPrepare.eq_1 p f s⟩
theorem exec_prepared {p f} (s : State) : exec (.prepared p f) s = execPrepared p f s := rfl
theorem prepared_shape {p f} : ActsLive (.prepared p f) := fun s => ⟨_, Sys2Proof.Machine.execPrepared.eq_1 p f s⟩
theorem exec_commit {p f} (s : State) : exec (.commit p f) s = execCommit p f s := rfl
theorem commit_shape {p f} : ActsLive (.commit p f) := fun s => ⟨_, Sys2Proof.Machine.execCommit.eq_1 p f s⟩
theorem exec_globalReset {p f} (s : State) : exec (.globalReset p f) s = execGlobalReset p f s := rfl
theorem globalReset_shape {p f} : ActsLive (.globalReset p f) := fun s => ⟨_, Sys2Proof.Machine.execGlobalReset.eq_1 p f s⟩
theorem exec_resetDone {p f} (s : State) : exec (.resetDone p f) s = execResetDone p f s := rfl
theorem resetDone_shape {p f} : ActsLive (.resetDone p f) := fun s => ⟨_, Sys2Proof.Machine.execResetDone.eq_1 p f s⟩
theorem exec_bcastData {p f} (s : State) : exec (.bcastData p f) s = execBcastData p f s := rfl
theorem bcastData_shape {p f} : ActsLive (.bcastData p f) := fun s => ⟨_, Sys2Proof.Machine.execBcastData.eq_1 p f s⟩
theorem exec_bcastDone {p f} (s : State) : exec (.bcastDone p f) s = execBcastDone p f s := rfl
theorem bcastDone_shape {p f} : ActsLive (.bcastDone p f) := fun s => ⟨_, Sys2Proof.Machine.execBcastDone.eq_1 p f s⟩
theorem exec_ack {p f} (s : State) : exec (.ack p f) s = execAck p f s := rfl
theorem ack_shape {p f} : ActsLive (.ack p f) := fun s => ⟨_, Sys2Proof.Machine.execAck.eq_1 p f s⟩
theorem exec_nak {p f} (s : State) : exec (.nak p f) s = execNak p f s := rfl
theorem nak_shape {p f} : ActsLive (.nak p f) := fun s => ⟨_, Sys2Proof.Machine.execNak.eq_1 p f s⟩
theorem exec_keepalive {p f} (s : State) : exec (.keepalive p f) s = execKeepalive p f s := rfl
theorem keepalive_shape {p f} : ActsLive (.keepalive p f) := fun s => ⟨_, Sys2Proof.Machine.execKeepalive.eq_1 p f s⟩
theorem exec_admitHello {p f} (s : State) : exec (.admitHello p f) s = execAdmitHello p f s := rfl
theorem admitHello_shape {p f} : ActsLive (.admitHello p f) := fun s => ⟨_, Sys2Proof.Machine.execAdmitHello.eq_1 p f s⟩
theorem exec_admitCert {p f} (s : State) : exec (.admitCert p f) s = execAdmitCert p f s := rfl
theorem admitCert_shape {p f} : ActsLive (.admitCert p f) := fun s => ⟨_, Sys2Proof.Machine.execAdmitCert.eq_1 p f s⟩
theorem exec_admitProof {p f} (s : State) : exec (.admitProof p f) s = execAdmitProof p f s := rfl
theorem admitProof_shape {p f} : ActsLive (.admitProof p f) := fun s => ⟨_, Sys2Proof.Machine.execAdmitProof.eq_1 p f s⟩
theorem exec_frameTransmit {p} (s : State) : exec (.frameTransmit p) s = execFrameTransmit p s := rfl
theorem frameTransmit_shape {p} : ActsLive (.frameTransmit p) := fun s => ⟨_, Sys2Proof.Machine.execFrameTransmit.eq_1 p s⟩
theorem exec_retransmitTimeout {peer queue} (s : State) : exec (.retransmitTimeout peer queue) s = execRetransmitTimeout peer queue s := rfl
theorem retransmitTimeout_shape {peer queue} : ActsLive (.retransmitTimeout peer queue) := fun s => ⟨_, Sys2Proof.Machine.execRetransmitTimeout.eq_1 peer queue s⟩
theorem exec_ackTimer {peer queue} (s : State) : exec (.ackTimer peer queue) s = execAckTimer peer queue s := rfl
theorem ackTimer_shape {peer queue} : ActsLive (.ackTimer peer queue) := fun s => ⟨_, Sys2Proof.Machine.execAckTimer.eq_1 peer queue s⟩
theorem exec_keepaliveTimer {peer p} (s : State) : exec (.keepaliveTimer peer p) s = execKeepaliveTimer peer p s := rfl
theorem keepaliveTimer_shape {peer p} : ActsLive (.keepaliveTimer peer p) := fun s => ⟨_, Sys2Proof.Machine.execKeepaliveTimer.eq_1 peer p s⟩
theorem exec_subreqTimeout {tag} (s : State) : exec (.subreqTimeout tag) s = execSubreqTimeout tag s := rfl
theorem subreqTimeout_shape {tag} : ActsLive (.subreqTimeout tag) := fun s => ⟨_, Sys2Proof.Machine.execSubreqTimeout.eq_1 tag s⟩
theorem exec_admitPeer {src node} (s : State) : exec (.admitPeer src node) s = execAdmitPeer src node s := rfl
theorem admitPeer_shape {src node} : ActsLive (.admitPeer src node) := fun s => ⟨_, Sys2Proof.Machine.execAdmitPeer.eq_1 src node s⟩
theorem exec_admitTimeout {node} (s : State) : exec (.admitTimeout node) s = execAdmitTimeout node s := rfl
theorem admitTimeout_shape {node} : ActsLive (.admitTimeout node) := fun s => ⟨_, Sys2Proof.Machine.execAdmitTimeout.eq_1 node s⟩
theorem exec_lost {cause node} (s : State) : exec (.lost cause node) s = execLost cause node s := rfl
theorem lost_shape {cause node} : ActsLive (.lost cause node) := fun s => ⟨_, Sys2Proof.Machine.execLost.eq_1 cause node s⟩
theorem exec_fabricPortEnable {src p v} (s : State) : exec (.fabricPortEnable src p v) s = execFabricPortEnable src p v s := rfl
theorem fabricPortEnable_shape {src p v} : ActsLive (.fabricPortEnable src p v) := fun s => ⟨_, Sys2Proof.Machine.execFabricPortEnable.eq_1 src p v s⟩
theorem exec_fabricPortFailed {p} (s : State) : exec (.fabricPortFailed p) s = execFabricPortFailed p s := rfl
theorem fabricPortFailed_shape {p} : ActsLive (.fabricPortFailed p) := fun s => ⟨_, Sys2Proof.Machine.execFabricPortFailed.eq_1 p s⟩
theorem exec_fabQueueWrite {src ix v} (s : State) : exec (.fabQueueWrite src ix v) s = execFabQueueWrite src ix v s := rfl
theorem fabQueueWrite_shape {src ix v} : ActsLive (.fabQueueWrite src ix v) := fun s => ⟨_, Sys2Proof.Machine.execFabQueueWrite.eq_1 src ix v s⟩
theorem exec_fabShapeWrite {src ix v} (s : State) : exec (.fabShapeWrite src ix v) s = execFabShapeWrite src ix v s := rfl
theorem fabShapeWrite_shape {src ix v} : ActsLive (.fabShapeWrite src ix v) := fun s => ⟨_, Sys2Proof.Machine.execFabShapeWrite.eq_1 src ix v s⟩
theorem exec_fabPoliceWrite {src ix v} (s : State) : exec (.fabPoliceWrite src ix v) s = execFabPoliceWrite src ix v s := rfl
theorem fabPoliceWrite_shape {src ix v} : ActsLive (.fabPoliceWrite src ix v) := fun s => ⟨_, Sys2Proof.Machine.execFabPoliceWrite.eq_1 src ix v s⟩
theorem exec_install {src n} (s : State) : exec (.install src n) s = execInstall src n s := rfl
theorem install_shape {src n} : ActsLive (.install src n) := fun s => ⟨_, Sys2Proof.Machine.execInstall.eq_1 src n s⟩
theorem exec_remove {src n} (s : State) : exec (.remove src n) s = execRemove src n s := rfl
theorem remove_shape {src n} : ActsLive (.remove src n) := fun s => ⟨_, Sys2Proof.Machine.execRemove.eq_1 src n s⟩
theorem exec_compositionReset {src n} (s : State) : exec (.compositionReset src n) s = execCompositionReset src n s := rfl
theorem compositionReset_shape {src n} : ActsLive (.compositionReset src n) := fun s => ⟨_, Sys2Proof.Machine.execCompositionReset.eq_1 src n s⟩
theorem exec_epochDrainEnd {n} (s : State) : exec (.epochDrainEnd n) s = execEpochDrainEnd n s := rfl
theorem epochDrainEnd_shape {n} : ActsLive (.epochDrainEnd n) := fun s => ⟨_, Sys2Proof.Machine.execEpochDrainEnd.eq_1 n s⟩
theorem exec_heldMessageTimeout {id} (s : State) : exec (.heldMessageTimeout id) s = execHeldMessageTimeout id s := rfl
theorem heldMessageTimeout_shape {id} : ActsLive (.heldMessageTimeout id) := fun s => ⟨_, Sys2Proof.Machine.execHeldMessageTimeout.eq_1 id s⟩
theorem exec_nahelPortEnable {src p v} (s : State) : exec (.nahelPortEnable src p v) s = execNahelPortEnable src p v s := rfl
theorem nahelPortEnable_shape {src p v} : ActsLive (.nahelPortEnable src p v) := fun s => ⟨_, Sys2Proof.Machine.execNahelPortEnable.eq_1 src p v s⟩
theorem exec_nahelPortDisable {src p v} (s : State) : exec (.nahelPortDisable src p v) s = execNahelPortDisable src p v s := rfl
theorem nahelPortDisable_shape {src p v} : ActsLive (.nahelPortDisable src p v) := fun s => ⟨_, Sys2Proof.Machine.execNahelPortDisable.eq_1 src p v s⟩
theorem exec_trainingStateEnd {p reversed polarity} (s : State) : exec (.trainingStateEnd p reversed polarity) s = execTrainingStateEnd p reversed polarity s := rfl
theorem trainingStateEnd_shape {p reversed polarity} : ActsLive (.trainingStateEnd p reversed polarity) := fun s => ⟨_, Sys2Proof.Machine.execTrainingStateEnd.eq_1 p reversed polarity s⟩
theorem exec_trainingTimeout {p} (s : State) : exec (.trainingTimeout p) s = execTrainingTimeout p s := rfl
theorem trainingTimeout_shape {p} : ActsLive (.trainingTimeout p) := fun s => ⟨_, Sys2Proof.Machine.execTrainingTimeout.eq_1 p s⟩
theorem exec_dataFlit {p flit} (s : State) : exec (.dataFlit p flit) s = execDataFlit p flit s := rfl
theorem dataFlit_shape {p flit} : ActsLive (.dataFlit p flit) := fun s => ⟨_, Sys2Proof.Machine.execDataFlit.eq_1 p flit s⟩
theorem exec_idleFlit {p flit} (s : State) : exec (.idleFlit p flit) s = execIdleFlit p flit s := rfl
theorem idleFlit_shape {p flit} : ActsLive (.idleFlit p flit) := fun s => ⟨_, Sys2Proof.Machine.execIdleFlit.eq_1 p flit s⟩
theorem exec_nakFlit {p flit} (s : State) : exec (.nakFlit p flit) s = execNakFlit p flit s := rfl
theorem nakFlit_shape {p flit} : ActsLive (.nakFlit p flit) := fun s => ⟨_, Sys2Proof.Machine.execNakFlit.eq_1 p flit s⟩
theorem exec_replayTimeout {p} (s : State) : exec (.replayTimeout p) s = execReplayTimeout p s := rfl
theorem replayTimeout_shape {p} : ActsLive (.replayTimeout p) := fun s => ⟨_, Sys2Proof.Machine.execReplayTimeout.eq_1 p s⟩
theorem exec_rdPacket {p k} (s : State) : exec (.rdPacket p k) s = execRdPacket p k s := rfl
theorem rdPacket_shape {p k} : ActsLive (.rdPacket p k) := fun s => ⟨_, Sys2Proof.Machine.execRdPacket.eq_1 p k s⟩
theorem exec_wrPacket {p k} (s : State) : exec (.wrPacket p k) s = execWrPacket p k s := rfl
theorem wrPacket_shape {p k} : ActsLive (.wrPacket p k) := fun s => ⟨_, Sys2Proof.Machine.execWrPacket.eq_1 p k s⟩
theorem exec_cohPacket {p k} (s : State) : exec (.cohPacket p k) s = execCohPacket p k s := rfl
theorem cohPacket_shape {p k} : ActsLive (.cohPacket p k) := fun s => ⟨_, Sys2Proof.Machine.execCohPacket.eq_1 p k s⟩
theorem exec_mgmtPacket {p k} (s : State) : exec (.mgmtPacket p k) s = execMgmtPacket p k s := rfl
theorem mgmtPacket_shape {p k} : ActsLive (.mgmtPacket p k) := fun s => ⟨_, Sys2Proof.Machine.execMgmtPacket.eq_1 p k s⟩
theorem exec_credit {p k} (s : State) : exec (.credit p k) s = execCredit p k s := rfl
theorem credit_shape {p k} : ActsLive (.credit p k) := fun s => ⟨_, Sys2Proof.Machine.execCredit.eq_1 p k s⟩
theorem exec_intrReceived {p k} (s : State) : exec (.intrReceived p k) s = execIntrReceived p k s := rfl
theorem intrReceived_shape {p k} : ActsLive (.intrReceived p k) := fun s => ⟨_, Sys2Proof.Machine.execIntrReceived.eq_1 p k s⟩
theorem exec_moderationTimer {p vec} (s : State) : exec (.moderationTimer p vec) s = execModerationTimer p vec s := rfl
theorem moderationTimer_shape {p vec} : ActsLive (.moderationTimer p vec) := fun s => ⟨_, Sys2Proof.Machine.execModerationTimer.eq_1 p vec s⟩
theorem exec_status {p tag} (s : State) : exec (.status p tag) s = execStatus p tag s := rfl
theorem status_shape {p tag} : ActsLive (.status p tag) := fun s => ⟨_, Sys2Proof.Machine.execStatus.eq_1 p tag s⟩
theorem exec_recoveryWrite {p tag offset bytes} (s : State) : exec (.recoveryWrite p tag offset bytes) s = execRecoveryWrite p tag offset bytes s := rfl
theorem recoveryWrite_shape {p tag offset bytes} : ActsLive (.recoveryWrite p tag offset bytes) := fun s => ⟨_, Sys2Proof.Machine.execRecoveryWrite.eq_1 p tag offset bytes s⟩
theorem exec_run {p tag persist} (s : State) : exec (.run p tag persist) s = execRun p tag persist s := rfl
theorem run_shape {p tag persist} : ActsLive (.run p tag persist) := fun s => ⟨_, Sys2Proof.Machine.execRun.eq_1 p tag persist s⟩
theorem exec_getVersion {t tag body} (s : State) : exec (.getVersion t tag body) s = execGetVersion t tag body s := rfl
theorem getVersion_shape {t tag body} : ActsLive (.getVersion t tag body) := fun s => ⟨_, Sys2Proof.Machine.execGetVersion.eq_1 t tag body s⟩
theorem exec_getCapabilities {t tag body} (s : State) : exec (.getCapabilities t tag body) s = execGetCapabilities t tag body s := rfl
theorem getCapabilities_shape {t tag body} : ActsLive (.getCapabilities t tag body) := fun s => ⟨_, Sys2Proof.Machine.execGetCapabilities.eq_1 t tag body s⟩
theorem exec_negotiateAlgorithms {t tag body} (s : State) : exec (.negotiateAlgorithms t tag body) s = execNegotiateAlgorithms t tag body s := rfl
theorem negotiateAlgorithms_shape {t tag body} : ActsLive (.negotiateAlgorithms t tag body) := fun s => ⟨_, Sys2Proof.Machine.execNegotiateAlgorithms.eq_1 t tag body s⟩
theorem exec_getDigests {t tag body} (s : State) : exec (.getDigests t tag body) s = execGetDigests t tag body s := rfl
theorem getDigests_shape {t tag body} : ActsLive (.getDigests t tag body) := fun s => ⟨_, Sys2Proof.Machine.execGetDigests.eq_1 t tag body s⟩
theorem exec_getCertificate {t tag slot offset len} (s : State) : exec (.getCertificate t tag slot offset len) s = execGetCertificate t tag slot offset len s := rfl
theorem getCertificate_shape {t tag slot offset len} : ActsLive (.getCertificate t tag slot offset len) := fun s => ⟨_, Sys2Proof.Machine.execGetCertificate.eq_1 t tag slot offset len s⟩
theorem exec_challenge {t tag body} (s : State) : exec (.challenge t tag body) s = execChallenge t tag body s := rfl
theorem challenge_shape {t tag body} : ActsLive (.challenge t tag body) := fun s => ⟨_, Sys2Proof.Machine.execChallenge.eq_1 t tag body s⟩
theorem exec_getMeasurements {t tag index body} (s : State) : exec (.getMeasurements t tag index body) s = execGetMeasurements t tag index body s := rfl
theorem getMeasurements_shape {t tag index body} : ActsLive (.getMeasurements t tag index body) := fun s => ⟨_, Sys2Proof.Machine.execGetMeasurements.eq_1 t tag index body s⟩
theorem exec_entdaa {addr} (s : State) : exec (.entdaa addr) s = execEntdaa addr s := rfl
theorem entdaa_shape {addr} : ActsLive (.entdaa addr) := fun s => ⟨_, Sys2Proof.Machine.execEntdaa.eq_1 addr s⟩
theorem exec_setEndpointId {eid} (s : State) : exec (.setEndpointId eid) s = execSetEndpointId eid s := rfl
theorem setEndpointId_shape {eid} : ActsLive (.setEndpointId eid) := fun s => ⟨_, Sys2Proof.Machine.execSetEndpointId.eq_1 eid s⟩
theorem exec_getEndpointId (s : State) : exec (.getEndpointId) s = execGetEndpointId s := rfl
theorem getEndpointId_shape : ActsLive (.getEndpointId) := fun s => ⟨_, Sys2Proof.Machine.execGetEndpointId.eq_1 s⟩
theorem exec_getMctpVersionSupport {mtype} (s : State) : exec (.getMctpVersionSupport mtype) s = execGetMctpVersionSupport mtype s := rfl
theorem getMctpVersionSupport_shape {mtype} : ActsLive (.getMctpVersionSupport mtype) := fun s => ⟨_, Sys2Proof.Machine.execGetMctpVersionSupport.eq_1 mtype s⟩
theorem exec_getMessageTypeSupport (s : State) : exec (.getMessageTypeSupport) s = execGetMessageTypeSupport s := rfl
theorem getMessageTypeSupport_shape : ActsLive (.getMessageTypeSupport) := fun s => ⟨_, Sys2Proof.Machine.execGetMessageTypeSupport.eq_1 s⟩
theorem exec_contextWatchdog {c} (s : State) : exec (.contextWatchdog c) s = execContextWatchdog c s := rfl
theorem contextWatchdog_shape {c} : ActsLive (.contextWatchdog c) := fun s => ⟨_, Sys2Proof.Machine.execContextWatchdog.eq_1 c s⟩
theorem exec_tileWatchdog {cell} (s : State) : exec (.tileWatchdog cell) s = execTileWatchdog cell s := rfl
theorem tileWatchdog_shape {cell} : ActsLive (.tileWatchdog cell) := fun s => ⟨_, Sys2Proof.Machine.execTileWatchdog.eq_1 cell s⟩
theorem exec_partitionWatchdog {n} (s : State) : exec (.partitionWatchdog n) s = execPartitionWatchdog n s := rfl
theorem partitionWatchdog_shape {n} : ActsLive (.partitionWatchdog n) := fun s => ⟨_, Sys2Proof.Machine.execPartitionWatchdog.eq_1 n s⟩
theorem exec_chipWatchdog (s : State) : exec (.chipWatchdog) s = execChipWatchdog s := rfl
theorem chipWatchdog_shape : ActsLive (.chipWatchdog) := fun s => ⟨_, Sys2Proof.Machine.execChipWatchdog.eq_1 s⟩
theorem exec_kick {src} (s : State) : exec (.kick src) s = execKick src s := rfl
theorem kick_shape {src} : ActsLive (.kick src) := fun s => ⟨_, Sys2Proof.Machine.execKick.eq_1 src s⟩
theorem exec_engine {cause target} (s : State) : exec (.engine cause target) s = execEngine cause target s := rfl
theorem engine_shape {cause target} : ActsLive (.engine cause target) := fun s => ⟨_, Sys2Proof.Machine.execEngine.eq_1 cause target s⟩
theorem exec_part {cause n} (s : State) : exec (.part cause n) s = execPart cause n s := rfl
theorem part_shape {cause n} : ActsLive (.part cause n) := fun s => ⟨_, Sys2Proof.Machine.execPart.eq_1 cause n s⟩
theorem exec_chip {cause} (s : State) : exec (.chip cause) s = execChip cause s := rfl
theorem chip_shape {cause} : ActsLive (.chip cause) := fun s => ⟨_, Sys2Proof.Machine.execChip.eq_1 cause s⟩
theorem exec_pcyc {src} (s : State) : exec (.pcyc src) s = execPcyc src s := rfl
theorem pcyc_shape {src} : ActsLive (.pcyc src) := fun s => ⟨_, Sys2Proof.Machine.execPcyc.eq_1 src s⟩
theorem exec_selftest {src} (s : State) : exec (.selftest src) s = execSelftest src s := rfl
theorem selftest_shape {src} : ActsLive (.selftest src) := fun s => ⟨_, Sys2Proof.Machine.execSelftest.eq_1 src s⟩
theorem exec_fenceDrainEnd {d} (s : State) : exec (.fenceDrainEnd d) s = execFenceDrainEnd d s := rfl
theorem fenceDrainEnd_shape {d} : ActsLive (.fenceDrainEnd d) := fun s => ⟨_, Sys2Proof.Machine.execFenceDrainEnd.eq_1 d s⟩
theorem exec_stackRetrain {st} (s : State) : exec (.stackRetrain st) s = execStackRetrain st s := rfl
theorem stackRetrain_shape {st} : ActsLive (.stackRetrain st) := fun s => ⟨_, Sys2Proof.Machine.execStackRetrain.eq_1 st s⟩
theorem exec_injection {j} (s : State) : exec (.injection j) s = execInjection j s := rfl
theorem injection_shape {j} : ActsLive (.injection j) := fun s => ⟨_, Sys2Proof.Machine.execInjection.eq_1 j s⟩
theorem exec_checkpoint {src ix ns} (s : State) : exec (.checkpoint src ix ns) s = execCheckpoint src ix ns s := rfl
theorem checkpoint_shape {src ix ns} : ActsLive (.checkpoint src ix ns) := fun s => ⟨_, Sys2Proof.Machine.execCheckpoint.eq_1 src ix ns s⟩
theorem exec_restore {src ix ns} (s : State) : exec (.restore src ix ns) s = execRestore src ix ns s := rfl
theorem restore_shape {src ix ns} : ActsLive (.restore src ix ns) := fun s => ⟨_, Sys2Proof.Machine.execRestore.eq_1 src ix ns s⟩
theorem exec_restoreReplay {src ix ns} (s : State) : exec (.restoreReplay src ix ns) s = execRestoreReplay src ix ns s := rfl
theorem restoreReplay_shape {src ix ns} : ActsLive (.restoreReplay src ix ns) := fun s => ⟨_, Sys2Proof.Machine.execRestoreReplay.eq_1 src ix ns s⟩
theorem exec_checkpointRunEnd (s : State) : exec (.checkpointRunEnd) s = execCheckpointRunEnd s := rfl
theorem checkpointRunEnd_shape : ActsLive (.checkpointRunEnd) := fun s => ⟨_, Sys2Proof.Machine.execCheckpointRunEnd.eq_1 s⟩
theorem exec_hold {src n v} (s : State) : exec (.hold src n v) s = execHold src n v s := rfl
theorem hold_shape {src n v} : ActsLive (.hold src n v) := fun s => ⟨_, Sys2Proof.Machine.execHold.eq_1 src n v s⟩
theorem exec_holdTimeout {id} (s : State) : exec (.holdTimeout id) s = execHoldTimeout id s := rfl
theorem holdTimeout_shape {id} : ActsLive (.holdTimeout id) := fun s => ⟨_, Sys2Proof.Machine.execHoldTimeout.eq_1 id s⟩
theorem exec_tableEnable {src t} (s : State) : exec (.tableEnable src t) s = execTableEnable src t s := rfl
theorem tableEnable_shape {src t} : ActsLive (.tableEnable src t) := fun s => ⟨_, Sys2Proof.Machine.execTableEnable.eq_1 src t s⟩
theorem exec_resetNAssert (s : State) : exec (.resetNAssert) s = execResetNAssert s := rfl
theorem resetNAssert_shape : ActsAlways (.resetNAssert) := fun s => ⟨_, Sys2Proof.Machine.execResetNAssert.eq_1 s⟩
theorem exec_resetNRelease {forceRcv} (s : State) : exec (.resetNRelease forceRcv) s = execResetNRelease forceRcv s := rfl
theorem resetNRelease_shape {forceRcv} : ActsAlways (.resetNRelease forceRcv) := fun s => ⟨_, Sys2Proof.Machine.execResetNRelease.eq_1 forceRcv s⟩
theorem exec_pwrGoodFall (s : State) : exec (.pwrGoodFall) s = execPwrGoodFall s := rfl
theorem pwrGoodFall_shape : ActsAlways (.pwrGoodFall) := fun s => ⟨_, Sys2Proof.Machine.execPwrGoodFall.eq_1 s⟩
theorem exec_pwrGoodRise (s : State) : exec (.pwrGoodRise) s = execPwrGoodRise s := rfl
theorem pwrGoodRise_shape : ActsAlways (.pwrGoodRise) := fun s => ⟨_, Sys2Proof.Machine.execPwrGoodRise.eq_1 s⟩
theorem exec_powerRemoved (s : State) : exec (.powerRemoved) s = execPowerRemoved s := rfl
theorem powerRemoved_shape : ActsAlways (.powerRemoved) := fun s => ⟨_, Sys2Proof.Machine.execPowerRemoved.eq_1 s⟩
theorem exec_advance {src target} (s : State) : exec (.advance src target) s = execAdvance src target s := rfl
theorem advance_shape {src target} : ActsLive (.advance src target) := fun s => ⟨_, Sys2Proof.Machine.execAdvance.eq_1 src target s⟩
theorem exec_revoke {src mask} (s : State) : exec (.revoke src mask) s = execRevoke src mask s := rfl
theorem revoke_shape {src mask} : ActsLive (.revoke src mask) := fun s => ⟨_, Sys2Proof.Machine.execRevoke.eq_1 src mask s⟩
theorem exec_fuseBurnEnd (s : State) : exec (.fuseBurnEnd) s = execFuseBurnEnd s := rfl
theorem fuseBurnEnd_shape : ActsLive (.fuseBurnEnd) := fun s => ⟨_, Sys2Proof.Machine.execFuseBurnEnd.eq_1 s⟩
theorem exec_clkWake {src v} (s : State) : exec (.clkWake src v) s = execClkWake src v s := rfl
theorem clkWake_shape {src v} : ActsLive (.clkWake src v) := fun s => ⟨_, Sys2Proof.Machine.execClkWake.eq_1 src v s⟩
theorem exec_domainGate {d} (s : State) : exec (.domainGate d) s = execDomainGate d s := rfl
theorem domainGate_shape {d} : ActsLive (.domainGate d) := fun s => ⟨_, Sys2Proof.Machine.execDomainGate.eq_1 d s⟩
theorem exec_domainStop {d} (s : State) : exec (.domainStop d) s = execDomainStop d s := rfl
theorem domainStop_shape {d} : ActsLive (.domainStop d) := fun s => ⟨_, Sys2Proof.Machine.execDomainStop.eq_1 d s⟩
theorem exec_wakeStart (s : State) : exec (.wakeStart) s = execWakeStart s := rfl
theorem wakeStart_shape : ActsLive (.wakeStart) := fun s => ⟨_, Sys2Proof.Machine.execWakeStart.eq_1 s⟩
theorem exec_wakeEnd {d} (s : State) : exec (.wakeEnd d) s = execWakeEnd d s := rfl
theorem wakeEnd_shape {d} : ActsLive (.wakeEnd d) := fun s => ⟨_, Sys2Proof.Machine.execWakeEnd.eq_1 d s⟩
theorem exec_temperatureReading {r t} (s : State) : exec (.temperatureReading r t) s = execTemperatureReading r t s := rfl
theorem temperatureReading_shape {r t} : ActsLive (.temperatureReading r t) := fun s => ⟨_, Sys2Proof.Machine.execTemperatureReading.eq_1 r t s⟩
theorem exec_throttleStep (s : State) : exec (.throttleStep) s = execThrottleStep s := rfl
theorem throttleStep_shape : ActsLive (.throttleStep) := fun s => ⟨_, Sys2Proof.Machine.execThrottleStep.eq_1 s⟩
theorem exec_thermalTrip {r} (s : State) : exec (.thermalTrip r) s = execThermalTrip r s := rfl
theorem thermalTrip_shape {r} : ActsAlways (.thermalTrip r) := fun s => ⟨_, Sys2Proof.Machine.execThermalTrip.eq_1 r s⟩
theorem exec_aonClkLoss (s : State) : exec (.aonClkLoss) s = execAonClkLoss s := rfl
theorem aonClkLoss_shape : ActsAlways (.aonClkLoss) := fun s => ⟨_, Sys2Proof.Machine.execAonClkLoss.eq_1 s⟩
theorem exec_referenceLoss {r} (s : State) : exec (.referenceLoss r) s = execReferenceLoss r s := rfl
theorem referenceLoss_shape {r} : ActsAlways (.referenceLoss r) := fun s => ⟨_, Sys2Proof.Machine.execReferenceLoss.eq_1 r s⟩
theorem exec_interruptSummaryWrite {src reg v} (s : State) : exec (.interruptSummaryWrite src reg v) s = execInterruptSummaryWrite src reg v s := rfl
theorem interruptSummaryWrite_shape {src reg v} : ActsLive (.interruptSummaryWrite src reg v) := fun s => ⟨_, Sys2Proof.Machine.execInterruptSummaryWrite.eq_1 src reg v s⟩
theorem exec_rcRead {src addr wide} (s : State) : exec (.rcRead src addr wide) s = execRcRead src addr wide s := rfl
theorem rcRead_shape {src addr wide} : ActsLive (.rcRead src addr wide) := fun s => ⟨_, Sys2Proof.Machine.execRcRead.eq_1 src addr wide s⟩
theorem exec_registerWrite {src addr wide v} (s : State) : exec (.registerWrite src addr wide v) s = execRegisterWrite src addr wide v s := rfl
theorem registerWrite_shape {src addr wide v} : ActsLive (.registerWrite src addr wide v) := fun s => ⟨_, Sys2Proof.Machine.execRegisterWrite.eq_1 src addr wide v s⟩
theorem exec_alignmentBlock {p lane number} (s : State) : exec (.alignmentBlock p lane number) s = execAlignmentBlock p lane number s := rfl
theorem alignmentBlock_shape {p lane number} : ActsLive (.alignmentBlock p lane number) := fun s => ⟨_, Sys2Proof.Machine.execAlignmentBlock.eq_1 p lane number s⟩
theorem exec_unfence {d} (s : State) : exec (.unfence d) s = execUnfence d s := rfl
theorem unfence_shape {d} : ActsLive (.unfence d) := fun s => ⟨_, Sys2Proof.Machine.execUnfence.eq_1 d s⟩
theorem exec_resetBoundPassed {d} (s : State) : exec (.resetBoundPassed d) s = execResetBoundPassed d s := rfl
theorem resetBoundPassed_shape {d} : ActsLive (.resetBoundPassed d) := fun s => ⟨_, Sys2Proof.Machine.execResetBoundPassed.eq_1 d s⟩
theorem exec_selftestEnd {tiles press} (s : State) : exec (.selftestEnd tiles press) s = execSelftestEnd tiles press s := rfl
theorem selftestEnd_shape {tiles press} : ActsLive (.selftestEnd tiles press) := fun s => ⟨_, Sys2Proof.Machine.execSelftestEnd.eq_1 tiles press s⟩
theorem exec_stackRetrainEnd {st ok} (s : State) : exec (.stackRetrainEnd st ok) s = execStackRetrainEnd st ok s := rfl
theorem stackRetrainEnd_shape {st ok} : ActsLive (.stackRetrainEnd st ok) := fun s => ⟨_, Sys2Proof.Machine.execStackRetrainEnd.eq_1 st ok s⟩
theorem exec_aonClkReturn (s : State) : exec (.aonClkReturn) s = execAonClkReturn s := rfl
theorem aonClkReturn_shape : ActsAlways (.aonClkReturn) := fun s => ⟨_, Sys2Proof.Machine.execAonClkReturn.eq_1 s⟩
theorem exec_referenceReturn {r} (s : State) : exec (.referenceReturn r) s = execReferenceReturn r s := rfl
theorem referenceReturn_shape {r} : ActsAlways (.referenceReturn r) := fun s => ⟨_, Sys2Proof.Machine.execReferenceReturn.eq_1 r s⟩
theorem exec_aonSupplyOn (s : State) : exec (.aonSupplyOn) s = execAonSupplyOn s := rfl
theorem aonSupplyOn_shape : ActsAlways (.aonSupplyOn) := fun s => ⟨_, Sys2Proof.Machine.execAonSupplyOn.eq_1 s⟩
theorem exec_currentEstimate {amps} (s : State) : exec (.currentEstimate amps) s = execCurrentEstimate amps s := rfl
theorem currentEstimate_shape {amps} : ActsLive (.currentEstimate amps) := fun s => ⟨_, Sys2Proof.Machine.execCurrentEstimate.eq_1 amps s⟩
theorem exec_clkTimeTick (s : State) : exec (.clkTimeTick) s = execClkTimeTick s := rfl
theorem clkTimeTick_shape : ActsAlways (.clkTimeTick) := fun s => ⟨_, Sys2Proof.Machine.execClkTimeTick.eq_1 s⟩
theorem exec_jtagInstruction {ir} (s : State) : exec (.jtagInstruction ir) s = execJtagInstruction ir s := rfl
theorem exec_pllLockLoss (s : State) : exec (.pllLockLoss) s = execPllLockLoss s := rfl
theorem pllLockLoss_shape : ActsLive (.pllLockLoss) := fun s => ⟨_, Sys2Proof.Machine.execPllLockLoss.eq_1 s⟩

/-- Every command acts while the clocks run, or always, or is the TAP's instruction. -/
theorem exec_shape (c : Instr) : ActsLive c ∨ ActsAlways c ∨ ∃ ir, c = .jtagInstruction ir :=
  match c with
  | .takeDescriptor _ => .inl takeDescriptor_shape
  | .writeCompletion _ => .inl writeCompletion_shape
  | .insert _ _ => .inl insert_shape
  | .delete _ _ => .inl delete_shape
  | .batch _ _ => .inl batch_shape
  | .pin _ _ => .inl pin_shape
  | .unpin _ _ => .inl unpin_shape
  | .search _ _ => .inl search_shape
  | .searchGraph _ _ => .inl searchGraph_shape
  | .searchDelete _ _ => .inl searchDelete_shape
  | .select _ _ => .inl select_shape
  | .attend _ _ => .inl attend_shape
  | .attendBwd _ _ => .inl attendBwd_shape
  | .gather _ _ => .inl gather_shape
  | .scatter _ _ => .inl scatter_shape
  | .rowWrite _ _ => .inl rowWrite_shape
  | .publish _ _ => .inl publish_shape
  | .cellarRead _ _ => .inl cellarRead_shape
  | .cellarWrite _ _ => .inl cellarWrite_shape
  | .cellarDiscard _ _ => .inl cellarDiscard_shape
  | .caskHint _ _ => .inl caskHint_shape
  | .caskFlush _ _ => .inl caskFlush_shape
  | .caskLend _ _ => .inl caskLend_shape
  | .caskReclaim _ _ => .inl caskReclaim_shape
  | .caskWithdraw _ _ => .inl caskWithdraw_shape
  | .syncArm _ _ => .inl syncArm_shape
  | .syncArrive _ _ => .inl syncArrive_shape
  | .syncWait _ _ => .inl syncWait_shape
  | .syncDisarm _ _ => .inl syncDisarm_shape
  | .syncPost _ _ => .inl syncPost_shape
  | .syncTake _ _ => .inl syncTake_shape
  | .broadcast _ _ => .inl broadcast_shape
  | .passGroupTimeout _ _ => .inl passGroupTimeout_shape
  | .scan _ _ _ => .inl scan_shape
  | .attn _ _ _ => .inl attn_shape
  | .qk _ _ _ => .inl qk_shape
  | .write _ _ _ _ _ => .inl write_shape
  | .rack _ _ _ => .inl rack_shape
  | .lutLoad _ _ _ _ => .inl lutLoad_shape
  | .discard _ _ _ => .inl discard_shape
  | .windowGrant _ => .inl windowGrant_shape
  | .windowEnd _ => .inl windowEnd_shape
  | .accountingPeriod _ => .inl accountingPeriod_shape
  | .refresh _ _ => .inl refresh_shape
  | .correctedRewrite _ => .inl correctedRewrite_shape
  | .indexEnable _ _ _ => .inl indexEnable_shape
  | .indexDisable _ _ _ => .inl indexDisable_shape
  | .vintClose _ _ => .inl vintClose_shape
  | .closeInterval _ => .inl closeInterval_shape
  | .close _ => .inl close_shape
  | .vintagePublish _ => .inl vintagePublish_shape
  | .vintageDurable _ => .inl vintageDurable_shape
  | .pinRevoke _ _ => .inl pinRevoke_shape
  | .requestRevoke _ _ => .inl requestRevoke_shape
  | .racking _ _ => .inl racking_shape
  | .ageRebase _ _ => .inl ageRebase_shape
  | .spillMove _ _ _ => .inl spillMove_shape
  | .blockFree _ _ => .inl blockFree_shape
  | .blockRepair _ _ => .inl blockRepair_shape
  | .spillWaitTimeout _ _ => .inl spillWaitTimeout_shape
  | .logWaitTimeout _ _ => .inl logWaitTimeout_shape
  | .logFlush => .inl logFlush_shape
  | .channelStart _ _ _ => .inl channelStart_shape
  | .channelTrainingEnd _ _ _ => .inl channelTrainingEnd_shape
  | .channelStop _ _ _ => .inl channelStop_shape
  | .failedRun _ => .inl failedRun_shape
  | .cellarStart _ _ => .inl cellarStart_shape
  | .cellarStartEnd => .inl cellarStartEnd_shape
  | .namespaceEnable _ _ => .inl namespaceEnable_shape
  | .namespaceDisable _ _ => .inl namespaceDisable_shape
  | .lunDispatch _ _ _ => .inl lunDispatch_shape
  | .frameReadDone _ _ _ _ => .inl frameReadDone_shape
  | .readDeadline _ => .inl readDeadline_shape
  | .programDone _ _ _ => .inl programDone_shape
  | .programFailure _ _ _ => .inl programFailure_shape
  | .eraseDone _ _ _ _ => .inl eraseDone_shape
  | .garbageCollection => .inl garbageCollection_shape
  | .wearLevelling => .inl wearLevelling_shape
  | .superblockVerify _ _ => .inl superblockVerify_shape
  | .mapSegmentFlush => .inl mapSegmentFlush_shape
  | .zqShortCalibration _ => .inl zqShortCalibration_shape
  | .temperatureSample _ => .inl temperatureSample_shape
  | .debugWindowAccess _ _ _ _ => .inl debugWindowAccess_shape
  | .logTrimWrite _ _ => .inl logTrimWrite_shape
  | .rdS _ _ _ _ => .inl rdS_shape
  | .rdM _ _ _ _ => .inl rdM_shape
  | .rdNc _ _ _ _ => .inl rdNc_shape
  | .wrNc _ _ _ _ _ _ => .inl wrNc_shape
  | .wb _ _ _ _ _ => .inl wb_shape
  | .drop _ _ _ _ => .inl drop_shape
  | .snpInv _ _ _ => .inl snpInv_shape
  | .snpData _ _ _ => .inl snpData_shape
  | .snpAck _ _ _ _ _ => .inl snpAck_shape
  | .data _ _ _ _ => .inl data_shape
  | .cmp _ _ _ => .inl cmp_shape
  | .recallTimeout _ _ _ => .inl recallTimeout_shape
  | .agentLost _ _ => .inl agentLost_shape
  | .poolCatInval _ _ => .inl poolCatInval_shape
  | .pageFetch _ _ => .inl pageFetch_shape
  | .pageFetchDone _ _ => .inl pageFetchDone_shape
  | .pageEviction => .inl pageEviction_shape
  | .counterHalving => .inl counterHalving_shape
  | .fetchTimeout _ _ => .inl fetchTimeout_shape
  | .drainTimeout _ => .inl drainTimeout_shape
  | .trellisLoad _ _ _ => .inl trellisLoad_shape
  | .trellisUnload _ _ _ => .inl trellisUnload_shape
  | .verifyDone _ => .inl verifyDone_shape
  | .drainEnd _ => .inl drainEnd_shape
  | .programEnd _ => .inl programEnd_shape
  | .contextEnable _ _ _ => .inl contextEnable_shape
  | .contextDisable _ _ _ => .inl contextDisable_shape
  | .preempt _ _ => .inl preempt_shape
  | .suspendDone _ => .inl suspendDone_shape
  | .resume _ _ => .inl resume_shape
  | .abort _ _ => .inl abort_shape
  | .contextReset _ _ => .inl contextReset_shape
  | .doorbell _ _ _ => .inl doorbell_shape
  | .ctxTlbInval _ _ => .inl ctxTlbInval_shape
  | .slowdownLatch => .inl slowdownLatch_shape
  | .requestTimeout _ _ => .inl requestTimeout_shape
  | .syncTimeout _ _ => .inl syncTimeout_shape
  | .subreq _ _ => .inl subreq_shape
  | .reply _ _ => .inl reply_shape
  | .moved _ _ => .inl moved_shape
  | .coherenceFrame _ _ => .inl coherenceFrame_shape
  | .globalArrive _ _ => .inl globalArrive_shape
  | .globalRelease _ _ => .inl globalRelease_shape
  | .closeTrigger _ _ => .inl closeTrigger_shape
  | .prepare _ _ => .inl prepare_shape
  | .prepared _ _ => .inl prepared_shape
  | .commit _ _ => .inl commit_shape
  | .globalReset _ _ => .inl globalReset_shape
  | .resetDone _ _ => .inl resetDone_shape
  | .bcastData _ _ => .inl bcastData_shape
  | .bcastDone _ _ => .inl bcastDone_shape
  | .ack _ _ => .inl ack_shape
  | .nak _ _ => .inl nak_shape
  | .keepalive _ _ => .inl keepalive_shape
  | .admitHello _ _ => .inl admitHello_shape
  | .admitCert _ _ => .inl admitCert_shape
  | .admitProof _ _ => .inl admitProof_shape
  | .frameTransmit _ => .inl frameTransmit_shape
  | .retransmitTimeout _ _ => .inl retransmitTimeout_shape
  | .ackTimer _ _ => .inl ackTimer_shape
  | .keepaliveTimer _ _ => .inl keepaliveTimer_shape
  | .subreqTimeout _ => .inl subreqTimeout_shape
  | .admitPeer _ _ => .inl admitPeer_shape
  | .admitTimeout _ => .inl admitTimeout_shape
  | .lost _ _ => .inl lost_shape
  | .fabricPortEnable _ _ _ => .inl fabricPortEnable_shape
  | .fabricPortFailed _ => .inl fabricPortFailed_shape
  | .fabQueueWrite _ _ _ => .inl fabQueueWrite_shape
  | .fabShapeWrite _ _ _ => .inl fabShapeWrite_shape
  | .fabPoliceWrite _ _ _ => .inl fabPoliceWrite_shape
  | .install _ _ => .inl install_shape
  | .remove _ _ => .inl remove_shape
  | .compositionReset _ _ => .inl compositionReset_shape
  | .epochDrainEnd _ => .inl epochDrainEnd_shape
  | .heldMessageTimeout _ => .inl heldMessageTimeout_shape
  | .nahelPortEnable _ _ _ => .inl nahelPortEnable_shape
  | .nahelPortDisable _ _ _ => .inl nahelPortDisable_shape
  | .trainingStateEnd _ _ _ => .inl trainingStateEnd_shape
  | .trainingTimeout _ => .inl trainingTimeout_shape
  | .dataFlit _ _ => .inl dataFlit_shape
  | .idleFlit _ _ => .inl idleFlit_shape
  | .nakFlit _ _ => .inl nakFlit_shape
  | .replayTimeout _ => .inl replayTimeout_shape
  | .rdPacket _ _ => .inl rdPacket_shape
  | .wrPacket _ _ => .inl wrPacket_shape
  | .cohPacket _ _ => .inl cohPacket_shape
  | .mgmtPacket _ _ => .inl mgmtPacket_shape
  | .credit _ _ => .inl credit_shape
  | .intrReceived _ _ => .inl intrReceived_shape
  | .moderationTimer _ _ => .inl moderationTimer_shape
  | .status _ _ => .inl status_shape
  | .recoveryWrite _ _ _ _ => .inl recoveryWrite_shape
  | .run _ _ _ => .inl run_shape
  | .getVersion _ _ _ => .inl getVersion_shape
  | .getCapabilities _ _ _ => .inl getCapabilities_shape
  | .negotiateAlgorithms _ _ _ => .inl negotiateAlgorithms_shape
  | .getDigests _ _ _ => .inl getDigests_shape
  | .getCertificate _ _ _ _ _ => .inl getCertificate_shape
  | .challenge _ _ _ => .inl challenge_shape
  | .getMeasurements _ _ _ _ => .inl getMeasurements_shape
  | .entdaa _ => .inl entdaa_shape
  | .setEndpointId _ => .inl setEndpointId_shape
  | .getEndpointId => .inl getEndpointId_shape
  | .getMctpVersionSupport _ => .inl getMctpVersionSupport_shape
  | .getMessageTypeSupport => .inl getMessageTypeSupport_shape
  | .contextWatchdog _ => .inl contextWatchdog_shape
  | .tileWatchdog _ => .inl tileWatchdog_shape
  | .partitionWatchdog _ => .inl partitionWatchdog_shape
  | .chipWatchdog => .inl chipWatchdog_shape
  | .kick _ => .inl kick_shape
  | .engine _ _ => .inl engine_shape
  | .part _ _ => .inl part_shape
  | .chip _ => .inl chip_shape
  | .pcyc _ => .inl pcyc_shape
  | .selftest _ => .inl selftest_shape
  | .fenceDrainEnd _ => .inl fenceDrainEnd_shape
  | .stackRetrain _ => .inl stackRetrain_shape
  | .injection _ => .inl injection_shape
  | .checkpoint _ _ _ => .inl checkpoint_shape
  | .restore _ _ _ => .inl restore_shape
  | .restoreReplay _ _ _ => .inl restoreReplay_shape
  | .checkpointRunEnd => .inl checkpointRunEnd_shape
  | .hold _ _ _ => .inl hold_shape
  | .holdTimeout _ => .inl holdTimeout_shape
  | .tableEnable _ _ => .inl tableEnable_shape
  | .resetNAssert => .inr (.inl resetNAssert_shape)
  | .resetNRelease _ => .inr (.inl resetNRelease_shape)
  | .pwrGoodFall => .inr (.inl pwrGoodFall_shape)
  | .pwrGoodRise => .inr (.inl pwrGoodRise_shape)
  | .powerRemoved => .inr (.inl powerRemoved_shape)
  | .advance _ _ => .inl advance_shape
  | .revoke _ _ => .inl revoke_shape
  | .fuseBurnEnd => .inl fuseBurnEnd_shape
  | .clkWake _ _ => .inl clkWake_shape
  | .domainGate _ => .inl domainGate_shape
  | .domainStop _ => .inl domainStop_shape
  | .wakeStart => .inl wakeStart_shape
  | .wakeEnd _ => .inl wakeEnd_shape
  | .temperatureReading _ _ => .inl temperatureReading_shape
  | .throttleStep => .inl throttleStep_shape
  | .thermalTrip _ => .inr (.inl thermalTrip_shape)
  | .aonClkLoss => .inr (.inl aonClkLoss_shape)
  | .referenceLoss _ => .inr (.inl referenceLoss_shape)
  | .interruptSummaryWrite _ _ _ => .inl interruptSummaryWrite_shape
  | .rcRead _ _ _ => .inl rcRead_shape
  | .registerWrite _ _ _ _ => .inl registerWrite_shape
  | .alignmentBlock _ _ _ => .inl alignmentBlock_shape
  | .unfence _ => .inl unfence_shape
  | .resetBoundPassed _ => .inl resetBoundPassed_shape
  | .selftestEnd _ _ => .inl selftestEnd_shape
  | .stackRetrainEnd _ _ => .inl stackRetrainEnd_shape
  | .aonClkReturn => .inr (.inl aonClkReturn_shape)
  | .referenceReturn _ => .inr (.inl referenceReturn_shape)
  | .aonSupplyOn => .inr (.inl aonSupplyOn_shape)
  | .currentEstimate _ => .inl currentEstimate_shape
  | .clkTimeTick => .inr (.inl clkTimeTick_shape)
  | .jtagInstruction ir => .inr (.inr ⟨ir, rfl⟩)
  | .pllLockLoss => .inl pllLockLoss_shape

theorem jtagInstruction_cases (ir : BitVec 8) (s : State) : (∃ f, exec (.jtagInstruction ir) s = always s f) ∨
    s.sec.fuses.debugOff = false ∧ exec (.jtagInstruction ir) s = .refused .jtagPrivate := by
  have e : exec (.jtagInstruction ir) s = execJtagInstruction ir s := rfl
  rw [e]
  unfold execJtagInstruction
  simp only
  split
  · exact .inl ⟨_, rfl⟩
  · split
    · exact .inl ⟨_, rfl⟩
    · next h => exact .inr ⟨by simpa using h, rfl⟩

/-- A command that is no event of a pin, a supply or a clock acts only while the clocks run. -/
theorem actsLive_of_not_actsStopped (c : Instr) (h : actsStopped c = false) : ActsLive c :=
  match c, h with
  | .takeDescriptor _, _ => takeDescriptor_shape
  | .writeCompletion _, _ => writeCompletion_shape
  | .insert _ _, _ => insert_shape
  | .delete _ _, _ => delete_shape
  | .batch _ _, _ => batch_shape
  | .pin _ _, _ => pin_shape
  | .unpin _ _, _ => unpin_shape
  | .search _ _, _ => search_shape
  | .searchGraph _ _, _ => searchGraph_shape
  | .searchDelete _ _, _ => searchDelete_shape
  | .select _ _, _ => select_shape
  | .attend _ _, _ => attend_shape
  | .attendBwd _ _, _ => attendBwd_shape
  | .gather _ _, _ => gather_shape
  | .scatter _ _, _ => scatter_shape
  | .rowWrite _ _, _ => rowWrite_shape
  | .publish _ _, _ => publish_shape
  | .cellarRead _ _, _ => cellarRead_shape
  | .cellarWrite _ _, _ => cellarWrite_shape
  | .cellarDiscard _ _, _ => cellarDiscard_shape
  | .caskHint _ _, _ => caskHint_shape
  | .caskFlush _ _, _ => caskFlush_shape
  | .caskLend _ _, _ => caskLend_shape
  | .caskReclaim _ _, _ => caskReclaim_shape
  | .caskWithdraw _ _, _ => caskWithdraw_shape
  | .syncArm _ _, _ => syncArm_shape
  | .syncArrive _ _, _ => syncArrive_shape
  | .syncWait _ _, _ => syncWait_shape
  | .syncDisarm _ _, _ => syncDisarm_shape
  | .syncPost _ _, _ => syncPost_shape
  | .syncTake _ _, _ => syncTake_shape
  | .broadcast _ _, _ => broadcast_shape
  | .passGroupTimeout _ _, _ => passGroupTimeout_shape
  | .scan _ _ _, _ => scan_shape
  | .attn _ _ _, _ => attn_shape
  | .qk _ _ _, _ => qk_shape
  | .write _ _ _ _ _, _ => write_shape
  | .rack _ _ _, _ => rack_shape
  | .lutLoad _ _ _ _, _ => lutLoad_shape
  | .discard _ _ _, _ => discard_shape
  | .windowGrant _, _ => windowGrant_shape
  | .windowEnd _, _ => windowEnd_shape
  | .accountingPeriod _, _ => accountingPeriod_shape
  | .refresh _ _, _ => refresh_shape
  | .correctedRewrite _, _ => correctedRewrite_shape
  | .indexEnable _ _ _, _ => indexEnable_shape
  | .indexDisable _ _ _, _ => indexDisable_shape
  | .vintClose _ _, _ => vintClose_shape
  | .closeInterval _, _ => closeInterval_shape
  | .close _, _ => close_shape
  | .vintagePublish _, _ => vintagePublish_shape
  | .vintageDurable _, _ => vintageDurable_shape
  | .pinRevoke _ _, _ => pinRevoke_shape
  | .requestRevoke _ _, _ => requestRevoke_shape
  | .racking _ _, _ => racking_shape
  | .ageRebase _ _, _ => ageRebase_shape
  | .spillMove _ _ _, _ => spillMove_shape
  | .blockFree _ _, _ => blockFree_shape
  | .blockRepair _ _, _ => blockRepair_shape
  | .spillWaitTimeout _ _, _ => spillWaitTimeout_shape
  | .logWaitTimeout _ _, _ => logWaitTimeout_shape
  | .logFlush, _ => logFlush_shape
  | .channelStart _ _ _, _ => channelStart_shape
  | .channelTrainingEnd _ _ _, _ => channelTrainingEnd_shape
  | .channelStop _ _ _, _ => channelStop_shape
  | .failedRun _, _ => failedRun_shape
  | .cellarStart _ _, _ => cellarStart_shape
  | .cellarStartEnd, _ => cellarStartEnd_shape
  | .namespaceEnable _ _, _ => namespaceEnable_shape
  | .namespaceDisable _ _, _ => namespaceDisable_shape
  | .lunDispatch _ _ _, _ => lunDispatch_shape
  | .frameReadDone _ _ _ _, _ => frameReadDone_shape
  | .readDeadline _, _ => readDeadline_shape
  | .programDone _ _ _, _ => programDone_shape
  | .programFailure _ _ _, _ => programFailure_shape
  | .eraseDone _ _ _ _, _ => eraseDone_shape
  | .garbageCollection, _ => garbageCollection_shape
  | .wearLevelling, _ => wearLevelling_shape
  | .superblockVerify _ _, _ => superblockVerify_shape
  | .mapSegmentFlush, _ => mapSegmentFlush_shape
  | .zqShortCalibration _, _ => zqShortCalibration_shape
  | .temperatureSample _, _ => temperatureSample_shape
  | .debugWindowAccess _ _ _ _, _ => debugWindowAccess_shape
  | .logTrimWrite _ _, _ => logTrimWrite_shape
  | .rdS _ _ _ _, _ => rdS_shape
  | .rdM _ _ _ _, _ => rdM_shape
  | .rdNc _ _ _ _, _ => rdNc_shape
  | .wrNc _ _ _ _ _ _, _ => wrNc_shape
  | .wb _ _ _ _ _, _ => wb_shape
  | .drop _ _ _ _, _ => drop_shape
  | .snpInv _ _ _, _ => snpInv_shape
  | .snpData _ _ _, _ => snpData_shape
  | .snpAck _ _ _ _ _, _ => snpAck_shape
  | .data _ _ _ _, _ => data_shape
  | .cmp _ _ _, _ => cmp_shape
  | .recallTimeout _ _ _, _ => recallTimeout_shape
  | .agentLost _ _, _ => agentLost_shape
  | .poolCatInval _ _, _ => poolCatInval_shape
  | .pageFetch _ _, _ => pageFetch_shape
  | .pageFetchDone _ _, _ => pageFetchDone_shape
  | .pageEviction, _ => pageEviction_shape
  | .counterHalving, _ => counterHalving_shape
  | .fetchTimeout _ _, _ => fetchTimeout_shape
  | .drainTimeout _, _ => drainTimeout_shape
  | .trellisLoad _ _ _, _ => trellisLoad_shape
  | .trellisUnload _ _ _, _ => trellisUnload_shape
  | .verifyDone _, _ => verifyDone_shape
  | .drainEnd _, _ => drainEnd_shape
  | .programEnd _, _ => programEnd_shape
  | .contextEnable _ _ _, _ => contextEnable_shape
  | .contextDisable _ _ _, _ => contextDisable_shape
  | .preempt _ _, _ => preempt_shape
  | .suspendDone _, _ => suspendDone_shape
  | .resume _ _, _ => resume_shape
  | .abort _ _, _ => abort_shape
  | .contextReset _ _, _ => contextReset_shape
  | .doorbell _ _ _, _ => doorbell_shape
  | .ctxTlbInval _ _, _ => ctxTlbInval_shape
  | .slowdownLatch, _ => slowdownLatch_shape
  | .requestTimeout _ _, _ => requestTimeout_shape
  | .syncTimeout _ _, _ => syncTimeout_shape
  | .subreq _ _, _ => subreq_shape
  | .reply _ _, _ => reply_shape
  | .moved _ _, _ => moved_shape
  | .coherenceFrame _ _, _ => coherenceFrame_shape
  | .globalArrive _ _, _ => globalArrive_shape
  | .globalRelease _ _, _ => globalRelease_shape
  | .closeTrigger _ _, _ => closeTrigger_shape
  | .prepare _ _, _ => prepare_shape
  | .prepared _ _, _ => prepared_shape
  | .commit _ _, _ => commit_shape
  | .globalReset _ _, _ => globalReset_shape
  | .resetDone _ _, _ => resetDone_shape
  | .bcastData _ _, _ => bcastData_shape
  | .bcastDone _ _, _ => bcastDone_shape
  | .ack _ _, _ => ack_shape
  | .nak _ _, _ => nak_shape
  | .keepalive _ _, _ => keepalive_shape
  | .admitHello _ _, _ => admitHello_shape
  | .admitCert _ _, _ => admitCert_shape
  | .admitProof _ _, _ => admitProof_shape
  | .frameTransmit _, _ => frameTransmit_shape
  | .retransmitTimeout _ _, _ => retransmitTimeout_shape
  | .ackTimer _ _, _ => ackTimer_shape
  | .keepaliveTimer _ _, _ => keepaliveTimer_shape
  | .subreqTimeout _, _ => subreqTimeout_shape
  | .admitPeer _ _, _ => admitPeer_shape
  | .admitTimeout _, _ => admitTimeout_shape
  | .lost _ _, _ => lost_shape
  | .fabricPortEnable _ _ _, _ => fabricPortEnable_shape
  | .fabricPortFailed _, _ => fabricPortFailed_shape
  | .fabQueueWrite _ _ _, _ => fabQueueWrite_shape
  | .fabShapeWrite _ _ _, _ => fabShapeWrite_shape
  | .fabPoliceWrite _ _ _, _ => fabPoliceWrite_shape
  | .install _ _, _ => install_shape
  | .remove _ _, _ => remove_shape
  | .compositionReset _ _, _ => compositionReset_shape
  | .epochDrainEnd _, _ => epochDrainEnd_shape
  | .heldMessageTimeout _, _ => heldMessageTimeout_shape
  | .nahelPortEnable _ _ _, _ => nahelPortEnable_shape
  | .nahelPortDisable _ _ _, _ => nahelPortDisable_shape
  | .trainingStateEnd _ _ _, _ => trainingStateEnd_shape
  | .trainingTimeout _, _ => trainingTimeout_shape
  | .dataFlit _ _, _ => dataFlit_shape
  | .idleFlit _ _, _ => idleFlit_shape
  | .nakFlit _ _, _ => nakFlit_shape
  | .replayTimeout _, _ => replayTimeout_shape
  | .rdPacket _ _, _ => rdPacket_shape
  | .wrPacket _ _, _ => wrPacket_shape
  | .cohPacket _ _, _ => cohPacket_shape
  | .mgmtPacket _ _, _ => mgmtPacket_shape
  | .credit _ _, _ => credit_shape
  | .intrReceived _ _, _ => intrReceived_shape
  | .moderationTimer _ _, _ => moderationTimer_shape
  | .status _ _, _ => status_shape
  | .recoveryWrite _ _ _ _, _ => recoveryWrite_shape
  | .run _ _ _, _ => run_shape
  | .getVersion _ _ _, _ => getVersion_shape
  | .getCapabilities _ _ _, _ => getCapabilities_shape
  | .negotiateAlgorithms _ _ _, _ => negotiateAlgorithms_shape
  | .getDigests _ _ _, _ => getDigests_shape
  | .getCertificate _ _ _ _ _, _ => getCertificate_shape
  | .challenge _ _ _, _ => challenge_shape
  | .getMeasurements _ _ _ _, _ => getMeasurements_shape
  | .entdaa _, _ => entdaa_shape
  | .setEndpointId _, _ => setEndpointId_shape
  | .getEndpointId, _ => getEndpointId_shape
  | .getMctpVersionSupport _, _ => getMctpVersionSupport_shape
  | .getMessageTypeSupport, _ => getMessageTypeSupport_shape
  | .contextWatchdog _, _ => contextWatchdog_shape
  | .tileWatchdog _, _ => tileWatchdog_shape
  | .partitionWatchdog _, _ => partitionWatchdog_shape
  | .chipWatchdog, _ => chipWatchdog_shape
  | .kick _, _ => kick_shape
  | .engine _ _, _ => engine_shape
  | .part _ _, _ => part_shape
  | .chip _, _ => chip_shape
  | .pcyc _, _ => pcyc_shape
  | .selftest _, _ => selftest_shape
  | .fenceDrainEnd _, _ => fenceDrainEnd_shape
  | .stackRetrain _, _ => stackRetrain_shape
  | .injection _, _ => injection_shape
  | .checkpoint _ _ _, _ => checkpoint_shape
  | .restore _ _ _, _ => restore_shape
  | .restoreReplay _ _ _, _ => restoreReplay_shape
  | .checkpointRunEnd, _ => checkpointRunEnd_shape
  | .hold _ _ _, _ => hold_shape
  | .holdTimeout _, _ => holdTimeout_shape
  | .tableEnable _ _, _ => tableEnable_shape
  | .advance _ _, _ => advance_shape
  | .revoke _ _, _ => revoke_shape
  | .fuseBurnEnd, _ => fuseBurnEnd_shape
  | .clkWake _ _, _ => clkWake_shape
  | .domainGate _, _ => domainGate_shape
  | .domainStop _, _ => domainStop_shape
  | .wakeStart, _ => wakeStart_shape
  | .wakeEnd _, _ => wakeEnd_shape
  | .temperatureReading _ _, _ => temperatureReading_shape
  | .throttleStep, _ => throttleStep_shape
  | .interruptSummaryWrite _ _ _, _ => interruptSummaryWrite_shape
  | .rcRead _ _ _, _ => rcRead_shape
  | .registerWrite _ _ _ _, _ => registerWrite_shape
  | .alignmentBlock _ _ _, _ => alignmentBlock_shape
  | .unfence _, _ => unfence_shape
  | .resetBoundPassed _, _ => resetBoundPassed_shape
  | .selftestEnd _ _, _ => selftestEnd_shape
  | .stackRetrainEnd _ _, _ => stackRetrainEnd_shape
  | .currentEstimate _, _ => currentEstimate_shape
  | .pllLockLoss, _ => pllLockLoss_shape

end Sys2Proof.Machine
end

