-- ==== Sys2Proof/Tests/Slice0.lean ====
section
/-! SUPPORT. Tests: ill-formed commands that the check of well-formedness refuses, one small step of some commands, and for every
statement that has hypotheses a concrete state and operands that meet them. -/
namespace Sys2Proof.Machine.Tests

set_option Elab.async false

/-! Helpers -/

/-- The machine right after reset; its clocks run. -/
def dev : State := State.reset

/-- The bytes of a descriptor: its opcode, and values of its operation area (offset, bytes, value). -/
def descFor (op : Nat) (l : List (Nat × Nat × Nat)) : Bytes :=
  l.foldl (fun d (off, n, v) => putAt d (32 + off) (leBytes n v)) (putAt (zeros 128) 32 (leBytes 1 op))

/-- A request of slot 0 that has been taken and not begun. -/
def reqFor (op : Nat) (l : List (Nat × Nat × Nat)) : Req := { (default : Req) with desc := descFor op l, work := .fresh }

/-- A state in which context c is ENABLED and holds a request more. -/
def ready (s : State) (c : Nat) (r : Req) : State :=
  (s.setF F.CTX_STAT_STATE c ctxEnabled).setCtx c fun x => { x with reqs := x.reqs ++ [r] }

/-- `Takes` and `Runs` as conditions that evaluate. -/
def takesB (s : State) (src : Src) (r : Reg) (i v : Nat) : Bool :=
  s.live && s.mayAccess src && !s.refusesWrite r i (s.reg r i) (r.merged i (s.reg r i) (v % 2 ^ 64) (2 ^ 64 - 1)) &&
    !s.ignoresWrite r i (r.merged i (s.reg r i) (v % 2 ^ 64) (2 ^ 64 - 1))

theorem takes_of {s : State} {src : Src} {r : Reg} {i v : Nat} (h : takesB s src r i v = true) : Takes s src r i v := by
  unfold takesB at h
  simp only [Bool.and_eq_true, Bool.not_eq_true'] at h
  exact ⟨h.1.1.1, h.1.1.2, h.1.2, h.2⟩

def runsB (s : State) (c q op : Nat) (r : Req) : Bool :=
  s.live && decide (s.pool.needs = []) && decide (s.req c q = some r) && r.work.mayRun && decide (descOp r.desc = op) &&
    decide (s.ctxState c = ctxEnabled) && (r.begun || (s.hasTurn c q && s.partAwake (s.partOf c)))

theorem runs_of {s : State} {c q op : Nat} {r : Req} (h : runsB s c q op r = true) : Runs s c q op r := by
  unfold runsB at h
  simp only [Bool.and_eq_true, Bool.or_eq_true, decide_eq_true_eq] at h
  exact ⟨h.1.1.1.1.1.1, h.1.1.1.1.1.2, h.1.1.1.1.2, h.1.1.1.2, h.1.1.2, h.1.2, h.2⟩

/-- The word that a register holds once fields of it are set. -/
def wordOf (s : State) (r : Reg) (i : Nat) (l : List (Fld × Nat)) : Word := BitVec.ofNat 64 ((s.setFs i l).reg r i)

/-! Ill-formed commands: one for each check of well-formedness -/

/-- A frame of n payload bytes and a packet of n body bytes, otherwise as the carrier brings them. -/
def frameOf (n : Nat) : Frame := ⟨0x88E5#16, false, 0, 0, false, 0, 0, none, 1, false, true, 9, 3, 0, 0, 0, false, false, 0, 0, 0, 0xFFFF, 0, zeros n⟩
def packetOf (n : Nat) : Packet := ⟨0, false, 0, 0, 0, 0, 0, zeros n⟩

theorem test_wf_refuses_a_short_press_command :
    Instr.wf (.scan 0 0 (zeros 63)) = false ∧ Instr.wf (.lutLoad 0 0 (zeros 65) []) = false ∧ Instr.wf (.scan 0 0 (zeros 64)) = true := by
  decide +kernel

theorem test_wf_refuses_long_write_data :
    Instr.wf (.write 0 0 (zeros 64) (zeros 4097) []) = false ∧ Instr.wf (.write 0 0 (zeros 64) (zeros 4096) []) = true ∧
      Instr.wf (.write 0 0 (zeros 64) [] (List.replicate 4097 true)) = false ∧ Instr.wf (.lutLoad 0 0 (zeros 64) (zeros 65537)) = false := by
  decide +kernel

theorem test_wf_refuses_a_short_line :
    Instr.wf (.wb 0 0 0 0 (zeros 63)) = false ∧ Instr.wf (.wrNc 0 0 0 0 0 (zeros 65)) = false ∧
      Instr.wf (.snpAck 0 0 0 0 (.withLine (zeros 1))) = false ∧ Instr.wf (.snpAck 0 0 0 0 .without) = true := by decide +kernel

theorem test_wf_refuses_a_long_frame : Instr.wf (.subreq 0 (frameOf 65536)) = false ∧ Instr.wf (.ack 0 (frameOf 65535)) = true := by
  decide +kernel

theorem test_wf_refuses_a_short_flit : Instr.wf (.dataFlit 0 (zeros 255)) = false ∧ Instr.wf (.nakFlit 0 (zeros 256)) = true := by decide +kernel

theorem test_wf_refuses_a_long_packet : Instr.wf (.rdPacket 0 (packetOf 8192)) = false ∧ Instr.wf (.credit 0 (packetOf 8191)) = true := by
  decide +kernel

theorem test_wf_refuses_a_domain_region_or_unit_that_is_not_there :
    Instr.wf (.domainGate 44) = false ∧ Instr.wf (.wakeEnd 43) = true ∧ Instr.wf (.thermalTrip 15) = false ∧
      Instr.wf (.temperatureReading 14 0) = true ∧ Instr.wf (.selftestEnd 0 [512]) = false ∧ Instr.wf (.selftestEnd 0 [511]) = true := by
  decide +kernel

/-! The registers and the summary -/

theorem wit_StoppedNodeIgnoresCommands :
    (dev.setPins fun p => { p with resetLow := true }).live = false ∧ actsStopped .wakeStart = false := by decide +kernel

theorem wit_OneRegisterPerAddress : 0 < Reg.count .vintIdxCfg ∧ 4095 < Reg.count .vintIdxCfg := by decide +kernel

theorem wit_WritesReachOnlyWritableFields :
    0 < Reg.count .topIntStat ∧ 2 ^ 64 - 1 < 2 ^ 64 ∧ F.TOP_INT_STAT_FAB_LOST ∈ Reg.topIntStat.fields 0 ∧
      ∀ f ∈ Reg.topIntStat.fields 0, ¬ (f.lo ≤ 63 ∧ 63 ≤ f.hi) := by decide +kernel

theorem wit_RegisterWriteStoresItsFields :
    dev.live = true ∧ dev.mayAccess .mgmt = true ∧ storesOnly .topScratch = true ∧ 0 < Reg.count .topScratch ∧
      storesOnly .ctxPt = true ∧ 4095 < Reg.count .ctxPt := by decide +kernel

theorem wit_RefusedAccessIsRecorded :
    dev.live = true ∧ dev.mayAccess .mgmt = true ∧ (BitVec.ofNat 52 0x3FFFFF8).toNat < 2 ^ 26 ∧
      Reg.find ((BitVec.ofNat 52 0x3FFFFF8).toNat - (BitVec.ofNat 52 0x3FFFFF8).toNat % 8) = none ∧
      (BitVec.ofNat 52 4).toNat % (if true then 8 else 4) ≠ 0 := by decide +kernel

/-- An enabled index 5, otherwise as reset leaves it. -/
def ixOn : State := dev.setF F.VINT_IDX_CFG_ENABLE 5 1

theorem wit_RefusedAccessesChangeNothing :
    (ixOn.live = true ∧ ixOn.mayAccess .mgmt = true ∧ 5 < Reg.count .vintIdxQcfg ∧
      ixOn.refusesWrite .vintIdxQcfg 5 (ixOn.reg .vintIdxQcfg 5) (Reg.vintIdxQcfg.merged 5 (ixOn.reg .vintIdxQcfg 5) 1 (2 ^ 64 - 1)) = true) ∧
    dev.f F.TOP_ERR_FIRST_VALID 0 = 0 ∧ (dev.setF F.TOP_ERR_FIRST_VALID 0 1).f F.TOP_ERR_FIRST_VALID 0 ≠ 0 ∧ dev.jtagOpen = false := by
  decide +kernel

theorem inv_dev : Inv dev := by unfold Inv; decide +kernel

theorem wit_ReadsClearWhatTheyReturn :
    dev.live = true ∧ dev.mayAccess .mgmt = true ∧ 511 < Reg.count .pressLoad ∧ Inv dev ∧ F.PRESS_LOAD_QUEUE_PEAK.acc = .rc :=
  ⟨by decide +kernel, by decide +kernel, by decide +kernel, inv_dev, by decide +kernel⟩

theorem wit_SummaryFollowsItsSources : Inv dev ∧ ∃ t, step dev = .next t := ⟨inv_dev, dev, rfl⟩

theorem wit_SummaryRegistersAreWritten : dev.live = true ∧ dev.mayAccess .nahel1 = true := by decide +kernel

/-! Rows that write registers -/

/-- Index 5 with a configuration that may be enabled. -/
def ixOff : State := ((dev.setF F.VINT_IDX_LOC_ADDR 5 1).setF F.VINT_IDX_LOC_LOG2_SLOTS 5 10).setF F.VINT_FREE_MAP_ADDR 0 1
def ixCfgOn : Word := wordOf ixOff .vintIdxCfg 5 [(F.VINT_IDX_CFG_ENABLE, 1), (F.VINT_IDX_CFG_CODE_FMT, 8)]

theorem wit_IndexRowsTakeEffect_enable :
    Takes ixOff .mgmt .vintIdxCfg 5 ixCfgOn.toNat ∧ (ixOff.rowWrite .vintIdxCfg 5 ixCfgOn.toNat).on F.VINT_IDX_CFG_ENABLE 5 = true ∧
      (ixOff.reg .vintIdxCfg 5).testBit 0 = false ∧ (ixOff.rowWrite .vintIdxCfg 5 ixCfgOn.toNat).idxCfgOk 5 = true :=
  ⟨takes_of (by decide +kernel), by decide +kernel⟩

theorem wit_IndexRowsTakeEffect_disable :
    Takes ixOn .mgmt .vintIdxCfg 5 0 ∧ (ixOn.rowWrite .vintIdxCfg 5 0).on F.VINT_IDX_CFG_ENABLE 5 = false ∧
      (ixOn.reg .vintIdxCfg 5).testBit 0 = true := ⟨takes_of (by decide +kernel), by decide +kernel⟩

theorem wit_IndexRowsTakeEffect_close :
    Takes ixOn .mgmt .vintClose 0 5 ∧ (ixOn.rowWrite .vintClose 0 5).idxOn (bits 5 11 0) = true :=
  ⟨takes_of (by decide +kernel), by decide +kernel⟩

/-- Channel 47 enabled. -/
def chOn : State := dev.setF F.CELLAR_CH_CFG_ENABLE 47 1
def chWord : Word := wordOf dev .cellarChCfg 47 [(F.CELLAR_CH_CFG_ENABLE, 1)]

theorem wit_CellarRowsTakeEffect_channel :
    (Takes dev .mgmt .cellarChCfg 47 chWord.toNat ∧ 47 < 48 ∧
      (dev.rowWrite .cellarChCfg 47 chWord.toNat).on F.CELLAR_CH_CFG_ENABLE 47 = true ∧ (dev.reg .cellarChCfg 47).testBit 0 = false) ∧
    Takes chOn .mgmt .cellarChCfg 47 0 ∧ (chOn.rowWrite .cellarChCfg 47 0).on F.CELLAR_CH_CFG_ENABLE 47 = false ∧
      (chOn.reg .cellarChCfg 47).testBit 0 = true :=
  ⟨⟨takes_of (by decide +kernel), by decide +kernel⟩, takes_of (by decide +kernel), by decide +kernel⟩

def trimmed : State := dev.setReg .cellarLogTrim 0 9

theorem wit_CellarRowsTakeEffect_start :
    (Takes dev .mgmt .cellarCfg 0 (2 ^ 61) ∧ bit (2 ^ 61) 61 = true) ∧ Takes trimmed .mgmt .cellarLogTrim 0 9 ∧
    trimmed.live = true ∧ trimmed.mayAccess .mgmt = true ∧
      Reg.cellarLogTrim.merged 0 (trimmed.reg .cellarLogTrim 0) 8 (2 ^ 64 - 1) < trimmed.reg .cellarLogTrim 0 :=
  ⟨⟨takes_of (by decide +kernel), by decide +kernel⟩, takes_of (by decide +kernel), by decide +kernel⟩

def ranP : State := dev.setF F.TRL_STAT_STATE 3 trlRunning

theorem wit_PoolAndTrellisRowsTakeEffect :
    Takes dev .mgmt .poolAgentLost 0 (2 ^ 18 - 1) ∧ (Takes dev .mgmt .poolCatInval 0 (2 ^ 13) ∧ bit (2 ^ 13) 13 = true) ∧
    (Takes dev .mgmt .poolCatInval 0 7167 ∧ bit 7167 13 = false ∧ bits 7167 12 0 < Config.caskSlots) ∧
    (Takes dev .mgmt .trlCtl 3 1 ∧ (dev.rowWrite .trlCtl 3 1).trlState 3 = trlEmpty ∧ bit 1 1 = false ∧ bit 1 0 = true) ∧
    Takes ranP .mgmt .trlCtl 3 2 ∧ bit 2 1 = true ∧ (ranP.rowWrite .trlCtl 3 2).trlState 3 = trlRunning :=
  ⟨takes_of (by decide +kernel), ⟨takes_of (by decide +kernel), by decide +kernel⟩, ⟨takes_of (by decide +kernel), by decide +kernel⟩,
    ⟨takes_of (by decide +kernel), by decide +kernel⟩, takes_of (by decide +kernel), by decide +kernel⟩

/-- Context 7 of tenant 1, disabled, with rings in HBM. -/
def ctxOff : State :=
  (((((dev.setF F.CTX_TENANT_ENABLE 1 1).setF F.CTX_TENANT_MAX_CONTEXTS 1 4).setF F.TRL_STAT_STATE 0 trlRunning).setF
    F.CTX_SQ_ADDR 7 (Config.hbmBase / 2 ^ 12)).setF F.CTX_CQ_ADDR 7 (Config.hbmBase / 2 ^ 12 + 1)).setF F.CTX_CFG_TENANT 7 1
def ctxWord : Word := wordOf ctxOff .ctxCfg 7 [(F.CTX_CFG_ENABLE, 1)]
def ctxOn : State := (ctxOff.setF F.CTX_CFG_ENABLE 7 1).setF F.CTX_STAT_STATE 7 ctxEnabled

theorem wit_ContextRowsTakeEffect_enable :
    Takes ctxOff .mgmt .ctxCfg 7 ctxWord.toNat ∧ (ctxOff.rowWrite .ctxCfg 7 ctxWord.toNat).on F.CTX_CFG_ENABLE 7 = true ∧
      (ctxOff.reg .ctxCfg 7).testBit 0 = false ∧ (ctxOff.rowWrite .ctxCfg 7 ctxWord.toNat).mayEnable 7 = true :=
  ⟨takes_of (by decide +kernel), by decide +kernel⟩

theorem wit_ContextRowsTakeEffect_disable :
    Takes ctxOn .mgmt .ctxCfg 7 (ctxOff.reg .ctxCfg 7) ∧ (ctxOn.rowWrite .ctxCfg 7 (ctxOff.reg .ctxCfg 7)).on F.CTX_CFG_ENABLE 7 = false ∧
      (ctxOn.reg .ctxCfg 7).testBit 0 = true := ⟨takes_of (by decide +kernel), by decide +kernel⟩

def ctxRoom : State := ctxOn.setF F.CTX_SAVE_SIZE_MIB 7 1
def ctxOut (st : Nat) : State := ctxOn.setF F.CTX_STAT_STATE 7 st

theorem wit_ContextRowsTakeEffect_control :
    (Takes ctxRoom .mgmt .ctxCtl 7 1 ∧ (ctxRoom.rowWrite .ctxCtl 7 1).ctxState 7 = ctxEnabled ∧
      ((ctxRoom.rowWrite .ctxCtl 7 1).ctx 7).closing = false ∧
      (ctxRoom.rowWrite .ctxCtl 7 1).saveLen 7 ≤ (ctxRoom.rowWrite .ctxCtl 7 1).f F.CTX_SAVE_SIZE_MIB 7 * 2 ^ 20) ∧
    (Takes (ctxOut ctxSuspended) .mgmt .ctxCtl 7 2 ∧ ((ctxOut ctxSuspended).rowWrite .ctxCtl 7 2).ctxState 7 = ctxSuspended ∧
      (((ctxOut ctxSuspended).rowWrite .ctxCtl 7 2).ctx 7).reqs.filter (·.saved) = []) ∧
    Takes ctxOn .mgmt .ctxCtl 7 4 ∧
    (Takes (ctxOut ctxFaulted) .mgmt .ctxCtl 7 8 ∧ ((ctxOut ctxFaulted).rowWrite .ctxCtl 7 8).ctxState 7 = ctxFaulted) :=
  ⟨⟨takes_of (by decide +kernel), by decide +kernel⟩, ⟨takes_of (by decide +kernel), by decide +kernel⟩, takes_of (by decide +kernel),
    takes_of (by decide +kernel), by decide +kernel⟩

theorem wit_ContextRowsTakeEffect_doorbell :
    (Takes ctxOn .mgmt .ctxDb 7 (2 ^ 32 + 15) ∧ (ctxOn.rowWrite .ctxDb 7 (2 ^ 32 + 15)).ctxState 7 ≠ ctxDisabled ∧
      (ctxOn.rowWrite .ctxDb 7 (2 ^ 32 + 15)).ctxState 7 ≠ ctxFaulted ∧
      bits (2 ^ 32 + 15) 15 0 < (ctxOn.rowWrite .ctxDb 7 (2 ^ 32 + 15)).sqDepth 7 ∧ bit (2 ^ 32 + 15) 33 = false) ∧
    Takes dev .mgmt .ctxTlbInval 0 (2 ^ 12) ∧ bit (2 ^ 12) 12 = true ∧ bit 4095 12 = false ∧ Takes dev .mgmt .ctxTlbInval 0 4095 :=
  ⟨⟨takes_of (by decide +kernel), by decide +kernel⟩, takes_of (by decide +kernel), by decide +kernel, by decide +kernel,
    takes_of (by decide +kernel)⟩

/-- Node 3 with a peer table, in which node 9 is an admitted peer on port 0. -/
def fabOn : State :=
  let s := (dev.setF F.FAB_NODE_NODE_ID 0 3).setF F.FAB_PEER_TAB_ADDR 0 (Config.hbmBase / 2 ^ F.FAB_PEER_TAB_ADDR.lo)
  let a := s.peerAddr 9
  s.store a (leBytes 2 9 ++ [1#8, BitVec.ofNat 8 peerAdmitted] ++ leBytes 2 1 ++ zeros 58)

theorem fabOn_peer : fabOn.peerOk 9 = true ∧ fabOn.self = 3 := by decide +kernel

def heard9 : State := fabOn.setFab fun x => { x with heard := SMap.put 0 x.heard 9 5 }
def port15 : Word := wordOf fabOn .fabPortCfg 15 [(F.FAB_PORT_CFG_ENABLE, 1)]

theorem wit_FabricRowsTakeEffect_peers :
    Takes fabOn .mgmt .fabPeerCtl 0 (9 + 2 ^ 16) ∧
    (Takes fabOn .mgmt .fabPeerCtl 0 (9 + 2 ^ 17) ∧ (fabOn.rowWrite .fabPeerCtl 0 (9 + 2 ^ 17)).peerValid 9 = true) ∧
    ((heard9.setF F.CLK_TIME_US 0 5).live = true ∧ SMap.get 0 (heard9.setF F.CLK_TIME_US 0 5).fab.heard 9 ≠ 0 ∧
      SMap.get 0 (heard9.setF F.CLK_TIME_US 0 5).fab.heard 9 ≤ (heard9.setF F.CLK_TIME_US 0 5).now ∧
      9 ≠ (heard9.setF F.CLK_TIME_US 0 5).self ∧ (heard9.setF F.CLK_TIME_US 0 5).peerOk 9 = true) :=
  ⟨takes_of (by decide +kernel), ⟨takes_of (by decide +kernel), by decide +kernel⟩, by decide +kernel⟩

theorem wit_FabricRowsTakeEffect_ports :
    (Takes fabOn .mgmt .fabPortCfg 15 port15.toNat ∧ (fabOn.rowWrite .fabPortCfg 15 port15.toNat).on F.FAB_PORT_CFG_ENABLE 15 = true ∧
      (fabOn.reg .fabPortCfg 15).testBit 0 = false) ∧
    Takes fabOn .mgmt .fabQueue 511 0 ∧ Takes fabOn .mgmt .fabShape 31 0 ∧ Takes fabOn .mgmt .fabPolice 31 0 ∧
    bits (fabOn.reg .fabCompCtl 63) 2 0 = 0 ∧ Takes fabOn .mgmt .fabCompCtl 63 1 ∧ Takes fabOn .mgmt .fabCompCtl 63 2 ∧
    Takes fabOn .mgmt .fabCompCtl 63 4 :=
  ⟨⟨takes_of (by decide +kernel), by decide +kernel⟩, takes_of (by decide +kernel), takes_of (by decide +kernel), takes_of (by decide +kernel),
    by decide +kernel, takes_of (by decide +kernel), takes_of (by decide +kernel), takes_of (by decide +kernel)⟩

def nlWord : Word := wordOf dev .nlPortCfg 1 [(F.NL_PORT_CFG_ENABLE, 1)]
def nlOn : State := dev.setF F.NL_PORT_CFG_ENABLE 1 1

theorem wit_NahelPortRowsTakeEffect :
    (Takes dev .mgmt .nlPortCfg 1 nlWord.toNat ∧ (dev.rowWrite .nlPortCfg 1 nlWord.toNat).on F.NL_PORT_CFG_ENABLE 1 = true ∧
      (dev.reg .nlPortCfg 1).testBit 0 = false) ∧
    Takes nlOn .mgmt .nlPortCfg 1 0 ∧ (nlOn.rowWrite .nlPortCfg 1 0).on F.NL_PORT_CFG_ENABLE 1 = false ∧
      (nlOn.reg .nlPortCfg 1).testBit 0 = true :=
  ⟨⟨takes_of (by decide +kernel), by decide +kernel⟩, takes_of (by decide +kernel), by decide +kernel⟩

theorem wit_FaultRowsTakeEffect :
    Takes dev .mgmt .fltKick 0 1 ∧
    (Takes dev .mgmt .fltReset 0 (dev.resetWord 0 (some 71) none) ∧ bits (dev.resetWord 0 (some 71) none % 2 ^ 64) 4 0 ≠ 0) ∧
    (Takes dev .mgmt .fltReset 0 (dev.resetWord 1 none (some 7)) ∧ bits (dev.resetWord 1 none (some 7) % 2 ^ 64) 4 0 ≠ 0) ∧
    (Takes dev .mgmt .fltReset 0 (dev.resetWord 2 none none) ∧ bits (dev.resetWord 2 none none % 2 ^ 64) 4 0 ≠ 0) ∧
    (Takes dev .mgmt .fltReset 0 (dev.resetWord 3 none none) ∧ bits (dev.resetWord 3 none none % 2 ^ 64) 4 0 ≠ 0) ∧
    (Takes dev .mgmt .fltReset 0 (dev.resetWord 4 none none) ∧ bits (dev.resetWord 4 none none % 2 ^ 64) 4 0 ≠ 0) ∧
    dev.live = true ∧ 64 ≤ (71#7).toNat ∧ (71#7).toNat < 72 :=
  ⟨takes_of (by decide +kernel), ⟨takes_of (by decide +kernel), by decide +kernel⟩, ⟨takes_of (by decide +kernel), by decide +kernel⟩,
    ⟨takes_of (by decide +kernel), by decide +kernel⟩, ⟨takes_of (by decide +kernel), by decide +kernel⟩,
    ⟨takes_of (by decide +kernel), by decide +kernel⟩, by decide +kernel⟩

def holding : State := dev.setF F.FLT_ADMIT_HOLD 63 1

theorem wit_CheckpointAndHoldRowsTakeEffect :
    (Takes dev .mgmt .fltCkpt 0 (ckptWord 1 4095 4095) ∧ Takes dev .mgmt .fltCkpt 0 (ckptWord 2 4095 4095) ∧
      Takes dev .mgmt .fltCkpt 0 (ckptWord 3 4095 4095)) ∧
    (Takes dev .mgmt .fltAdmit 63 1 ∧ (dev.reg .fltAdmit 63).testBit 0 = false) ∧
    (Takes holding .mgmt .fltAdmit 63 0 ∧ (holding.reg .fltAdmit 63).testBit 0 = true ∧
      (holding.rowWrite .fltAdmit 63 0).on F.FLT_ADMIT_HOLD 63 = false) :=
  ⟨⟨takes_of (by decide +kernel), takes_of (by decide +kernel), takes_of (by decide +kernel)⟩, ⟨takes_of (by decide +kernel), by decide +kernel⟩,
    takes_of (by decide +kernel), by decide +kernel⟩

theorem wit_TableFuseAndClockRowsTakeEffect :
    dev.live = true ∧ dev.mayAccess .mgmt = true ∧ Takes dev .mgmt .secFuseProg 0 (127 + 2 ^ 7 + 2 ^ 12) ∧
      Takes dev .mgmt .secFuseProg 0 (15 * 2 ^ 8 + 2 ^ 12) ∧ Takes dev .mgmt .clkWake 0 (2 ^ 44 - 1) :=
  ⟨by decide +kernel, by decide +kernel, takes_of (by decide +kernel), takes_of (by decide +kernel), takes_of (by decide +kernel)⟩

/-! Contexts, memory and requests -/

/-- A partition image with one tile of each personality, the personalities numbered from 1. -/
def allPers : Img := ⟨0, 0, (List.range 8).map fun k => ⟨k, k + 1, 0, 0, 0⟩, [], [], [], [⟨0, 4, 0, 0⟩], [], 0, []⟩

/-- A state in which context c reaches the first 64 GiB of HBM at the same addresses. -/
def mapped (s : State) (c : Nat) : State := { s with tlb := s.tlb ++ [⟨c, 1, Config.hbmBase + 12, 36⟩] }

/-- Partition 0 RUNNING with every personality, and context 1 with its HBM. -/
def work : State := mapped ((dev.setF F.TRL_STAT_STATE 0 trlRunning).setPart 0 fun p => { p with img := some allPers }) 1

/-- An address of HBM that context 1 reaches. -/
def buf : Nat := Config.hbmBase + 0x200000

theorem work_reaches : (work.reach 1 buf 64 true).2 = .ok := by decide +kernel

/-- Context 7 ENABLED, with a descriptor waiting in its ring. -/
def ringed : State := (ctxOn.store (ctxOn.fAddr F.CTX_SQ_ADDR 7) (descFor 4 [])).setCtx 7 fun x => { x with sqTail := 1 }

theorem wit_DescriptorIsTaken :
    ringed.live = true ∧ ringed.mayTake 7 = true ∧
      ringed.readCode (ringed.fAddr F.CTX_SQ_ADDR 7 + 128 * ringed.f F.CTX_STAT_SQ_HEAD 7) 128 = .ok ∧
      bit (byteAt (ringed.peek (ringed.fAddr F.CTX_SQ_ADDR 7 + 128 * ringed.f F.CTX_STAT_SQ_HEAD 7) 128) 6) 1 = false ∧
      (ringed.ctx 7).reqs = [] := by decide +kernel

def endedReq : Req := { reqFor 4 [] with work := .finished (Compl.code .ok) }
def ended : State := ctxOn.setCtx 7 fun x => { x with reqs := [endedReq] }

theorem wit_CompletionIsWritten :
    ended.live = true ∧ (ended.ctx 7).reqs = endedReq :: [] ∧ endedReq.work = .finished (Compl.code .ok) ∧
      ended.ctxState 7 ≠ ctxSuspended ∧ (ended.ctx 7).cqUsed < ended.cqDepth 7 := by decide +kernel

theorem wit_MemoryReadsBack :
    inHbm Config.hbmBase [7#8, 9#8].length = true ∧ Memory.wf dev.mem = true ∧ inHbm (Config.hbmBase + 2) 1 = true ∧
      Config.hbmBase + 2 ≤ Config.hbmBase + 2 ∧ inHbm (Config.hbmBase + Config.hbmSize - 1) [7#8].length = true := by decide +kernel

theorem wit_SingleSymbolIsCorrected : (1#64 : BitVec 64) ≠ 0#64 ∧ (0x8000000000000000#64 : BitVec 64) ≠ 0#64 ∧ 3 < 4 := by decide +kernel

theorem wit_SuspendAndSlowdown :
    (ctxOut ctxSuspending).live = true ∧ (ctxOut ctxSuspending).ctxState 7 = ctxSuspending ∧
      (dev.setF F.CLK_TIME_US 0 100000).due (dev.setF F.CLK_TIME_US 0 100000).slowAt (1000 * (dev.setF F.CLK_TIME_US 0 100000).slowPer) =
        true := by decide +kernel

/-- A state at a time, in which context 1 is ENABLED and holds a request. -/
def holds (t : Nat) (r : Req) : State := ready (dev.setF F.CLK_TIME_US 0 t) 1 r
def limited : Req := { reqFor 0x20 [] with desc := putAt (descFor 0x20 []) 8 (leBytes 3 5) }
def waitsSync : Req := { reqFor 0x52 [(16, 3, 5)] with work := .sync 3 (.wait 1) 0 0 }
def waitsBlock : Req := { reqFor 1 [] with work := .blockWait 0 }
def waitsLog : Req := { reqFor 1 [] with work := .logWait 0 }
def oldQuery : Req := { reqFor 0x10 [] with work := .job 0, index := some 5 }

theorem wit_RequestsTimeOut :
    ((holds 5 limited).live = true ∧ (holds 5 limited).req 1 0 = some limited ∧ limited.limit = some 5 ∧ 5 ≤ (holds 5 limited).now ∧
      (holds 5 limited).keeps limited = false) ∧
    ((holds 5 waitsSync).req 1 0 = some waitsSync ∧ waitsSync.work = .sync 3 (.wait 1) 0 0 ∧ opN waitsSync.desc 16 3 ≠ 0 ∧
      (holds 5 waitsSync).due 0 (opN waitsSync.desc 16 3) = true) ∧
    ((holds 100000 waitsBlock).req 1 0 = some waitsBlock ∧ waitsBlock.work = .blockWait 0 ∧ (holds 100000 waitsBlock).due 0 100000 = true) ∧
    ((holds 100000 waitsLog).req 1 0 = some waitsLog ∧ waitsLog.work = .logWait 0 ∧ (holds 100000 waitsLog).due 0 100000 = true) ∧
    (((holds 0 oldQuery).setIdx 5 fun x => { x with openV := Config.vintageGap }).req 1 0 = some oldQuery ∧ oldQuery.index = some 5 ∧
      oldQuery.work.isStamped = false ∧ oldQuery.work.ended = false ∧
      oldQuery.vintage + Config.vintageGap ≤ (((holds 0 oldQuery).setIdx 5 fun x => { x with openV := Config.vintageGap }).idx 5).openV) := by
  decide +kernel

/-! Indexes -/

/-- Index 5 enabled in partition 0, with vintage 1 published, and its pins. -/
def ixWork (pins : List Pin) : State := (work.setFs 5 [(F.VINT_IDX_CFG_ENABLE, 1), (F.VINT_IDX_CFG_LIST_COUNT, 1), (F.VINT_CUR_VINTAGE, 1)]).setIdx 5
  fun x => { x with openV := 2, everPub := 1, pins := pins }
def pinReq : Req := reqFor 4 [(2, 2, 5)]
def unpinReq : Req := reqFor 5 [(2, 2, 5), (4, 2, 7)]
def pin7 : Pin := ⟨7, 1, 1, false, none⟩

theorem wit_PinsAreHeldAndReleased_pin :
    Runs (ready (ixWork [pin7]) 1 pinReq) 1 0 4 pinReq ∧
      (let s := (ready (ixWork [pin7]) 1 pinReq).begin 1 0 pinReq
       let r := (ready (ixWork [pin7]) 1 pinReq).accept 1 pinReq
       opZero r.desc 1 1 = true ∧ opN r.desc 2 2 = 5 ∧ opZero r.desc 4 4 = true ∧ opZero r.desc 16 80 = true ∧ s.idxCheck 1 5 = none ∧
         s.pinVintage 5 (opN r.desc 8 8) = some 1 ∧ (s.idx 5).pins.length < 16 ∧ s.idxComp 5 = none) :=
  ⟨runs_of (by decide +kernel), by decide +kernel⟩

theorem wit_PinsAreHeldAndReleased_unpin :
    Runs (ready (ixWork [pin7]) 1 unpinReq) 1 0 5 unpinReq ∧
      (let s := (ready (ixWork [pin7]) 1 unpinReq).begin 1 0 unpinReq
       let r := (ready (ixWork [pin7]) 1 unpinReq).accept 1 unpinReq
       opZero r.desc 1 1 = true ∧ opN r.desc 2 2 = 5 ∧ opZero r.desc 6 90 = true ∧ s.idxCheck 1 5 = none ∧
         ((s.idx 5).pins.any fun p => p.handle == opN r.desc 4 2 && !p.ckpt && p.home.isNone && s.tenant p.ctx == s.tenant 1) = true ∧
         s.on F.VINT_IDX_CFG_SCOPE 5 = false) :=
  ⟨runs_of (by decide +kernel), by decide +kernel⟩

def farPin : State := (ixWork [pin7]).setIdx 5 fun x => { x with openV := Config.vintageGap + 1 }

theorem wit_PinsAreHeldAndReleased_revoke :
    farPin.live = true ∧
      (farPin.idx 5).pins.any (fun p => p.handle == 7 && decide (p.vintage + Config.vintageGap ≤ (farPin.idx 5).openV)) = true := by decide +kernel

def closing (k : CloseRun) : State := ((ixWork []).setF F.CLK_TIME_US 0 100).setIdx 5 fun x => { x with close := some k }
def timed : State := ((ixWork []).setF F.CLK_TIME_US 0 50).setF F.VINT_TRIG_INTERVAL_US 5 50
def marked : State := ((ixWork []).setIdx 5 fun x => { x with markers := [(2, 0, 1)] }).setCel fun x => { x with logNum := 1 }

theorem wit_VintagesCloseAndPublish :
    (timed.live = true ∧ timed.idxOn 5 = true ∧ timed.idxLost 5 = false ∧ timed.f F.VINT_TRIG_INTERVAL_US 5 ≠ 0 ∧
      timed.due (timed.idx 5).timer (max 50 (timed.f F.VINT_TRIG_INTERVAL_US 5)) = true ∧ timed.idxRank 5 = 0 ∧
      (timed.idx 5).awaiting = false) ∧
    ((closing ⟨0, false, 0, false, 0⟩).live = true ∧ (closing ⟨0, false, 0, false, 0⟩).idxOn 5 = true ∧
      (closing ⟨0, false, 0, false, 0⟩).idxLost 5 = false ∧ ((closing ⟨0, false, 0, false, 0⟩).idx 5).close = some ⟨0, false, 0, false, 0⟩) ∧
    (((closing ⟨2, true, 0, false, 0⟩).idx 5).close = some ⟨2, true, 0, false, 0⟩ ∧ (closing ⟨2, true, 0, false, 0⟩).idxRank 5 = 0 ∧
      (closing ⟨2, true, 0, false, 0⟩).idxComp 5 = none ∧ 2 ≤ (closing ⟨2, true, 0, false, 0⟩).durable 5 + 1024 ∧
      (closing ⟨2, true, 0, false, 0⟩).allPrepared 5 2 = true) ∧
    (marked.idxOn 5 = true ∧ (marked.idx 5).markers = (2, 0, 1) :: [] ∧ (List.range (0 + 1)).all marked.logDurable = true) := by
  decide +kernel

/-! The blocks of a list -/

/-- A register field that holds an address. -/
def setAddr (s : State) (x : Fld) (i a : Nat) : State := s.setF x i (a / 2 ^ x.lo)

/-- An address of HBM for a test's tables. -/
def hb (k : Nat) : Nat := Config.hbmBase + k

/-- The log namespace, number 64: 4096 slots. -/
def logged (s : State) : State :=
  (((setAddr s F.CELLAR_NS_DESC_ADDR 0 (hb 0x10000)).setReg .cellarNsEn 1 1).store (hb (0x10000 + 64 * 64)) (leBytes 8 4096 ++ leBytes 1 nsLog))

def item9 : Nat := 9
def item10 : Nat := 10
def codeOf (v : Nat) : Bytes := leBytes 16 v

/-- Index 5 at vintage 2^21 with one list: chain 0 on press unit 3 in blocks 10 and 11, chain 1 a spill chain on unit 4 in block 20. -/
def listed : State :=
  let s := (ixWork []).setFs 5 [(F.VINT_CUR_VINTAGE, 2 ^ 21), (F.VINT_IDX_CFG_CODE_FMT, 8), (F.VINT_IDX_LOC_LOG2_SLOTS, 10)]
  let s := (s.setFs 0 [(F.VINT_RACK_CFG_REBASE_LOG2, 20), (F.VINT_SPILL_CFG_SPILL_USED, 1)]).setIdx 5 fun x => { x with openV := 2 ^ 21 + 1 }
  let s := setAddr (setAddr (setAddr s F.VINT_IDX_LISTS_ADDR 5 (hb 0)) F.VINT_IDX_LOC_ADDR 5 (hb 0x4000)) F.VINT_FREE_MAP_ADDR 0 (hb 0x100000)
  let s := s.store (hb 0) (leBytes 4 0 ++ leBytes 1 2 ++ zeros 3 ++ leBytes 8 (Chain.word ⟨3, 10, 2, false⟩) ++ leBytes 8 (Chain.word ⟨4, 20, 1, true⟩))
  let s := s.blkWrite 3 10 0 (Hdr.bytes ⟨1, 0, 5, 0, 0, 11, 2, 2, false, false⟩ ++ Entry.bytes ⟨codeOf 1, 7, 0, 0, 1⟩ 0 ++
    Entry.bytes ⟨codeOf 2, 8, 0, 0, 2⟩ 0)
  let s := s.blkWrite 3 11 0 (Hdr.bytes ⟨1, 0, 5, 0, 2 ^ 21, Config.noBlock, 1, 0, false, true⟩ ++ Entry.bytes ⟨codeOf 3, item9, 5, 0, noDeath⟩ 0)
  let s := s.blkWrite 4 20 0 (Hdr.bytes ⟨1, 0, 5, 0, 2 ^ 21, Config.noBlock, 1, 0, true, true⟩ ++ Entry.bytes ⟨codeOf 4, item10, 6, 0, noDeath⟩ 0)
  let s := (s.setFree 3 12 true).setFree 4 21 true
  let s := (s.locPut 5 (locHome item9 10) ⟨item9, 3, 0, 11⟩).locPut 5 (locHome item10 10) ⟨item10, 4, 0, 20⟩
  logged (s.locPut 5 (locHome 12 10) ⟨Config.noItem, 0, 0, 0⟩)

def insReq : Req := reqFor 1 [(2, 2, 5), (8, 8, item9), (16, 8, 77), (32, 8, 0x1234)]
def delReq : Req := reqFor 2 [(1, 1, 1), (2, 2, 5), (8, 8, 12)]
def batReq : Req := reqFor 3 [(2, 2, 5), (8, 8, buf), (16, 8, 1)]
/-- A batch of one insert. -/
def batched : State := listed.store buf (leBytes 1 1 ++ leBytes 1 0 ++ leBytes 2 5 ++ leBytes 4 0 ++ leBytes 8 item9)

/-- The conditions of UpdatesAreStamped. -/
def stampsB (s : State) (op : Nat) (r : Req) : Bool :=
  let s₀ := ready s 1 r
  let s := s₀.begin 1 0 r
  let r' := s₀.accept 1 r
  runsB s₀ 1 0 op r &&
  let r := r'
  let i := opN r.desc 2 2
  let p := s.f F.VINT_IDX_CFG_PARTITION i
  decide (i < 4096) && decide (byteAt r.desc 33 < 2) && opZero r.desc 24 8 && (s.updCheck 1 i op).isNone &&
    s.hasPers p persUpdate && !s.fencedFor p [persUpdate] &&
    (match s.updates 1 i r.desc with
    | (s1, .ok us) => us != [] && (match s1.stage i us with
      | .ok (s2, k, v) => decide (((s2.setReq 1 0 fun x =>
          { x with work := .stamped v (bit (byteAt r.desc 33) 0) k, index := some i, vintage := v }).completeUpdates i).pool.needs = [])
      | .error _ => false)
    | (_, .error _) => false)

theorem wit_UpdatesAreStamped_insert : stampsB listed 1 insReq = true := by decide +kernel
theorem wit_UpdatesAreStamped_delete : stampsB listed 2 delReq = true := by decide +kernel
theorem wit_UpdatesAreStamped_batch : stampsB batched 3 batReq = true := by decide +kernel

def home10 : Place := ⟨0, 0, ⟨3, 10, 2, false⟩, none, [10, 11]⟩
def spill20 : Place := ⟨0, 1, ⟨4, 20, 1, true⟩, none, [20]⟩

theorem wit_BlocksAreKept_racking :
    listed.live = true ∧ listed.placeIn 5 0 0 10 = some home10 ∧ listed.mayRack 5 home10 10 = true ∧ (listed.rackBlock 5 home10 10).isSome = true := by
  decide +kernel

theorem wit_BlocksAreKept_rebase :
    listed.mayRebase 5 home10 10 = true ∧ (listed.rackAt 5 home10 [10] (listed.horizon 5) (listed.horizon 5) false).isSome = true := by
  decide +kernel

theorem wit_BlocksAreKept_move :
    listed.placeIn 5 0 1 20 = some spill20 ∧ (listed.chains 5 0).toOption = some [⟨3, 10, 2, false⟩, ⟨4, 20, 1, true⟩] ∧
      listed.mayMove 5 spill20 20 0 = true ∧
      (listed.moveEntry 5 spill20 [⟨3, 10, 2, false⟩, ⟨4, 20, 1, true⟩] 20 0).isOk = true := by decide +kernel

/-- Codeword 3 of block 11, of its one entry, is poison. -/
def hurt : State := listed.blkPoison 3 11 3
def home11 : Place := ⟨0, 0, ⟨3, 10, 2, false⟩, some 10, [11]⟩

theorem wit_BlocksAreKept_repair :
    hurt.placeIn 5 0 0 11 = some home11 ∧ hurt.mayRepair 5 home11 11 = true ∧ (hurt.repairBlock 5 home11 11).isSome = true := by decide +kernel

theorem wit_BlocksAreKept_free :
    (let s := listed.toFreeBlock 4 20
     (s.toFree.any fun x => x.unit == 4 && x.block == 20 && (x.passes.all fun y => !(s.pu y.1).passes.contains y.2) &&
        x.jobs.all fun id => (s.job id).isNone) = true ∧
       (s.hdr 4 20).spill = true) := by decide +kernel

def buffered (n since : Nat) : State :=
  (listed.setF F.CLK_TIME_US 0 since).setCel fun x => { x with logBuf := (List.range n).map fun k => ⟨k, 0, []⟩, logNum := n }

/-- The buffered log is due to be flushed, by its oldest record. -/
def flushDue (s : State) : Bool :=
  s.due ((s.cellar.logBuf.head?.map (·.since)).getD 0) (s.f F.CELLAR_CFG_LOG_FLUSH_US 0)

theorem wit_BlocksAreKept_flush :
    (buffered 1 1000).cellar.logBuf ≠ [] ∧ flushDue (buffered 1 1000) = true ∧ flushDue (buffered 128 0) = false ∧
      128 ≤ (buffered 128 0).cellar.logBuf.length := by decide +kernel

/-! Searches -/

/-- Index 5 with a dimension of 16, codes of format 8 and lists. -/
def searched : State := (listed.setFs 5 [(F.VINT_IDX_QCFG_DIM, 16), (F.VINT_IDX_QCFG_GRAPH_DEG, 3)])
/-- One query of two candidates. -/
def searchReq (op fl : Nat) (bm : Nat) : Req :=
  reqFor op [(1, 1, fl), (2, 2, 5), (4, 2, 1), (8, 4, 2), (12, 2, 1), (14, 2, 1), (32, 8, buf), (40, 8, buf + 4096), (72, 8, bm)]

/-- The conditions of SearchesBegin, and which of its cases holds: the search begins at once, waits for its group, or ends the wait. -/
def beginsB (s : State) (op : Nat) (r : Req) : Bool × Bool × Bool × Bool :=
  let s₀ := ready s 1 r
  let s := s₀.begin 1 0 r
  let d := (s₀.accept 1 r).desc
  let x := opN d 2 2 % 4096
  let t := (s.searchChecks 1 d).1
  let p := t.f F.VINT_IDX_CFG_PARTITION x
  let v := (t.pinVintage x (opN d 24 8)).getD 0
  let e := t.idxEpoch x
  let r' : Req := { s₀.accept 1 r with index := some x, vintage := v, comp := e.1, epoch := e.2 }
  let u := t.setReq 1 0 fun y => { y with index := some x, vintage := v, comp := e.1, epoch := e.2 }
  let wait := t.f F.TILE_DISPATCH_GROUP_WAIT_NS p
  let held := u.setWork 1 0 (.grouped (u.now + ceilDiv wait 1000))
  let free := srGraph d || srBitmap d || decide (wait = 0)
  (runsB s₀ 1 0 op r && decide (r.work = .fresh) && !(s.searchChecks 1 d).2.bad && (t.pinVintage x (opN d 24 8)).isSome && opN d 4 2 != 0 &&
    t.searchPers p d && (!srDelete d || t.hasPers p persUpdate) && !t.fencedFor p [persRoute, persDispatch, persMerge] && (t.idxComp x).isNone,
   free, !free && decide (held.grouped r' < held.passSlots x), !free && decide (held.passSlots x ≤ held.grouped r'))

/-- A search that waits for its group. -/
def waiting : State := searched.setF F.TILE_DISPATCH_GROUP_WAIT_NS 0 5000
/-- A search whose queries fill the slots of a pass. -/
def fullReq : Req := reqFor 0x10 [(2, 2, 5), (4, 2, 64), (8, 4, 2), (12, 2, 1), (14, 2, 1), (32, 8, buf), (40, 8, buf + 4096)]

theorem wit_SearchesBegin_at_once :
    beginsB searched 0x10 (searchReq 0x10 0 0) = (true, true, false, false) ∧
      beginsB searched 0x11 (searchReq 0x11 0 0) = (true, true, false, false) ∧
      beginsB searched 0x12 (searchReq 0x12 1 (buf + 8192)) = (true, true, false, false) := by decide +kernel

theorem wit_SearchesBegin_grouped :
    beginsB waiting 0x10 (searchReq 0x10 0 0) = (true, false, true, false) ∧ beginsB waiting 0x10 fullReq = (true, false, false, true) := by
  decide +kernel

def groupReq : Req := { searchReq 0x10 0 0 with work := .grouped 5, index := some 5, vintage := 2 ^ 21 }
def groupedAt (t : Nat) : State := ready (waiting.setF F.CLK_TIME_US 0 t) 1 groupReq

theorem wit_SearchesBegin_timeout :
    (groupedAt 5).live = true ∧ (groupedAt 5).req 1 0 = some groupReq ∧ groupReq.work = .grouped 5 ∧ groupReq.index = some 5 ∧
      (groupedAt 5).ctxState 1 = ctxEnabled ∧ 5 ≤ (groupedAt 5).now ∧ (groupedAt 4).grouped groupReq < (groupedAt 4).passSlots 5 ∧
      (groupedAt 4).now < 5 := by decide +kernel

/-! Compositions -/

/-- Node 3 with a peer table in which node 9 is an admitted peer, over a state. -/
def onFabric (s : State) : State :=
  let s := setAddr (s.setF F.FAB_NODE_NODE_ID 0 3) F.FAB_PEER_TAB_ADDR 0 (hb 0x400000)
  s.store (s.peerAddr 9) (leBytes 2 9 ++ [1#8, BitVec.ofNat 8 peerAdmitted] ++ leBytes 2 1 ++ zeros 58)

/-- A map of composition 0x77 at epoch 4: this node is rank 0, node 9 is rank 1. -/
def map77 : CompMap := ⟨0x77, 4, 0, 0, [3, 9], []⟩

/-- Context 1 bound to composition slot 2. -/
def comped : State :=
  ((onFabric work).setFs 1 [(F.FAB_CTX_COMP_VALID, 1), (F.FAB_CTX_COMP_SLOT, 2)]).setComp 2 fun x => { x with map := some map77 }

theorem comped_is_bound : comped.ctxComp 1 = some (2, map77) ∧ comped.self = 3 ∧ comped.peerOk 9 = true := by decide +kernel

/-! Selections and attention -/

def selReq (fl : Nat) : Req := reqFor 0x14 [(1, 1, fl), (4, 4, 1), (8, 8, 2), (16, 8, buf), (32, 8, buf + 4096)]

/-- The conditions of SelectionAndAttention on a SELECT, here and over the composition. -/
def selectsB (s : State) (r : Req) : Bool :=
  let s₀ := ready s 1 r
  let s := s₀.begin 1 0 r
  let d := r.desc
  let a := s.reach 1 (opN d 16 8) (2 * (fmtBits (opN d 2 1 % 3) / 8)) false
  let b := (a.1, Code.ok)
  let e := b.1.reach 1 (opN d 32 8) (64 + 16 * (opN d 4 4 % 2 ^ 21)) true
  let t := e.1
  runsB s₀ 1 0 0x14 r && selectOk d && opN d 8 8 == 2 && !bit (opN d 1 1) 2 && decide (a.2 = .ok ∧ e.2 = .ok) && (t.selStage 0 1).isSome &&
    !t.fencedFor 0 [persMerge] &&
    (if bit (opN d 1 1) 3 then decide (t.ctxComp 1 = some (2, map77)) && !(t.comp 2).removing &&
      (match t.distSelect (.ctx 1 0) 0 0 2 map77 d true map77.selectAsks [0, 1] with
       | (u, .ok id) => ((u.setReq 1 0 fun r => { r with work := .job id, comp := some 2, epoch := 4 }).runJob 64 id).pool.needs == []
       | _ => false)
    else (t.selectHere (.ctx 1 0) 0 0 d 0).2.isOk)

theorem wit_SelectionAndAttention_select : selectsB work (selReq 0) = true ∧ selectsB comped (selReq 8) = true := by decide +kernel

/-- An attention command over one sequence of one token and no pages, with one head group. -/
def attReq (op : Nat) : Req :=
  reqFor op ([(2, 1, 3), (4, 2, 16), (6, 2, 1), (8, 1, 1), (12, 2, 1), (24, 8, buf), (32, 8, buf + 0x1000)] ++
    if op = 0x18 then [(40, 8, buf + 0x2000)] else [(48, 8, buf + 0x3000), (56, 8, buf + 0x4000), (64, 8, buf + 0x5000)])
def attended1 : State := work.store buf (zeros 28 ++ [1#8] ++ zeros 3)

/-- The conditions of SelectionAndAttention on an attention command, and whether the work on its groups succeeds. -/
def attendsB (s : State) (op : Nat) : Bool × Bool :=
  let r := attReq op
  let s₀ := ready s 1 r
  let s := s₀.begin 1 0 r
  let r' := s₀.accept 1 r
  let a := attOf r'.desc (r'.snap.headD 0)
  let nseq := opN a.d 12 2
  let g := s.ctxLoad 1 (opN a.d 24 8) (32 * nseq)
  let seqs := seqsOf g.2.1 nseq
  let total := (seqs.map (·.count)).sum
  let x := g.1.reach 1 (opN a.d 32 8) (total * a.heads * a.qs) false
  let y := if a.bwd then x.1.reach 1 (opN a.d 48 8) (nseq * a.hkv * a.ls) false else x.1.reach 1 (opN a.d 40 8) (total * a.heads * a.rs) true
  let t := y.1
  (runsB s₀ 1 0 op r && !g.2.2.bad && a.ok && ((List.range nseq).all fun k => seqOk (slice g.2.1 (32 * k) 32)) && !(x.2.worst y.2).bad &&
    (!a.bwd || t.listsOk 1 a seqs) && t.attPers 0 a && !t.fencedFor 0 [persRoute, persDispatch, if a.bwd then persVector else persMerge],
   match t.attendGroups 1 0 total a seqs with
   | (u, .ok l) => ((u.ctxStores 1 l).1.finish 1 0 (Compl.of (u.ctxStores 1 l).2 (if a.bwd then 0 else total * a.heads) 0)).pool.needs == []
   | (_, .error _) => false)

/-- The query row is poison. -/
def attendedHurt : State := attended1.poisonAt (buf + 0x1000) 64

theorem wit_SelectionAndAttention_attend :
    attendsB attended1 0x18 = (true, true) ∧ attendsB attended1 0x19 = (true, true) ∧ attendsB attendedHurt 0x18 = (true, false) := by
  decide +kernel

/-! Embedding tables -/

/-- The descriptor of table 3: 16 rows of 4 fp32 elements in HBM, of which each node of a sharded table holds 8. -/
def tabDesc (flags : Nat) : Bytes :=
  leBytes 8 16 ++ leBytes 2 4 ++ [0#8, BitVec.ofNat 8 flags] ++ zeros 4 ++ leBytes 8 (hb 0x800000) ++ leBytes 8 0 ++
    leBytes 8 (if flags = 0 then 16 else 8) ++ leBytes 8 (if flags = 0 then 16 else 8) ++ zeros 16

/-- Table 3 enabled in a state; the batch at buf names rows 1 and 9. -/
def tabled (flags : Nat) (s : State) : State :=
  let s := (setAddr s F.TILE_EMB_DESC_ADDR 0 (hb 0x500000)).setReg .tileEmbEn 0 8
  (s.store (s.tabAddr 3) (tabDesc flags)).store buf (leBytes 8 1 ++ leBytes 8 9)

def gatherReq : Req := reqFor 0x20 [(2, 2, 3), (8, 4, 2), (16, 8, buf), (40, 8, buf + 0x1000), (48, 8, buf + 0x2000)]
def scatterReq (fl : Nat) : Req :=
  reqFor 0x21 ([(1, 1, fl), (2, 2, 3), (8, 4, 2), (16, 8, buf), (40, 8, buf + 0x1000), (48, 8, buf + 0x2000)] ++
    if fl = 0 then [] else [(56, 8, buf + 0x3000)])

/-- The conditions of EmbeddingCommandsRun on a GATHER, and whether it asks an owner. -/
def gathersB (s : State) : Bool × Bool :=
  let r := gatherReq
  let s₀ := ready s 1 r
  let s := s₀.begin 1 0 r
  let r' := s₀.accept 1 r
  let x := embOf r'.desc
  match s.embChecks 1 r' x x.gatherOk (fun b => !x.third || b.shadow) false
      [(opN x.d 40 8, x.outs * x.os (r'.tab x.t), true), (opN x.d 48 8, 64, true)] with
  | (t, .ok (b, cm, g)) =>
    let u := t.issueGather 1 x b
    let asks := u.gatherAsks 1 r' x b (cm.map (·.2)) g
    (runsB s₀ 1 0 0x20 r && !u.anyDown cm (asks.map (·.1)) &&
      (match asks, cm with
       | [], _ => (u.finishGather 1 0 r' x b (cm.map (·.2)) g).pool.needs == []
       | _, some (n, m) => (u.askRows 1 0 r'.desc x.third n m asks).pool.needs == []
       | _, none => false), asks != [] && cm.isSome)
  | _ => (false, false)

def scattersB (s : State) (fl : Nat) : Bool × Bool :=
  let r := scatterReq fl
  let s₀ := ready s 1 r
  let s := s₀.begin 1 0 r
  let r' := s₀.accept 1 r
  let x := embOf r'.desc
  match s.embChecks 1 r' x x.scatterOk (fun b => x.third || !b.shadow) (!x.third) [(opN x.d 48 8, 64, true)] with
  | (t, .ok (b, cm, g)) => match t.gradsOf 1 x b g with
    | (u, .ok grads) =>
      let asks := remoteRows b (cm.map (·.2)) ((rowSums x b g grads).map (·.1))
      let sums := rowSums x b g grads
      (runsB s₀ 1 0 0x21 r && decide (x.third = (fl == 4)) && !u.anyDown cm (asks.map (·.1)) &&
        (if fl = 0 then (u.applyGrads 1 0 r' x b cm asks sums).pool.needs == []
         else match asks, cm with
          | [], _ => (u.emitGrads 1 0 r' x b (cm.map (·.2)) sums).pool.needs == []
          | _, some (n, m) => (u.askRows 1 0 r'.desc false n m asks).pool.needs == []
          | _, none => false), asks != [] && cm.isSome)
    | _ => (false, false)
  | _ => (false, false)

theorem wit_EmbeddingCommandsRun_gather :
    gathersB (tabled 0 work) = (true, false) ∧ gathersB (tabled 2 comped) = (true, true) := by decide +kernel

theorem wit_EmbeddingCommandsRun_scatter :
    scattersB (tabled 0 work) 0 = (true, false) ∧ scattersB (tabled 0 work) 4 = (true, false) ∧ scattersB (tabled 2 comped) 4 = (true, true) := by
  decide +kernel

def rowReq : Req := reqFor 0x22 [(2, 2, 3), (8, 4, 1), (16, 8, buf + 0x1000), (48, 8, buf + 0x2000)]
def pubReq : Req := reqFor 0x23 [(2, 2, 3), (48, 8, buf + 0x2000)]

/-- The conditions of EmbeddingCommandsRun on a ROW_WRITE, and whether it waits. -/
def rowWritesB (s : State) : Bool × Bool :=
  let r := rowReq
  let s₀ := ready s 1 r
  let s := s₀.begin 1 0 r
  let r' := s₀.accept 1 r
  let d := r'.desc
  match s.tabArg 1 r' (opN d 2 2) (rowWriteOk d) with
  | .ok (b, cm) =>
    let y := s.reach 1 (opN d 48 8) 64 true
    let z := y.1.ctxLoad 1 (opN d 16 8) (opN d 8 4 * b.rs)
    let rows := (pieces b.rs z.2.1).map fun x => (leAt x 0 8, x)
    (runsB s₀ 1 0 0x22 r && decide (y.2 = .ok ∧ z.2.2 = .ok ∧ z.1.tilesCode b.part = .ok) && b.recsOk (cm.map (·.2)) rows &&
      decide (z.1.coldCodes b true (rows.map (·.1)) = .ok), z.1.writeWaits r' b)
  | _ => (false, false)

/-- A shadowed table of which a pinned GATHER reads version 0: its version is 1 by now. -/
def pinnedTab : State :=
  ((tabled 1 work).setF F.TILE_EMB_VER_VERSION 3 1).setCtx 2 fun x =>
    { x with reqs := [{ reqFor 0x20 [(1, 1, 4), (2, 2, 3)] with begun := true, pinned := some (3, 0) }] }

theorem wit_EmbeddingCommandsRun_rowWrite :
    rowWritesB (tabled 0 work) = (true, false) ∧ rowWritesB pinnedTab = (true, true) := by decide +kernel

theorem wit_EmbeddingCommandsRun_publish :
    Runs (ready (tabled 0 work) 1 pubReq) 1 0 0x23 pubReq ∧
      (let s := (ready (tabled 0 work) 1 pubReq).begin 1 0 pubReq
       let r := (ready (tabled 0 work) 1 pubReq).accept 1 pubReq
       (s.tabArg 1 r (opN r.desc 2 2) (publishOk r.desc)).isOk = true ∧ (s.reach 1 (opN r.desc 48 8) 64 true).2 = .ok ∧
         (s.reach 1 (opN r.desc 48 8) 64 true).1.tilesCode 0 = .ok ∧ (s.reach 1 (opN r.desc 48 8) 64 true).1.tabOn 3 = true) :=
  ⟨runs_of (by decide +kernel), by decide +kernel⟩

/-! The cellar -/

/-- Namespace 1 of 4096 slots for data, of tenant 0. -/
def spaced : State :=
  ((setAddr work F.CELLAR_NS_DESC_ADDR 0 (hb 0x10000)).setReg .cellarNsEn 0 2).store (hb (0x10000 + 64)) (leBytes 8 4096)
/-- Slots 7 and 8 of namespace 1 are in flash and lost. -/
def mappedSlots : State := spaced.setCel fun x => { x with map := SMap.put 0 (SMap.put 0 x.map (mapKey 1 7) 5) (mapKey 1 8) entryLost }

def celReq (op : Nat) : Req :=
  reqFor op ([(2, 2, 1), (8, 8, 4096), (16, 8, 4096)] ++ if op = 0x32 then [] else [(24, 8, buf)])

def celB (s : State) (op : Nat) : Bool :=
  let r := celReq op
  let s₀ := ready s 1 r
  let s := s₀.begin 1 0 r
  let r' := s₀.accept 1 r
  let x := celOf r'.desc
  runsB s₀ 1 0 op r && (s.celCheck 1 r' x op).isNone &&
    (if op = 0x30 then
       let y := (s.ctxMap 1 x.addr x.len true).1.readPieces 1 0 x none
       (s.ctxMap 1 x.addr x.len true).2.isOk && x.dead == 0 &&
         (if y.2.1 = 0 then y.1.finishCode 1 0 y.2.2 else y.1.setWork 1 0 (.reading y.2.1 y.2.2)).pool.needs == []
     else if op = 0x31 then
       let y := s.ctxLoad 1 x.addr x.len
       !y.2.2.bad && x.len != 0 && !y.1.writeRefused r'.nsDesc.kind && (y.1.writeSlots 1 0 x y.2.1).pool.needs == []
     else x.len / 4096 != 0 && (s.discardSlots 1 0 x).pool.needs == [])

theorem wit_CellarCommandsRun_commands : celB spaced 0x30 = true ∧ celB spaced 0x31 = true ∧ celB spaced 0x32 = true := by decide +kernel

theorem wit_CellarCommandsRun_slots :
    SMap.find mappedSlots.cellar.buffer (mapKey 1 6) = none ∧ entryState (mappedSlots.mapEntry (mapKey 1 6)) = 0 ∧
      SMap.find mappedSlots.cellar.buffer (mapKey 1 8) = none ∧ 2 ≤ entryState (mappedSlots.mapEntry (mapKey 1 8)) ∧
      (mappedSlots.nsOn (mapKey 1 7 / 2 ^ 40) && (mappedSlots.nsDesc (mapKey 1 7 / 2 ^ 40)).resident) = false := by decide +kernel

def oneGeom : Geom := ⟨1, 1, 1, 16, 8⟩
def oneReport : TargetReport := ⟨true, true, true, 16384, 2176, 1, 1, 16, 8, [(0, 0, 3)]⟩

/-- Channel 47 READY with one target of one LUN; a started cellar. -/
def flashOn (s : State) : State :=
  (s.setF F.CELLAR_CH_STAT_STATE 47 chReady).setCel fun x => { x with geom := some oneGeom, chans := [(47, oneGeom)], started := true }

/-- The LUN of channel 47 does o. -/
def lunDoes (o : LunOp) (s : State) : State := (flashOn s).setLun (lunKey 47 0 0) fun l => { l with op := o, erases := [5] }
def aProg : ProgOp := ⟨0, 3, 47, 0, 0, 0, 2, 1, []⟩
/-- A read of the frame of place 1, of no command, that waits until clock 9. -/
def aRead : ReadReq := ⟨4, 1, 7, 0, 64, 5, some 9, .reloc⟩
def reading4 : State := (lunDoes (.read 4) spaced).setCel fun x => { x with reads := [aRead] }

theorem wit_LunsServeTheirQueues_dispatch :
    (lunDoes .idle work).live = true ∧ ((lunDoes .idle work).chIsReady 47 && ((lunDoes .idle work).lunsOf 47).contains (0, 0)) = true ∧
      ((lunDoes .idle work).lunSt (lunKey 47 0 0)).op = .idle ∧ (lunDoes .idle work).depth (40 + groupOfCh 47) = 0 ∧
      ((lunDoes .idle work).setF F.CLK_DOM_STATE 43 2).depth (40 + groupOfCh 47) ≠ 0 ∧
      ((lunDoes .idle work).setF F.CLK_DOM_STATE 43 2).lunWaits (lunKey 47 0 0) = true := by decide +kernel

theorem wit_LunsServeTheirQueues_read :
    reading4.live = true ∧ (reading4.lunSt (lunKey 47 0 0)).op = .read 4 ∧ (reading4.cellar.reads.find? fun r => r.id == 4) = some aRead ∧
      reading4.stageMay (entryPlace aRead.entry) .hard = true ∧ (reading4.frameRead (lunKey 47 0 0) aRead .hard).pool.needs = [] ∧
      aRead.deadline = some 9 ∧ reading4.now < 9 ∧ (reading4.setF F.CLK_TIME_US 0 9).now = 9 ∧
      ((reading4.setF F.CLK_TIME_US 0 9).abandonRead aRead).pool.needs = [] := by decide +kernel

theorem wit_LunsServeTheirQueues_others :
    ((lunDoes (.read 4) work).lunSt (lunKey 47 0 0)).op = .read 4 ∧ ((lunDoes (.read 4) work).cellar.reads.find? fun r => r.id == 4) = none ∧
      ((lunDoes (.program aProg) work).lunSt (lunKey 47 0 0)).op = .program aProg ∧
      ((lunDoes (.erase 5) work).lunSt (lunKey 47 0 0)).op = .erase 5 ∧ [aRead].any (·.deadline.isSome) = true := by decide +kernel

def training47 (ok : Bool) : State :=
  (dev.setF F.CELLAR_CH_STAT_STATE 47 chTraining).setCel fun x => { x with chTargets := [(47, if ok then 1 else 2)] }

theorem wit_CellarKeepsItsFlash_channels :
    ((training47 true).live = true ∧ (training47 true).chState 47 = chTraining ∧ ((training47 true).acceptTargets 1 [oneReport]).1 = true ∧
      SMap.get 0 (training47 true).cellar.chTargets 47 = 1) ∧
    ((training47 false).acceptTargets (SMap.get 0 (training47 false).cellar.chTargets 47) [oneReport]).1 = false ∧
    (flashOn dev).chState 47 = chReady ∧ (dev.setCel fun x => { x with starting := some 100 }).cellar.starting = some 100 := by decide +kernel

/-- Two superblocks, verified and idle, on blocks of different wear. -/
def twoSupers : State :=
  (((flashOn dev).setBlock (memberKey 47 0 0 1) fun b => { b with pe := 2 ^ 16, taken := true }).setBlock (memberKey 47 0 0 2) fun b =>
    { b with pe := 1, taken := true }).setCel fun x =>
      { x with supers := [⟨1, 0, [⟨47, 0, 0, 1, 8⟩], 0, true, true, false, false, false⟩, ⟨2, 0, [⟨47, 0, 0, 2, 8⟩], 0, true, true, false, false, false⟩,
                          ⟨3, 0, [⟨47, 0, 0, 3, 8⟩], 0, true, false, false, false, false⟩] }

theorem wit_CellarKeepsItsFlash_supers :
    (leastBy twoSupers.liveIn twoSupers.idleSupers).isSome = true ∧ twoSupers.unevenWear = true ∧
      (leastBy twoSupers.leastPe twoSupers.idleSupers).isSome = true ∧
      (twoSupers.cellar.supers.find? fun b => b.id == 3) = some ⟨3, 0, [⟨47, 0, 0, 3, 8⟩], 0, true, false, false, false, false⟩ ∧
      twoSupers.settled ⟨3, 0, [⟨47, 0, 0, 3, 8⟩], 0, true, false, false, false, false⟩ = true := by decide +kernel

def timed1s : State := ((flashOn dev).setF F.CLK_TIME_US 0 1000000).setF F.CELLAR_CFG_TEMP_FEAT 0 1
def debugging : State := ((flashOn dev).setF F.CELLAR_CFG_DEBUG_WIN 0 1).setF F.CELLAR_DEBUG_CH 0 47

theorem wit_CellarKeepsItsFlash_timers :
    timed1s.chIsReady 47 = true ∧ timed1s.due (SMap.get 0 timed1s.cellar.zqAt 47) 100000 = true ∧ timed1s.f F.CELLAR_CFG_TEMP_FEAT 0 ≠ 0 ∧
      timed1s.due timed1s.cellar.sampled 1000000 = true ∧ debugging.debugOpen Config.cellarWinBase 4096 = true ∧
      dev.debugOpen Config.cellarWinBase 4096 = false := by decide +kernel

/-! The shared pool -/

/-- Node 0 lends cask 5 (in HBM, to its host's agent 0x10000) and cask 6 (in flash, to no agent yet); slot 0 of the catalog names cask 5. -/
def lentOut : State :=
  let s := (setAddr (setAddr work F.DIR_STORE_ADDR 0 (hb 0x2000000)) F.DIR_REC_ADDR 0 (hb 0x4000000)).setF F.DIR_STORE_SIZE 0 1
  s.setPool fun p =>
    { p with lent := [(5, ⟨false, 100, 0, 0, [(0, 0x10000, false)]⟩), (6, ⟨true, 0, 1, 0, []⟩)],
             catCache := [(0, leBytes 4 5 ++ [1#8] ++ zeros 59 ++ [1#8] ++ zeros 31 ++ [1#8] ++ zeros 31)] }
/-- Only tenant 5 may administer the pool. -/
def strange : State := lentOut.setF F.POOL_CFG_ADMIN_TENANT 0 5

def rangeReq (op : Nat) : Req := reqFor op [(8, 8, Config.caskBase), (16, 8, 65536)]
def lendReq : Req := reqFor 0x42 [(4, 2, 1), (6, 2, 1023), (8, 2, 200)]
def reclaimReq : Req := reqFor 0x43 [(4, 2, 1), (6, 2, 5)]
def withdrawReq (k a : Nat) : Req := reqFor 0x44 [(2, 2, k), (4, 4, a)]

/-- The conditions of CaskCommandsRun on a command over a range. -/
def rangesB (op : Nat) : Bool :=
  let r := rangeReq op
  let s₀ := ready lentOut 1 r
  let s := s₀.begin 1 0 r
  let r' := s₀.accept 1 r
  let y := s.caskNames 1 (opN r'.desc 8 8) (opN r'.desc 16 8)
  let z := y.1.caskParts 1 0 r' op y.2
  runsB s₀ 1 0 op r && caskFieldsOk r'.desc op && !(y.2.any fun x => x.1.isNone) &&
    (if z.2.1 = 0 then z.1.finishCode 1 0 z.2.2 else z.1.setWork 1 0 (.cask z.2.1 z.2.2)).poolTick.pool.needs == []

theorem wit_CaskCommandsRun_ranges : rangesB 0x40 = true ∧ rangesB 0x41 = true := by decide +kernel

/-- The conditions of CaskCommandsRun on the pool's administration. -/
def adminB (s : State) (op : Nat) (r : Req) : Bool :=
  let s₀ := ready s 1 r
  let s := s₀.begin 1 0 r
  let d := (s₀.accept 1 r).desc
  runsB s₀ 1 0 op r && decide (s.f F.POOL_CFG_ADMIN_TENANT 0 = s.tenant 1) &&
    (if op = 0x42 then s.f F.DIR_STORE_SIZE 0 != 0 && s.fAddr F.DIR_REC_ADDR 0 != 0 && lendFieldsOk d &&
        !s.lendBad (opN d 1 1 == 1) (opN d 2 2) (opN d 4 2) (opN d 6 2) (opN d 8 2) (opN d 16 8)
     else if op = 0x43 then opZero d 1 3 && opZero d 8 56 && decide (0 < opN d 4 2 ∧ opN d 6 2 < 1024 ∧ opN d 6 2 + opN d 4 2 ≤ 1024) &&
        ((List.range (opN d 4 2)).map (opN d 6 2 + ·)).all (fun k => (s.lentCask k).isSome) &&
        (s.startReclaim 1 0 [5]).poolTick.poolTick.pool.needs == []
     else opZero d 1 1 && opZero d 8 88 && decide (opN d 2 2 < 1024 ∧ opN d 4 4 < 2 ^ 18) && (s.lentCask (opN d 2 2)).isSome &&
        decide (agentKind (opN d 4 4) ≠ 3 ∨ opN d 4 4 = 0x3FFFF))

theorem wit_CaskCommandsRun_admin :
    adminB lentOut 0x42 lendReq = true ∧ adminB lentOut 0x43 reclaimReq = true ∧ adminB lentOut 0x44 (withdrawReq 6 0x3FFFF) = true ∧
      adminB lentOut 0x44 (withdrawReq 5 0x10000) = true := by decide +kernel

theorem wit_CaskCommandsRun_withdraw :
    (lentOut.agentsOf 6).map (·.2.1) = [] ∧ (lentOut.agentsOf 5).map (·.2.1) = [0x10000] ∧
      (((lentOut.setWork 1 0 (.cask 1 .ok)).startWithdraw 5 [0x10000] (some (1, 0))).poolTick).pool.needs = [] := by decide +kernel

theorem wit_CaskCommandsRun_denied :
    Runs (ready strange 1 lendReq) 1 0 0x42 lendReq ∧
      ((ready strange 1 lendReq).begin 1 0 lendReq).f F.POOL_CFG_ADMIN_TENANT 0 ≠ ((ready strange 1 lendReq).begin 1 0 lendReq).tenant 1 :=
  ⟨runs_of (by decide +kernel), by decide +kernel⟩

/-- The directory holds line 9 of cask 5 as e. -/
def dirHas (e : DirEnt) : State := lentOut.putDir (16 * lentOut.dirSet 5 9) { e with tag := dirTag 5 9 }
def sharedBy (n : Nat) : DirEnt := ⟨0, dirS, false, false, 0, n⟩
def ownedBy (a : Nat) : DirEnt := ⟨0, dirM, false, false, a, 0⟩
/-- A request of agent a for line 9 of cask 5. -/
def lineBy (a : Nat) (op : LineOp) : LineReq := ⟨.agent, a, 5, 9, op, 0, zeros 64, 0⟩

theorem wit_LenderServesByItsTable_packets :
    lentOut.live = true ∧ caskLender 5 = lentOut.self ∧ 5 < 2 ^ 26 ∧ agentKind 0x10000 ≠ 3 ∧ lentOut.pool.lost.contains 0x10000 = false ∧
      (lentOut.setPool fun p => { p with lost := [0x10000] }).pool.lost.contains 0x10000 = true := by decide +kernel

theorem wit_LenderServesByItsTable_absent :
    lentOut.dirFind 5 9 = none ∧ (lentOut.dirAlloc 5 9).2.isSome = true := by decide +kernel

theorem wit_LenderServesByItsTable_shared :
    ((dirHas (sharedBy 1)).dirFind 5 9).map (fun x => x.2.st) = some dirS ∧
      ((dirHas (sharedBy 1)).dirFind 5 9).map (fun x => (dirHas (sharedBy 1)).holders 5 x.2) = some [0x10000] ∧
      ((dirHas (sharedBy 1)).startRecall 5 9 [0x10000] (lineBy 7 .rdM)).2 = false := by decide +kernel

theorem wit_LenderServesByItsTable_owned :
    ((dirHas (ownedBy 0x10000)).dirFind 5 9).map (fun x => (x.2.st, x.2.owner)) = some (dirM, 0x10000) ∧
      ((dirHas (ownedBy 0x10000)).startRecall 5 9 [0x10000] (lineBy 7 .rdS)).2 = false := by decide +kernel

/-- Node 0's cache holds line 9 of cask 5; two of its requests wait; a recall of the line waits for agent 0x10000 until clock 0. -/
def cached : State :=
  lentOut.setPool fun p =>
    { p with cache := [⟨5, 9, true, zeros 64⟩], sent := [lineBy 0 .rdS, lineBy 0 .wb], recalls := [⟨5, 9, [0x10000], [0x10000], 0, lineBy 7 .rdM⟩] }

theorem wit_SnoopsAndAnswersAreTaken :
    cached.live = true ∧ 0 = cached.self ∧ cached.cacheLine 5 9 = some ⟨5, 9, true, zeros 64⟩ ∧ cached.cacheLine 5 8 = none ∧
      caskLender 5 = cached.self ∧ cached.pool.lost.contains 0x10000 = false ∧ cached.compat = false ∧
      (cached.pool.recalls.find? fun r => r.cask == caskLocal 5 && r.line == 8 && r.waits.contains 0x10000) = none ∧
      cached.pool.sent.find? (answerFits none 5 9 true) = some (lineBy 0 .rdS) ∧
      cached.pool.sent.find? (answerFits none 5 9 false) = some (lineBy 0 .wb) ∧ cached.pool.sent.find? (answerFits none 5 8 true) = none ∧
      (cached.pool.recalls.any fun r => r.cask == 5 && r.line == 9 && r.waits.contains 0x10000 && decide (r.due ≤ cached.now)) = true ∧
      agentKind 0x10000 ≠ 3 := by decide +kernel

/-- A line of page 3 of flash cask 6 waits. -/
def paged : State :=
  (lentOut.setReg .poolFrames 0 1).setPool fun p => { p with queue := [⟨.agent, 0x10000, 6, 3 * 1024, .rdS, 0, zeros 64, 0⟩] }
def fetch3 (fr : Option Nat) : Fetch := ⟨6, 3, 0, fr, none⟩
def fetched (fr : Option Nat) : State := paged.setPool fun p => { p with fetches := [fetch3 fr] }

theorem wit_PagesMove_fetch :
    paged.live = true ∧ paged.isFlash 6 = true ∧ paged.fetching 6 3 = false ∧ (paged.pageEnt 6 3).resident = false ∧
      (paged.pageEnt 6 3).moving = false ∧ (paged.pool.queue.any fun r => r.cask == 6 && pageOfLine r.line == 3) = true ∧
      (fetched none).fetching 6 3 = true ∧ ((fetched (some 2)).pool.fetches.find? fun f => f.cask == 6 && f.page == 3) = some (fetch3 (some 2)) ∧
      (fetched (some 2)).lentCask 6 = some ⟨true, 0, 1, 0, []⟩ := by decide +kernel

theorem wit_PagesMove_timers :
    ((fetched none).pool.fetches.find? fun f => f.cask == 6 && f.page == 3 && f.frame.isNone) = some (fetch3 none) ∧
      ((fetched none).setF F.CLK_TIME_US 0 100000).due 0 100000 = true ∧ (fetched none).due 0 100000 = false ∧
      lentOut.pool.halvePer ≠ 0 ∧ lentOut.due lentOut.pool.halvedAt (1000 * lentOut.pool.halvePer) = false ∧
      (lentOut.setF F.CLK_TIME_US 0 (1000 * lentOut.pool.halvePer)).due lentOut.pool.halvedAt (1000 * lentOut.pool.halvePer) = true := by
  decide +kernel

def leavingOf (due : Nat) : State := lentOut.setPool fun p => { p with withdraws := [⟨5, [0x10000], due, false, none⟩] }

theorem wit_PagesMove_drain :
    (leavingOf 0).compat = false ∧
      ((leavingOf 0).pool.withdraws.filter fun w => w.cask == 5 && !w.drained && decide (w.due ≤ (leavingOf 0).now)) ≠ [] ∧
      ((leavingOf 0).setF F.FLT_CFG_COMPAT 0 1).compat = true := by decide +kernel

/-- Page 3 of cask 6 is resident in frame 2, of 16,384 frames of which all but a few must be free. -/
def full : State :=
  ((lentOut.setReg .poolFrames 0 1).setFs 0 [(F.DIR_CFG_LOW_FRAMES_K, 17), (F.DIR_CFG_HIGH_FRAMES_K, 18)]).setPage 6 3 fun e =>
    { e with frame := 2, resident := true }

theorem insertBy_ne_nil {α : Type} (lt : α → α → Bool) (x : α) (l : List α) : insertBy lt x l ≠ [] := by
  cases l with
  | nil => simp [insertBy]
  | cons y r => rw [insertBy]; split <;> simp

theorem sortBy_ne_nil {α : Type} (lt : α → α → Bool) {l : List α} (h : l ≠ []) : sortBy lt l ≠ [] := by
  have go : ∀ (l acc : List α), acc ≠ [] ∨ l ≠ [] → l.foldl (fun acc x => insertBy lt x acc) acc ≠ [] := by
    intro l
    induction l with
    | nil => intro acc h; simpa using h
    | cons x r ih => intro acc _; exact ih _ (.inl (insertBy_ne_nil lt x acc))
  exact go l [] (.inr h)

theorem full_evictable : full.evictable ≠ [] := by
  refine List.ne_nil_of_mem (a := (6, 3, full.pageEnt 6 3, full.pageCount 6 3)) ?_
  refine List.mem_flatMap.2 ⟨(6, ⟨true, 0, 1, 0, []⟩), by decide +kernel, ?_⟩
  refine List.mem_filter.2 ⟨List.mem_map.2 ⟨3, List.mem_filter.2 ⟨List.mem_range.2 (by omega), by decide +kernel⟩, rfl⟩, by decide +kernel⟩

theorem wit_PagesMove_eviction :
    (full.frameGroups ≠ [] ∧ full.freeFrames < full.f F.DIR_CFG_LOW_FRAMES_K 0 * 1024 ∧ full.freeFrames < 18 * 1024 ∧
      full.freeFrames + (full.pool.pageJobs.filter (·.evict)).length < 18 * 1024) ∧
    ∃ x y rest, sortBy evictBefore full.evictable = (x, y) :: rest := by
  refine ⟨by decide +kernel, ?_⟩
  cases h : sortBy evictBefore full.evictable with
  | nil => exact absurd h (sortBy_ne_nil _ full_evictable)
  | cons x rest => exact ⟨x.1, x.2, rest, rfl⟩

/-! Images of the trellis -/

def loadOf (unload : Bool) (img : Option Img) : LoadRun := ⟨unload, hb 0, 4096, trlEmpty, 1, img, 0⟩
/-- Partition 2 in a state of a load. -/
def inState (st : Nat) (r : LoadRun) : State := (dev.setF F.TRL_STAT_STATE 2 st).setPart 2 fun p => { p with run := some r }
/-- Partition 0 drains while context 1 has a request. -/
def draining : State :=
  ((ready work 1 (reqFor 4 [])).setFs 0 [(F.TRL_STAT_STATE, trlDrain), (F.TRL_CTL_DRAIN_MS, 9)]).setPart 0 fun p =>
    { p with run := some (loadOf false none) }

/-- A load that fails; a good image cannot be exhibited, for which microcode the firmware has is not the model's to say (R321). -/
theorem wit_ImagesAreLoaded :
    ((inState trlVerify (loadOf false none)).live = true ∧ ((inState trlVerify (loadOf false none)).part 2).run = some (loadOf false none) ∧
      (inState trlVerify (loadOf false none)).trlState 2 = trlVerify ∧
      ((inState trlVerify (loadOf false none)).checkImage 2 (hb 0) 4096 1).1 ≠ 0) ∧
    ((inState trlDrain (loadOf false none)).trlState 2 = trlDrain ∧ (inState trlDrain (loadOf false none)).partHolds 2 = false) ∧
    ((draining.part 0).run = some (loadOf false none) ∧ draining.trlState 0 = trlDrain ∧ draining.partHolds 0 = true ∧
      draining.due 0 (1000 * draining.f F.TRL_CTL_DRAIN_MS 0) = false) ∧
    (inState trlProgram (loadOf false (some allPers))).trlState 2 = trlProgram ∧ (loadOf false (some allPers)).img = some allPers := by
  decide +kernel

/-! Barriers -/

def syncReq (op n : Nat) : Req := reqFor op [(4, 4, n)]
def armedBar : State := work.armSync 0 1 4
def leftBar (o : Nat) : State := armedBar.setF F.SYNC_OBJ_OWNER 0 o

/-- The conditions of SyncCommandsRun that depend on the command, and what is left in `needs` after it. -/
def syncB (s : State) (op : Nat) (r : Req) : Bool :=
  let s₀ := ready s 1 r
  let s := s₀.begin 1 0 r
  let r' := s₀.accept 1 r
  runsB s₀ 1 0 op r && syncFieldsOk r'.desc op && (s.syncTreeCheck 1 0).isNone &&
    (if op = 0x50 then opN r'.desc 4 4 != 0 && s.f F.SYNC_OBJ_STATE 0 == syncUnarmed &&
        (match s.barrier 0 with | some b => decide (opN r'.desc 4 4 ≤ b.count) | none => false) &&
        (((s.armSync 0 1 4).endSync 0 1 0 0 ((s.armSync 0 1 4).episode 0)).pool.needs == [])
     else (s.syncCheck 1 0).isNone)

theorem wit_SyncCommandsRun_arm : syncB work 0x50 (syncReq 0x50 4) = true := by decide +kernel

theorem wit_SyncCommandsRun_commands :
    syncB armedBar 0x51 (syncReq 0x51 0) = true ∧ syncB armedBar 0x52 (syncReq 0x52 0) = true ∧ syncB armedBar 0x53 (syncReq 0x53 0) = true ∧
      syncB armedBar 0x54 (syncReq 0x54 3) = true ∧ syncB armedBar 0x55 (syncReq 0x55 3) = true := by decide +kernel

theorem wit_SyncCommandsRun_ends :
    (let s₀ := ready armedBar 1 (syncReq 0x51 0)
     let s := s₀.begin 1 0 (syncReq 0x51 0)
     (syncArrive s 0 1 0 (s₀.accept 1 (syncReq 0x51 0))).pool.needs = []) ∧
    (let s := (ready armedBar 1 (syncReq 0x52 0)).begin 1 0 (syncReq 0x52 0)
     s.episode 0 ≤ s.episode 0 ∧ ((s.bindSync 0 1 0).syncWait 0 1 0 (.wait (s.episode 0))).pool.needs = []) ∧
    (let s := (ready armedBar 1 (syncReq 0x54 3)).begin 1 0 (syncReq 0x54 3)
     s.f F.SYNC_CNT_PRODUCED 0 + 3 < 2 ^ 32 ∧ (State.serveTakes (s.syncWait 0 1 0 (.take 3)) 0 []).pool.needs = []) ∧
    2 ^ 32 ≤ (armedBar.setF F.SYNC_CNT_PRODUCED 0 (2 ^ 32 - 3)).f F.SYNC_CNT_PRODUCED 0 + 3 ∧
    armedBar.f F.SYNC_OBJ_OWNER 0 = 1 ∧ (leftBar 2).f F.SYNC_OBJ_OWNER 0 ≠ 1 ∧ armedBar.waiters 0 = [] := by decide +kernel

theorem wit_SyncCommandsRun_refused :
    Runs (ready work 1 (syncReq 0x51 0)) 1 0 0x51 (syncReq 0x51 0) ∧
      ((ready work 1 (syncReq 0x51 0)).begin 1 0 (syncReq 0x51 0)).syncCheck 1 0 = some .invalidArg ∧
      ((ready work 1 (syncReq 0x51 0)).begin 1 0 (syncReq 0x51 0)).f F.SYNC_OBJ_STATE 0 = syncUnarmed :=
  ⟨runs_of (by decide +kernel), by decide +kernel⟩

/-! Press commands and windows -/

/-- Partition 0 holds tile 5 and press unit 3. -/
def pressed : State := (work.setReg .trlTileOwn 0 (8 * 16 ^ 5)).setReg .trlPressOwn 0 (8 * 16 ^ 3)

/-- A command of pass 9: its opcode, its LEN, its banks and its operation area. -/
def cmdFor (op len banks : Nat) (area : Bytes) : Bytes :=
  leBytes 1 op ++ [0#8] ++ leBytes 2 len ++ leBytes 2 banks ++ zeros 6 ++ leBytes 4 9 ++ zeros 8 ++ area ++ zeros (40 - area.length)
/-- A scan of block 0. -/
def scanCmd : Bytes := cmdFor opScan 128 (blockBanks 0) (leBytes 4 0 ++ [1#8, 32#8])
def discardCmd : Bytes := cmdFor opDiscard 0 0 []
def lutCmd : Bytes := cmdFor opLut 0 0 ([0#8, 0#8] ++ leBytes 2 64 ++ zeros 4 ++ leBytes 8 8)
def scanJob : PressJob := ⟨5, scanCmd, [], []⟩

theorem wit_PressCommandsQueue_owner :
    pressed.live = true ∧ (pressed.tileOwner 5).getD 8 = 0 ∧ pressed.pressOwner 3 = some 0 ∧ work.pressOwner 3 ≠ some 0 ∧
      pcHeadOk (zeros 64) 0 (pressed.hdr 3 0).next = false := by decide +kernel

theorem wit_PressCommandsQueue_heads :
    pcOp scanCmd = opScan ∧ pcHeadOk scanCmd 0 (pressed.hdr 3 (leAt scanCmd 32 4)).next = true ∧
      pcOp discardCmd = opDiscard ∧ pcHeadOk discardCmd 0 (pressed.hdr 3 (leAt discardCmd 32 4)).next = true ∧
      onesBelow 64 (leAt lutCmd 32 8) = [3] ∧ pcOp lutCmd = opLut ∧ pcHeadOk lutCmd 0 0 = true ∧ slotDescOk (zeros 64) = true := by
  decide +kernel

/-- Unit 3 with a full queue, with a window in progress, with its stack asleep and with its engine fenced. -/
def queueFull : State := pressed.setPu 3 fun p => { p with queue := List.replicate 64 scanJob }
def aWin (banks : Nat) : Win := ⟨scanJob, 128, banks, [1#8], [2#8], 0, [], [], 100⟩
def inWindow : State := pressed.setPu 3 fun p => { p with win := some (aWin 1), rewrites := [0, 4096], passes := [9] }
def asleep : State := pressed.setF F.CLK_DOM_STATE 14 1
def fenced0 : State := pressed.setFlt fun x => { x with resets := [⟨.engine 64, true, 0, 0, false⟩] }
/-- The state with scanJob queued. -/
def withJob (s : State) : State :=
  let w := s.setPu 3 fun p => { p with queue := p.queue ++ [scanJob] }
  w.setF F.PRESS_LOAD_QUEUE_PEAK 3 (max (s.f F.PRESS_LOAD_QUEUE_PEAK 3) ((s.pu 3).queue.length + 1))

theorem wit_PressCommandsQueue_states :
    64 ≤ (queueFull.pu 3).queue.length ∧ fenced0.pressFenced 3 = true ∧ pressed.pressFenced 3 = false ∧ (pressed.pu 3).queue = [] ∧
      (pressed.pu 3).win = none ∧ (inWindow.pu 3).win ≠ none ∧ (withJob asleep).pressHalted 3 = false ∧ asleep.depth (14 + 3 / 64) ≠ 0 ∧
      (withJob pressed).pressHalted 3 = false ∧ pressed.depth (14 + 3 / 64) = 0 ∧ (withJob pressed).stackWaits (3 / 64) = false := by
  decide +kernel

/-- The last window of pass 9 on unit 3. -/
def lastWin : Win := { aWin 1 with job := ⟨5, [1#8, 2#8] ++ scanCmd.drop 2, [], []⟩ }

theorem wit_PressUnitsKeepTime :
    (inWindow.pu 3).win = some (aWin 1) ∧ (aWin 1).status ≠ [] ∧ (aWin 1).records ≠ [] ∧ pcLast (aWin 1).job.cmd = false ∧
      pcLast lastWin.job.cmd = true ∧ pressClass lastWin.job = 1 ∧ bit (aWin 1).banks 0 = true ∧ bit (aWin 1).banks 15 = false ∧
      (inWindow.pu 3).rewrites = 0 :: [4096] ∧ (pressed.pu 3).win = none ∧ (pressed.pu 3).rewrites = [] := by decide +kernel

/-! Frames -/

/-- Node 3 with port 0 up towards node 9. -/
def linked : State := comped.setF F.FAB_PORT_STAT_STATE 0 portUp

/-- A frame of node 9 on queue 4. -/
def frame9 (seq epoch rank tag : Nat) (more : Bool) (payload : Bytes) : Frame :=
  ⟨BitVec.ofNat 16 (linked.f F.FAB_NODE_ETHERTYPE 0), false, 0, 0, true, 0, 0, none, 1, false, true, 9, 3, 0x77, BitVec.ofNat 32 epoch, 4, false, more,
    BitVec.ofNat 32 seq, 0, BitVec.ofNat 32 tag, BitVec.ofNat 16 rank, 0, payload⟩
def good9 (seq : Nat) : Frame := frame9 seq 4 0xFFFF 1 false [1#8]

theorem wit_FramesPassTheDoorInOrder_door :
    linked.live = true ∧ linked.portIsUp 0 = true ∧ linked.flt.forceBad.contains 0x100 = false ∧ linked.headersOk 0 (good9 0) = true ∧
      linked.macsecTake 0 (good9 0) = some linked ∧ linked.drivoOk 0 (good9 0) = true ∧ linked.senderOk 0 5 (good9 0) = true ∧
      linked.policeTake 0 5 (good9 0) = some linked ∧ byteAt (good9 0).payload 0 = 1 := by decide +kernel

theorem wit_FramesPassTheDoorInOrder_flow :
    (let fl := (linked.hear 9).flow 9 4
     fl.unacked = [] ∧ fl.rxNext = (good9 0).seq.toNat ∧ fl.partial_ = [] ∧ (good9 0).more = false ∧ fl.ahead.length < 64 ∧
       (fl.ahead.any fun x => x.2.seq == (good9 64).seq) = false ∧ fl.nakSent = false ∧
       ((good9 64).seq.toNat + 2 ^ 32 - fl.rxNext) % 2 ^ 32 = 64 ∧ 2 ^ 31 ≤ ((good9 (2 ^ 32 - 1)).seq.toNat + 2 ^ 32 - fl.rxNext) % 2 ^ 32) ∧
    (((linked.setFlow 9 4 fun fl => { fl with nakSent := true }).hear 9).flow 9 4).nakSent = true := by decide +kernel

def macsecOn : State := linked.setF F.FAB_PORT_CFG_MACSEC 0 1
def policed : State := (linked.setF F.FAB_POLICE_RATE (16 * edgeOf 0 + 2) 1).setPolice (16 * edgeOf 0 + 2) 0

theorem wit_FramesPassTheDoorInOrder_refusals :
    comped.portIsUp 0 = false ∧ linked.headersOk 0 { good9 0 with ipv6 := true } = false ∧ macsecOn.headersOk 0 (good9 0) = true ∧
      macsecOn.macsecTake 0 (good9 0) = none ∧ linked.drivoOk 0 { good9 0 with rsvd := true } = false ∧
      linked.senderOk 0 5 { good9 0 with srcMac := 1 } = false ∧ policed.policeTake 0 5 (good9 0) = none := by decide +kernel

/-- The map of the epoch before, which still drains. -/
def oldMap : CompMap := { map77 with epoch := 3 }
def drainingMap : State := linked.setComp 2 fun x => { x with prev := some oldMap, drainAt := 9 }
def rankDown : State := linked.setComp 2 fun x => { x with down := [1] }

theorem wit_MessagesAreServedByTheirEpoch_routes :
    linked.slotOfComp 0x77 = some 2 ∧ (linked.comp 2).map = some map77 ∧ map77.epoch = 4 ∧ map77.rank = 0 ∧ (linked.comp 2).prev = none ∧
      (drainingMap.comp 2).prev = some oldMap ∧ 3 + 1 = map77.epoch ∧ 1 < map77.members.length ∧ 1 ∉ (linked.comp 2).down ∧
      1 ∈ (rankDown.comp 2).down ∧ linked.slotOfComp 0x78 = none ∧ linked.chipFenced = false ∧
      linked.routeMsg 0x77 4 0 = .serve 2 map77 ∧ linked.routeMsg 0x77 4 1 = .moved 9 4 ∧ rankDown.routeMsg 0x77 4 1 = .fenced ∧
      linked.routeMsg 0x77 5 0 = .hold ∧ linked.routeMsg 0x77 6 0 = .stale := by decide +kernel

def chipDown : State := linked.setFlt fun x => { x with resets := [⟨.chip, true, 0, 0, false⟩] }
/-- A sub-request of tag 6 to node 9, sent once or twice. -/
def sub6 (retried : Bool) : OutSub := ⟨6, 9, 0x77, 4, 1, 4, retried, 0, .quiet, [], none⟩
def asked6 (retried : Bool) : State := linked.setFab fun x => { x with subs := [sub6 retried] }

theorem wit_MessagesAreServedByTheirEpoch_answers :
    chipDown.chipFenced = true ∧ linked.openSub 6 9 = none ∧ (asked6 false).openSub 6 9 = some (sub6 false) ∧ 6 ≠ globalTag ∧
      (asked6 true).openSub 6 9 = some (sub6 true) ∧ (asked6 false).peerOk 9 = true ∧ (asked6 false).peerOk 8 = false ∧
      (sub6 false).owner = .quiet ∧ linked.loadingPart (zeros 128) = none ∧ (LineOp.ofCode 1).isSome = true := by decide +kernel

/-- Global messages reach a barrier, an index and the tree; this node is rank 0, or rank 1 of the map. -/
def rankOne : CompMap := { map77 with rank := 1, members := [9, 3] }
def alone : CompMap := { map77 with members := [3] }

theorem wit_MessagesAreServedByTheirEpoch_globals :
    rankOne.rank ≠ 0 ∧ rankOne.rankOf 9 = 0 ∧ rankOne.rankOf 9 = treeParent rankOne.rank ∧ map77.rank = 0 ∧ alone.members.length = 1 ∧
      armedBar.f F.SYNC_OBJ_STATE 0 = syncArmed ∧ work.f F.SYNC_OBJ_STATE 0 ≠ syncArmed ∧ armedBar.episode 0 = 1 ∧ work.idxOn 5 = false ∧
      (ixWork []).idxOn 5 = true ∧ ((ixWork []).idx 5).openV = 2 ∧ (ixWork []).published 5 = 1 := by decide +kernel

/-! Control frames, timers of the fabric and broadcasts -/

def admitting (a : Admission) : State :=
  (linked.store (linked.peerAddr 9) (leBytes 2 9 ++ [1#8, BitVec.ofNat 8 peerAdmitting] ++ leBytes 2 1)).setFab fun x => { x with admitting := [a] }
def admission9 : Admission := ⟨9, 0, [], [], [], false, false⟩

theorem wit_ControlFramesAndFabricTimers_admission :
    (admitting admission9).admission 9 = some admission9 ∧ linked.admission 9 = none ∧
      (admitting admission9).senderOk 0 0x10 (good9 0) = true ∧ (admitting admission9).due 0 100000 = false ∧
      ((admitting admission9).setF F.CLK_TIME_US 0 100000).due 0 100000 = true ∧
      linked.senderOk 0 6 (good9 0) = true ∧ ((linked.hear 9).flow 9 1).held = false ∧
      (admission9.chain ++ zeros 8192).length ≤ 8192 ∧ 8192 < (admission9.chain ++ zeros 8193).length := by decide +kernel

def sent1 : TxFrame := default
/-- Flow 4 to node 9 has a frame out; after n resends. -/
def outstanding (n owed : Nat) : State :=
  linked.setFlow 9 4 fun fl => { fl with unacked := [sent1], resends := n, owed := owed }

theorem wit_ControlFramesAndFabricTimers_flows :
    (linked.flow 9 4).unacked = [] ∧ ((outstanding 0 8).flow 9 4).unacked ≠ [] ∧ ((outstanding 0 8).flow 9 4).held = false ∧
      ((outstanding 0 8).flow 9 4).rtoDue ≤ (outstanding 0 8).now ∧ 0 < (outstanding 0 8).f F.FAB_TIMERS_RETRIES 0 ∧
      (outstanding 0 8).f F.FAB_TIMERS_RETRIES 0 ≤ 255 ∧ ((outstanding 255 8).upPorts 9).length ≤ 0 + 1 ∧
      8 ≤ ((outstanding 0 8).flow 9 4).owed ∧ ((outstanding 0 7).flow 9 4).owed < 8 ∧ (outstanding 0 7).due 0 10 = false := by decide +kernel

/-- A second port to node 9. -/
def twoPorts : State :=
  ((outstanding 255 0).store ((outstanding 255 0).peerAddr 9) (leBytes 2 9 ++ [1#8, BitVec.ofNat 8 peerAdmitted] ++ leBytes 2 3)).setF
    F.FAB_PORT_STAT_STATE 1 portUp
def overdue : State := linked.setFab fun x => { x with subs := [{ sub6 false with due := 5 }] }
def portOn : State := linked.setF F.FAB_PORT_CFG_ENABLE 0 1

theorem wit_ControlFramesAndFabricTimers_ports :
    0 + 1 < (twoPorts.upPorts 9).length ∧ 9 ≠ linked.self ∧ 0 ∈ linked.upPorts 9 ∧ SMap.get 0 linked.fab.spoke (9 * 16 + 0) ≤ linked.now ∧
      ((overdue.setF F.CLK_TIME_US 0 5).fab.subs.find? fun o => o.tag == 6 && o.answer.isNone && o.due != 0 &&
        decide (o.due ≤ (overdue.setF F.CLK_TIME_US 0 5).now)) = some { sub6 false with due := 5 } ∧
      comped.mayTransmit 0 = false ∧ linked.mayTransmit 0 = true ∧ SMap.get [] linked.fab.control 0 = [] ∧ linked.nextQueue 0 = none ∧
      SMap.get [] (linked.sendControl 0 9 8 0 []).fab.control 0 ≠ [] ∧ portOn.on F.FAB_PORT_CFG_ENABLE 0 = true ∧
      linked.on F.FAB_PORT_CFG_ENABLE 0 = false := by decide +kernel

def bcastReq (pad len : Nat) : Req := reqFor 0x60 [(1, 1, pad), (8, 8, buf), (16, 8, len)]

/-- The conditions of BroadcastsAndCompositionTimers on a BROADCAST of len bytes, at rank 0. -/
def bcastB (s : State) (len : Nat) : Bool :=
  let r := bcastReq 0 len
  let s₀ := ready s 1 r
  let s := s₀.begin 1 0 r
  let d := r.desc
  let y := s.ctxLoad 1 (opN d 8 8) (opN d 16 8)
  let w := y.1.draw.1.setReq 1 0 fun r => { r with work := .global 0, comp := some 2, epoch := 4 }
  runsB s₀ 1 0 0x60 r && opZero d 1 7 && decide (opN d 8 8 < 2 ^ 52 ∧ opN d 16 8 = len ∧ opN d 24 8 = 0) && opZero d 32 64 &&
    decide (s.ctxComp 1 = some (2, map77)) && !y.2.2.bad && y.1.pool.needs == [] && !(y.1.comp 2).removing && !(y.1.comp 2).down.contains 0 &&
    (w.bcastHere 2 map77 0 0 y.2.1).pool.needs == []

theorem wit_BroadcastsAndCompositionTimers_broadcast :
    bcastB linked 64 = true ∧ bcastB linked 0 = true ∧ opZero (bcastReq 1 0).desc 1 7 = false ∧ work.ctxComp 1 = none := by decide +kernel

theorem wit_BroadcastsAndCompositionTimers_runs :
    Runs (ready work 1 (bcastReq 0 0)) 1 0 0x60 (bcastReq 0 0) ∧ Runs (ready linked 1 (bcastReq 1 0)) 1 0 0x60 (bcastReq 1 0) :=
  ⟨runs_of (by decide +kernel), runs_of (by decide +kernel)⟩

def removed2 : State := linked.setComp 2 fun x => { x with removing := true, removeAt := 5 }
def heldMsg : Held := ⟨8, 1, 0, good9 0, 5, ⟨0, 0⟩⟩
def holdsMsg : State := linked.setFab fun x => { x with held := [heldMsg] }

theorem wit_BroadcastsAndCompositionTimers_timers :
    (((drainingMap.setF F.CLK_TIME_US 0 9).comp 2).prev.isSome = true ∧ ((drainingMap.setF F.CLK_TIME_US 0 9).comp 2).drainAt ≤ 9 ∧
      ((drainingMap.setF F.CLK_TIME_US 0 9).comp 2).removing = false) ∧
    ((removed2.comp 2).removing = true ∧ (removed2.comp 2).removeAt ≤ (removed2.setF F.CLK_TIME_US 0 5).now ∧ (removed2.comp 2).prev.isSome = false) ∧
    ((holdsMsg.setF F.CLK_TIME_US 0 5).fab.held.find? fun h => h.id == 8 && decide (h.due ≤ (holdsMsg.setF F.CLK_TIME_US 0 5).now)) = some heldMsg ∧
    (holdsMsg.fab.held.find? fun h => h.id == 8 && decide (h.due ≤ holdsMsg.now)) = none := by decide +kernel

def handoff8 : Handoff := ⟨8, 2, 0, good9 0, 0⟩
def heldUpdates (hold t : Nat) : State :=
  ((linked.setF F.FLT_ADMIT_HOLD 2 hold).setF F.CLK_TIME_US 0 t).setFab fun x => { x with holds := [handoff8] }

theorem wit_BroadcastsAndCompositionTimers_holds :
    ((heldUpdates 1 100000).fab.holds.find? fun h => h.id == 8) = some handoff8 ∧ (heldUpdates 1 100000).on F.FLT_ADMIT_HOLD handoff8.slot = true ∧
      (heldUpdates 1 100000).due handoff8.since 100000 = true ∧ (heldUpdates 1 99999).due handoff8.since 100000 = false ∧
      (heldUpdates 0 0).on F.FLT_ADMIT_HOLD handoff8.slot = false ∧ ((heldUpdates 0 0).stageHandoff handoff8.frame).isSome = true := by
  decide +kernel

def bigRoom : State := setAddr (linked.setF F.FAB_COMP_BCAST_SIZE_MIB 2 1) F.FAB_COMP_BCAST_ADDR 2 (hb 0x6000000)

theorem wit_BroadcastsAndCompositionTimers_room :
    2 ^ 20 - 1 + [7#8].length ≤ bigRoom.f F.FAB_COMP_BCAST_SIZE_MIB 2 * 2 ^ 20 ∧
      inHbm (bigRoom.fAddr F.FAB_COMP_BCAST_ADDR 2 + (2 ^ 20 - 1)) [7#8].length = true := by decide +kernel

/-! Nahel -/

/-- Port 1 ACTIVE. -/
def nlActive1 : State := dev.setF F.NL_PORT_STAT_STATE 1 nlActive
def nlIn (st : Nat) (t : Nat) : State := (dev.setF F.NL_PORT_STAT_STATE 1 st).setF F.CLK_TIME_US 0 t

theorem wit_NahelLinkRuns_states :
    (nlIn nlDetect 1000).nlState 1 = nlDetect ∧ (nlIn nlEqualize 8000).nlState 1 = nlEqualize ∧ (nlIn nlAlign 0).nlState 1 = nlAlign ∧
      (nlIn nlRetrain 0).nlState 1 = nlRetrain ∧ nlActive1.nlState 1 = nlActive ∧ dev.nlState 1 = nlDown ∧
      (nlIn nlDetect 1000).due ((nlIn nlDetect 1000).nl 1).stateAt (nlBound nlDetect) = true ∧
      (nlIn nlEqualize 7999).due ((nlIn nlEqualize 7999).nl 1).stateAt (nlBound nlEqualize) = false ∧
      ((nlIn nlDetect 1000).nl 1).attempts < 2 ∧ 2 ≤ (((nlIn nlDetect 1000).setNl 1 fun n => { n with attempts := 2 }).nl 1).attempts := by
  decide +kernel

def replaying (t : Nat) : State := (nlActive1.setF F.CLK_TIME_US 0 t).setNl 1 fun n => { n with replay := [(0, [])], quiet := [(7, 0)], owed := [7] }

theorem wit_NahelLinkRuns_timers :
    ((replaying 10000).nl 1).replay = (0, []) :: [] ∧ (replaying 10000).due ((replaying 10000).nl 1).progress
        (ceilDiv (16 * max 1 ((replaying 10000).f F.NL_PORT_CFG_REPLAY_16NS 1)) 1000) = true ∧
      (nlActive1.nl 1).replay = [] ∧ ((replaying 10000).nl 1).quiet.find? (fun x => x.1 == 7) = some (7, 0) ∧
      (replaying 10000).due 0 (ceilDiv ((replaying 10000).f F.NL_PORT_CFG_MOD_100NS 1) 10) = true ∧
      ((replaying 10000).nl 1).owed.contains 7 = true ∧ (nlActive1.nl 1).quiet.find? (fun x => x.1 == 7) = none := by decide +kernel

theorem wit_NahelLinkRuns_flits :
    nlActive1.flt.forceBad.contains 0x111 = false ∧ openFlit (zeros 255) = none ∧ (nlActive1.nl 1).rxSeq = 0 := by decide +kernel

set_option maxRecDepth 4000 in
theorem wit_NahelLinkRuns_flit_opens :
    (openFlit (makeFlit 1 0 0 [])).map (fun x => (byteAt x.1 0, leAt x.1 2 2, x.2)) = some (1, 0, false) := by decide +kernel

/-- Port 1 with a window over the whole register space, a credit of each class and nothing that waits. -/
def nlReady : State :=
  (nlActive1.setFs 16 [(F.NL_WIN_CFG_VALID, 1), (F.NL_WIN_CFG_READ, 1), (F.NL_WIN_CFG_WRITE, 1), (F.NL_WIN_CFG_REG_ALL, 1),
    (F.NL_WIN_CFG_SIZE_64K, 1024)]).setNl 1 fun n => { n with rxCred := [1, 1, 1] }
/-- A read of 8 bytes and a write of 4 at register address 0x40. -/
def rd8 : Packet := ⟨0, false, 0, 0, 1, 0, BitVec.ofNat 64 (8 * 2 ^ 52 + 0x40), []⟩
def wr4 : Packet := ⟨0, true, 0, 4, 1, 0, 0x40, [1#8, 0#8, 0#8, 0#8]⟩

theorem wit_NahelPacketsAreServed_credits :
    nlReady.nlState 1 = nlActive ∧ rxClass 1 rd8.np = some 1 ∧ (nlReady.nl 1).rxCred.getD 1 0 ≠ 0 ∧
      ((nlReady.setNl 1 fun n => { n with rxCred := [1, 0, 1] }).nl 1).rxCred.getD 1 0 = 0 ∧ packetOk 1 rd8 = true ∧ packetOk 2 wr4 = true ∧
      packetOk 1 wr4 = false ∧ packetOk 4 ⟨0, false, 0, 8, 0, 0, 0, leBytes 8 1⟩ = true ∧ packetOk 5 ⟨0, false, 0, 0, 0, 0, 7, []⟩ = true ∧
      packetOk 6 ⟨0, false, 0, 9, 0, 0, 0, zeros 9⟩ = true ∧ packetOk 7 ⟨0, false, 0, 0, 0, 0, 1, []⟩ = true ∧ nlReady.compat = false := by
  decide +kernel

def hostRd (ok : Bool) : HostReq := ⟨1, 0, ok, rd8⟩

theorem wit_NahelPacketsAreServed_accesses :
    devWindow (pktAddr rd8) = some 0 ∧ nlReady.nl0.inq = [] ∧ nlReady.nl1.inq = [] ∧ nlReady.draw.1.hostWaits (hostRd true) = false ∧
      (nlReady.setF F.SEC_BOOT_STAT_STATE 0 bootRecovery).bootState = bootRecovery ∧
      (nlReady.setF F.SEC_BOOT_STAT_STATE 0 bootFirmware).bootState ≠ bootRecovery ∧ nlReady.chipFenced = false ∧ chipDown.chipFenced = true ∧
      rdLen rd8 = 8 ∧ wr4.body.length = 4 ∧ devWindow Config.hbmBase = some 1 ∧ nlReady.windowOk 16 0x40 8 true false = true ∧
      cohFits ⟨0, false, 0, 8, 0, 0, 0, leBytes 8 7⟩ = false ∧ cohFits ⟨0, false, 0, 8, 0, 0, 0, leBytes 8 1⟩ = true ∧
      nlReady.windowOk 17 0x40 64 (cohNeeds 1).1 (cohNeeds 1).2 = false ∧ (zeros 8).length < 9 ∧ allZero (leBytes 13 2) 1 7 = true ∧
      byteAt (leBytes 9 (2 + 2 ^ 64)) 8 = 1 ∧ allZero (leBytes 13 (2 + 3 * 2 ^ 64)) 9 3 = true := by decide +kernel

/-! Boot, recovery, attestation -/

/-- A firmware image of two empty sections, signed in slot 0 by a key of exponent 1: its signature is its padded digest. -/
def fwModulus : Bytes := List.replicate 384 0xFF#8
def fwSigned : Bytes :=
  leBytes 4 0x4D495746 ++ leBytes 2 1 ++ leBytes 2 2 ++ leBytes 4 1024 ++ zeros 52 ++
    ([1#8] ++ zeros 3 ++ leBytes 4 128 ++ zeros 8) ++ ([2#8] ++ zeros 3 ++ leBytes 4 192 ++ zeros 8) ++ zeros 96 ++
    (zeros 4 ++ leBytes 4 1 ++ zeros 56) ++ fwModulus
def fwImage : Bytes :=
  fwSigned ++ [0x00#8, 0x01#8] ++ List.replicate (384 - 3 - 51) 0xFF#8 ++ [0x00#8] ++ digestInfo ++ sha256 fwSigned

/-- Fuses that hold the hash of that key, a session that holds the image, a port that may recover. -/
def fused : State :=
  dev.setSec fun x => { x with fuses := { x.fuses with keys := sha256 (fwModulus ++ leBytes 4 1) :: x.fuses.keys.drop 1 } }

theorem test_boot_takes_a_signed_image : fwCheck fwImage fused.sec.fuses = 0 := by decide +kernel

theorem test_boot_refuses_an_empty_image : fwCheck (zeros 64) fused.sec.fuses = 2 := by decide +kernel

/-- The written bytes of a session: those of a list from an offset on, the zeros unlisted. -/
def cells (o : Nat) : Bytes → SMap Byte
  | [] => []
  | b :: r => if b = 0#8 then cells (o + 1) r else (o, b) :: cells (o + 1) r
def sessionOf (b : Bytes) (port : Nat) : RcvSession := ⟨port, cells 0 b, b.length⟩

theorem cells_find (b : Bytes) : ∀ o k, SMap.get 0#8 (cells o b) k = if k < o then 0#8 else b.getD (k - o) 0#8 := by
  induction b with
  | nil => intro o k; simp [cells, SMap.get, SMap.find]
  | cons x r ih =>
    intro o k
    have step : SMap.get 0#8 (cells (o + 1) r) k = if k < o + 1 then 0#8 else r.getD (k - (o + 1)) 0#8 := ih (o + 1) k
    have shift (h : o < k) : k - o = (k - (o + 1)) + 1 := by omega
    by_cases hx : x = 0#8
    · simp only [cells, hx, if_true, step]
      rcases Nat.lt_trichotomy k o with h | h | h
      · simp [h, Nat.lt_succ_of_lt h]
      · simp [h]
      · rw [if_neg (by omega), if_neg (by omega), shift h, List.getD_cons_succ]
    · simp only [cells, hx, if_false]
      rcases Nat.lt_trichotomy k o with h | h | h
      · rw [if_pos (by omega)] at step
        rw [if_pos h]
        simpa [SMap.get, SMap.find, Nat.ne_of_gt h] using step
      · simp [h, SMap.get, SMap.find]
      · rw [if_neg (by omega)] at step
        rw [if_neg (by omega), shift h, List.getD_cons_succ]
        simpa [SMap.get, SMap.find, Nat.ne_of_lt h] using step

/-- A session that holds an image of the length its header names gives that image to the check. -/
theorem session_image (b : Bytes) (port : Nat) (h : min (2 ^ 24) (max 64 (leNat ((List.range 4).map fun k => b.getD (8 + k) 0#8))) = b.length) :
    (sessionOf b port).image = b := by
  have at_ : (SMap.get 0#8 (cells 0 b)) = fun k => b.getD k 0#8 := by funext k; simp [cells_find]
  simp only [sessionOf, RcvSession.image, at_, h]
  apply List.ext_getElem
  · simp
  · intro i _ hi; simp [hi]
/-- Port 1 ACTIVE in a boot state, with a session of an image. -/
def recovering (st : Nat) (b : Bytes) : State :=
  ((fused.setF F.NL_PORT_STAT_STATE 1 nlActive).setF F.SEC_BOOT_STAT_STATE 0 st).setSec fun x => { x with session := some (sessionOf b 1) }
def otherPort : State := (recovering bootRecovery []).setSec fun x => { x with session := some (sessionOf [] 0) }
/-- Firmware runs, and a window of port 1 reaches all registers. -/
def mayPersist (b : Bytes) : State := (recovering bootFirmware b).setFs 16 [(F.NL_WIN_CFG_VALID, 1), (F.NL_WIN_CFG_REG_ALL, 1)]

theorem session_is_the_image : (sessionOf fwImage 1).image = fwImage := session_image _ _ (by decide +kernel)

theorem wit_RecoveryFusesAndAttestation_ports :
    (recovering bootRecovery []).live = true ∧ dev.nlState 1 ≠ nlActive ∧ (recovering bootRecovery []).nlState 1 = nlActive ∧
      otherPort.rcvDenied 1 = true ∧ (recovering bootRecovery []).rcvDenied 1 = false ∧ (mayPersist []).rcvDenied 1 = false ∧
      (64 % 64 = 0 ∧ (zeros 64).length % 64 = 0 ∧ 64 + (zeros 64).length ≤ 2 ^ 24) ∧ (recovering bootRecovery []).sec.session ≠ none ∧
      (recovering bootRecovery []).bootState = bootRecovery ∧ (mayPersist []).bootState ≠ bootRecovery ∧
      fwCheck (sessionOf [] 1).image fused.sec.fuses ≠ 0 := by decide +kernel

theorem wit_RecoveryFusesAndAttestation_run :
    (recovering bootRecovery fwImage).sec.session = some (sessionOf fwImage 1) ∧ (mayPersist fwImage).sec.session = some (sessionOf fwImage 1) ∧
      fwCheck (sessionOf fwImage 1).image fused.sec.fuses = 0 :=
  ⟨rfl, rfl, by rw [session_is_the_image]; exact test_boot_takes_a_signed_image⟩

def ident (v : Nat) : State := (nlActive1.setF F.SEC_BOOT_STAT_IDENT_OK 0 v).setSec fun x =>
  { x with spdm := [(transportKey (.nahel 1), 3)], i3cAddr := 8#7, burn := [63], burnRev := 8 }

theorem wit_RecoveryFusesAndAttestation_attestation :
    ((ident 1).nlState 1 == nlActive) = true ∧ (dev.nlState 1 == nlActive) = false ∧ (ident 0).on F.SEC_BOOT_STAT_IDENT_OK 0 = false ∧
      (ident 1).on F.SEC_BOOT_STAT_IDENT_OK 0 = true ∧ SMap.get 0 nlActive1.sec.spdm (transportKey (.nahel 1)) < 1 ∧
      3 ≤ SMap.get 0 (ident 1).sec.spdm (transportKey (.nahel 1)) ∧ (ident 1).sec.i3cAddr ≠ 0#7 ∧ dev.sec.i3cAddr = 0#7 ∧
      dev.sec.burn = [] ∧ dev.sec.burnRev = 0 ∧ (ident 1).sec.burn ≠ [] := by decide +kernel

/-! Watchdogs and resets -/

/-- Context 1 with a request and a watchdog of 1 ms, at a clock. -/
def watched (t : Nat) : State := ((ready work 1 (reqFor 4 [])).setF F.FLT_WDOG_CTX_MS 0 1).setF F.CLK_TIME_US 0 t
def stampedReq : Req := { reqFor 1 [] with work := .stamped 7 false 1 }
def watchedKept : State := ((ready work 1 stampedReq).setF F.FLT_WDOG_CTX_MS 0 1).setF F.CLK_TIME_US 0 1000
def resetOf (d : Domain) (dr : Bool) : ResetRun := ⟨d, dr, 0, 1, false⟩
def inReset (d : Domain) (dr : Bool) (t : Nat) : State :=
  ((ready work 1 (reqFor 4 [])).setF F.CLK_TIME_US 0 t).setFlt fun x => { x with resets := [resetOf d dr] }

theorem wit_WatchdogsResetsAndRepairs_context :
    ((watched 1000).f F.FLT_WDOG_CTX_MS 0 ≠ 0 ∧ (watched 1000).ctxState 1 = ctxEnabled ∧ ((watched 1000).ctx 1).reqs.all Req.unwatched = false ∧
      (watched 1000).due ((watched 1000).ctx 1).progress (1000 * (watched 1000).f F.FLT_WDOG_CTX_MS 0) = true ∧
      (watched 1000).coverOf 1 = none ∧ (watched 1000).repeats 1 1 = false ∧
      (((watched 1000).openReqs 1).find? fun r => !r.unwatched && !(watched 1000).keeps r) = some (reqFor 4 [])) ∧
    (watched 999).due ((watched 999).ctx 1).progress 1000 = false ∧ (inReset .chip true 0).coverOf 1 = some (resetOf .chip true) ∧
    (watchedKept.ctx 1).reqs.all Req.unwatched = false ∧ ((watchedKept.openReqs 1).find? fun r => !r.unwatched && !watchedKept.keeps r) = none := by
  decide +kernel

/-- Tile 5 is partition 0's, which has a request; watchdogs of tiles, partitions and chip run. -/
def hanging (t : Nat) : State :=
  (((watched t).setReg .trlTileOwn 0 (8 * 16 ^ 5)).setFs 0 [(F.FLT_WDOG_TILE_US, 1), (F.FLT_WDOG_PART_MS, 1), (F.FLT_WDOG_CHIP_MS, 1),
    (F.SEC_BOOT_STAT_STATE, bootFirmware)])

theorem wit_WatchdogsResetsAndRepairs_others :
    ((hanging 0).f F.FLT_WDOG_TILE_US 0 ≠ 0 ∧ (hanging 0).tileOut 5 = false ∧ (hanging 0).partHolds 0 = true ∧ (hanging 0).depth (2 + 5 / 16) = 0) ∧
    ((hanging 1000).f F.FLT_WDOG_PART_MS 0 ≠ 0 ∧ (hanging 1000).trlState 0 ≠ trlEmpty ∧ (hanging 1000).partAwake 0 = true ∧
      ∀ c ∈ (hanging 1000).partCtxs 0, ((hanging 1000).ctx c).reqs.all Req.unwatched = true ∨
        (hanging 1000).due ((hanging 1000).ctx c).progress 1000 = true) ∧
    ((hanging 1000).bootState = bootFirmware ∧ (hanging 1000).due (hanging 1000).flt.kickedAt 1000 = true ∧ (hanging 1000).chipFenced = false ∧
      (hanging 999).due (hanging 999).flt.kickedAt 1000 = false) := by decide +kernel

theorem wit_WatchdogsResetsAndRepairs_resets :
    (dev.flt.resets.find? fun r => r.dom == .chip) = none ∧
    (((inReset (.part 0) true 0).flt.resets.find? fun r => r.dom == .part 0) = some (resetOf (.part 0) true) ∧
      (inReset (.part 0) true 0).domHolds (.part 0) = true ∧
      (inReset (.part 0) true 0).due 0 ((inReset (.part 0) true 0).f F.FLT_CFG_FENCE_DRAIN_US 0) = false ∧
      (inReset (.part 0) true (2 ^ 20)).due 0 ((inReset (.part 0) true 0).f F.FLT_CFG_FENCE_DRAIN_US 0) = true) ∧
    ((inReset (.engine 7) false 0).flt.resets.find? fun r => r.dom == .engine 7) = some (resetOf (.engine 7) false) ∧
    (inReset (.part 0) false 0).partOut 0 = false ∧ (resetOf (.part 0) false).reload = false ∧
    (inReset .chip false 0).bootState ≠ bootFirmware ∧ (inReset .chip false 0).due 0 (resetBound .chip) = false ∧
    (inReset .chip false 10000000).due 0 (resetBound .chip) = true ∧ (inReset .chip false 10000000).bootState ≠ bootRecovery := by decide +kernel

def injecting (cls target disrupt : Nat) : State :=
  ((dev.setFs 7 [(F.FLT_INJ_ENABLE, 1), (F.FLT_INJ_PERIOD_S, 1), (F.FLT_INJ_CLASS, cls), (F.FLT_INJ_TARGET, target)]).setF
    F.FLT_CFG_INJECT_DISRUPT 0 disrupt).setF F.CLK_TIME_US 0 1000000
def retrained (fails : Nat) : State := dev.setFlt fun x => { x with retrain := [3], fails := [(3, fails)], selftest := true }
def ckptRun (op : Nat) : CkptRun := ⟨op, 5, 1, 2, 3⟩

theorem wit_WatchdogsResetsAndRepairs_faults :
    ((injecting 1 64 0).on F.FLT_INJ_ENABLE 7 = true ∧ (injecting 1 64 0).f F.FLT_INJ_PERIOD_S 7 ≠ 0 ∧
      (injecting 1 64 0).due (SMap.get 0 (injecting 1 64 0).flt.injectAt 7) (1000000 * (injecting 1 64 0).f F.FLT_INJ_PERIOD_S 7) = true ∧
      (injecting 1 64 0).f F.FLT_INJ_CLASS 7 = 1 ∧ (injecting 1 64 0).flt.resets = [] ∧ 64 ≤ (injecting 1 64 0).f F.FLT_INJ_TARGET 7 ∧
      (injecting 1 63 0).f F.FLT_INJ_TARGET 7 < 64 ∧ (injecting 8 0 0).f F.FLT_INJ_CLASS 7 = 8 ∧ (injecting 8 0 0).chipFenced = false ∧
      (injecting 6 0 0).f F.FLT_INJ_CLASS 7 = 6 ∧ (injecting 6 0 0).on F.FLT_CFG_INJECT_DISRUPT 0 = false ∧
      (injecting 7 0 1).f F.FLT_INJ_CLASS 7 = 7 ∧ (injecting 7 0 1).on F.FLT_CFG_INJECT_DISRUPT 0 = true) ∧
    ((retrained 0).flt.retrain.contains 3 = true ∧ SMap.get 0 (retrained 1).flt.fails 3 < 2 ∧ 2 ≤ SMap.get 0 (retrained 2).flt.fails 3 ∧
      dev.flt.retrain.contains 3 = false ∧ (retrained 0).flt.selftest = true ∧ dev.flt.selftest = false ∧ dev.flt.ckpt = none) ∧
    (dev.setFlt fun x => { x with ckpt := some (ckptRun 1) }).flt.ckpt = some (ckptRun 1) ∧ (ckptRun 2).op ≠ 1 := by decide +kernel

/-! Pins, clocks and power -/

def lowPwr : State := dev.setPins fun p => { p with pwrBad := true }
def noAon : State := dev.setPins fun p => { p with aonLost := true }
def tripped : State := dev.setPins fun p => { p with pwrBad := true, tripLow := true }
def lowReset : State := dev.setPins fun p => { p with resetLow := true }

theorem wit_PinsClocksAndPower_pins :
    (lowPwr.pins.pwrBad = true ∧ lowPwr.pins.tripLow = false ∧ lowPwr.pins.pcycLow = false ∧ tripped.pins.tripLow = true) ∧
    (noAon.pins.aonLost = true ∧ noAon.pins.pwrBad = false ∧ noAon.pins.tripLow = false ∧ noAon.pins.pcycLow = false) ∧
    (dev.pins.aonLost = false ∧ dev.pins.coreLost = false ∧ (dev.setPins fun p => { p with coreLost := true }).pins.coreLost = true ∧
      dev.live = true ∧ dev.sdsDown 0 = false ∧ dev.sdsDown 1 = false ∧ dev.pins.resetLow = false ∧ lowReset.pins.resetLow = true ∧
      lowReset.pins.pwrBad = false ∧ lowReset.live = false ∧ (dev.setF F.SEC_BOOT_STAT_STATE 0 bootRom).bootState = bootRom ∧
      (dev.setF F.SEC_BOOT_STAT_STATE 0 bootFirmware).bootState ≠ bootRom) := by decide +kernel

/-- Region r at a temperature in quarters of a degree. -/
def heated (r t : Nat) : State := dev.setF F.PWR_TEMP_TEMP r t
/-- Press stack 0 idle since clock 0, in a depth, that may stop. -/
def idleAt (st t : Nat) : State :=
  (((dev.setF F.CLK_DOM_STATE 14 st).setF F.CLK_IDLE_GATE_US 0 10).setF F.CLK_IDLE_STOP_US 0 20).setF F.CLK_TIME_US 0 t

theorem wit_PinsClocksAndPower_power :
    (tripPoint 14 ≤ (heated 14 1600).temp 14 ∨ tripPoint 14 ≤ (heated 14 400).temp 14) ∧ dev.temp 14 < tripPoint 14 ∧
    ((idleAt 0 10).maySleep 14 = true ∧ (idleAt 0 10).on F.CLK_DOM_WAKING 14 = false ∧ (idleAt 0 10).domBusy 14 = false ∧
      (idleAt 0 10).depth 14 = 0 ∧ 1 ≤ (idleAt 0 10).maxDepth 14 ∧
      (idleAt 0 10).due ((idleAt 0 10).dom 14).idleAt ((idleAt 0 10).idleTimes 14).1 = true ∧
      (idleAt 0 9).due ((idleAt 0 9).dom 14).idleAt ((idleAt 0 9).idleTimes 14).1 = false) ∧
    ((idleAt 1 30).depth 14 = 1 ∧ 2 ≤ (idleAt 1 30).maxDepth 14 ∧
      (idleAt 1 30).due ((idleAt 1 30).dom 14).idleAt (((idleAt 1 30).idleTimes 14).1 + ((idleAt 1 30).idleTimes 14).2) = true) ∧
    (((List.range 44).all fun d => dev.depth d == 0 || !dev.domBusy d) = true ∧ dev.pwr.wakeQ = [] ∧ dev.pwr.lastWake = none) ∧
    ((dev.setF F.CLK_DOM_WAKING 13 1).on F.CLK_DOM_WAKING 13 = true ∧ (idleAt 0 100).due (idleAt 0 100).pwr.throttleAt 100 = true ∧
      dev.due dev.pwr.throttleAt 100 = false ∧ dev.pwr.stepAt = dev.now ∧ (idleAt 0 5).pwr.stepAt ≠ (idleAt 0 5).now) := by decide +kernel

/-- Stack 14 waits for its wake, with no bound near: nothing was drawn and no wake is under way. -/
def wakes14 : State := dev.setPwr fun p => { p with wakeQ := [14], doms := [(14, ⟨0, none, none⟩)] }

theorem wit_PinsClocksAndPower_wake :
    wakes14.pwr.wakeQ = 14 :: [] ∧ wakes14.pwr.lastWake = none ∧
      ((List.range 44).all fun d => wakes14.depth d == 0 || !wakes14.domBusy d) = true ∧ (wakes14.dom 14).wakeReq = none := by decide +kernel

/-- The same wake, asked for this µs, after 10 µs of 40 A. -/
def wakesLate : State := (dev.setF F.PWR_GOV_STEP_UJ 0 1).setPwr fun p =>
  { p with wakeQ := [14], doms := [(14, ⟨0, some 0, none⟩)], draws := [0, 0, 0, 0, 0, 4000, 4000, 4000, 4000, 4000] }

theorem wit_PinsClocksAndPower_holdsWake :
    (∀ e, wakes14.holdsWake 14 e = false) ∧ ∀ e, wakesLate.holdsWake 14 e = true := by
  have h : wakesLate.stepUj < wakesLate.windowEnergies.foldl max 0 := by decide +kernel
  have asked : (wakesLate.dom 14).wakeReq = some 0 := by decide +kernel
  have near : wakesLate.due 0 (wakeBound 14) = false := by decide +kernel
  have none_ : (wakes14.dom 14).wakeReq = none := by decide +kernel
  refine ⟨fun e => ?_, fun e => ?_⟩
  · unfold State.holdsWake
    rw [none_, Bool.and_false]
  · unfold State.holdsWake
    rw [asked]
    simp only [near, Bool.not_false, Bool.and_true, decide_eq_true_eq]
    omega

/-! Entries -/

theorem wit_EntriesAreSeenFromBirthToDeath :
    (⟨[], 1, 0, 3, 5⟩ : Entry).ok = true ∧ (⟨[], 1, 0, 2 ^ 31, 5⟩ : Entry).ok = false ∧
      (⟨[], 1, 0, 3, 5⟩ : Entry).visible 13 10 = true ∧ (⟨[], 1, 0, 3, 5⟩ : Entry).visible 15 10 = false ∧
      (⟨[], 1, 0, 3, noDeath⟩ : Entry).visible (2 ^ 40) 10 = true ∧ (⟨[], 1, 0, 3, 5⟩ : Entry).visible 12 10 = false := by decide +kernel

theorem wit_RollbackCountStopsAtTheFirstZero : rollbackCount 7 = 3 ∧ rollbackCount (2 ^ 64 - 1) = 64 ∧ rollbackCount 0xF7 = 3 := by decide +kernel

end Sys2Proof.Machine.Tests
end

section
/-! PROOFS. The register map, the fields of a write, and the registers at reset (R5, R9, R10, R13, R14, R531). -/
namespace Sys2Proof.Machine

/-- Settles O9: the places of the registers lie apart, so that an address belongs to one place of one register. -/
theorem oneRegisterPerAddress : Obligations.OneRegisterPerAddress := by
  unfold Obligations.OneRegisterPerAddress
  exact ⟨fun _ _ _ _ hi hj e => Reg.addr_inj hi hj e,
    fun r i hi => ⟨Reg.addr_mod r i, Reg.addr_lt hi, Reg.find_addr r i hi⟩⟩

/-- A field after a write, by its access type (R10, R14). -/
theorem Reg.bits_merged {r : Reg} {i : Nat} {f : Fld} (m : f ∈ r.fields i) (old w mask : Nat) :
    bits (r.merged i old w mask) f.hi f.lo = match f.acc with
      | .rw =>
        if f.rule.allows (bits (clearBits old mask + (w &&& mask)) f.hi f.lo) then bits (clearBits old mask + (w &&& mask)) f.hi f.lo
        else bits old f.hi f.lo
      | .w1c => clearBits (bits old f.hi f.lo) (bits (w &&& mask) f.hi f.lo)
      | _ => bits old f.hi f.lo := by
  rw [Reg.merged_eq_fieldPass, bits_fieldPass _ (fun _ _ _ _ => rfl) (Reg.fields_apart r i) m]
  cases f.acc
  case rw =>
    by_cases h : f.rule.allows (bits (clearBits old mask + (w &&& mask)) f.hi f.lo) = true
    · simp only [h, if_true]
      exact Nat.mod_eq_of_lt (bits_lt_field _ _ _)
    · simp only [h, Bool.false_eq_true, if_false]
  case w1c => exact Nat.mod_eq_of_lt (Nat.lt_of_le_of_lt (clearBits_le _ _) (bits_lt_field _ _ _))
  all_goals rfl

/-- A write keeps the bits that no field names (R13). -/
theorem Reg.testBit_merged_reserved {r : Reg} {i k : Nat} (h : ∀ f ∈ r.fields i, ¬ (f.lo ≤ k ∧ k ≤ f.hi)) (old w mask : Nat) :
    (r.merged i old w mask).testBit k = old.testBit k := by
  rw [Reg.merged_eq_fieldPass, testBit_fieldPass_of_apart _ k (Reg.fields_apart r i) h]

/-- Settles O10: a write is a pass over fields that lie apart, so that each field takes its own value and no other bit changes. -/
theorem writesReachOnlyWritableFields : Obligations.WritesReachOnlyWritableFields := by
  unfold Obligations.WritesReachOnlyWritableFields
  intro r i old w mask _ _
  exact ⟨fun f m => Reg.bits_merged m old w mask, fun k h => Reg.testBit_merged_reserved h old w mask⟩

/-- At reset no register is listed, so that each holds its reset value. -/
theorem State.reg_reset (r : Reg) (i : Nat) : State.reset.reg r i = r.resetVal i := rfl

theorem State.f_reset (x : Fld) (i : Nat) : State.reset.f x i = bits (x.reg.resetVal i) x.hi x.lo := by
  rw [State.f, State.reg_reset]

/-- Settles O6: reset lists no register, and leaves no request, image, job or waiting command. -/
theorem resetLeavesTheResetColumn : Obligations.ResetLeavesTheResetColumn := by
  unfold Obligations.ResetLeavesTheResetColumn
  refine ⟨fun r i _ => State.reg_reset r i, rfl, rfl, rfl, rfl, rfl, ?_, ?_, fun c n => ⟨?_, ?_⟩⟩
  · rw [State.nlState, State.f_reset]; decide
  · rw [State.nlState, State.f_reset]; decide
  · rw [State.ctxState, State.f_reset]
    change bits (Reg.ctxStat.resetVal 0) F.CTX_STAT_STATE.hi F.CTX_STAT_STATE.lo = ctxDisabled
    decide
  · rw [State.trlState, State.f_reset]
    change bits (Reg.trlStat.resetVal 0) F.TRL_STAT_STATE.hi F.TRL_STAT_STATE.lo = trlEmpty
    decide

end Sys2Proof.Machine
end

section
/-! PROOFS. Writes that only store the fields of their register (R9, R10, R12). -/
namespace Sys2Proof.Machine

section
variable (s : State)

theorem storesOnly_ne_errFirst {r : Reg} (h : storesOnly r = true) : r ≠ .topErrFirst := by
  rintro rfl
  exact absurd h (by decide)

theorem storesOnly_ne_intStat {r : Reg} (h : storesOnly r = true) : r ≠ .topIntStat := by
  rintro rfl
  exact absurd h (by decide)

theorem refusesWrite_of_storesOnly {r : Reg} (h : storesOnly r = true) (i old new : Nat) : s.refusesWrite r i old new = false := by
  cases r <;> simp [storesOnly] at h <;> rfl

theorem ignoresWrite_of_storesOnly {r : Reg} (h : storesOnly r = true) (i new : Nat) : s.ignoresWrite r i new = false := by
  cases r <;> simp [storesOnly] at h <;> rfl

theorem applyWrite_of_storesOnly {r : Reg} (h : storesOnly r = true) (src : Src) (i w m : Nat) :
    s.applyWrite src r i w m = s.setReg r i (r.merged i (s.reg r i) w m) := by
  cases r <;> simp [storesOnly] at h <;> rfl

theorem State.f_setReg_of_ne {r : Reg} {x : Fld} {i j : Nat} (v : Nat) (h : x.reg.addr j ≠ r.addr i) :
    (s.setReg r i v).f x j = s.f x j := by
  unfold State.f
  rw [State.reg_setReg_of_ne s v h]

/-- The address of the first event stays where the register written is not the one that holds it (R529). -/
theorem firstAt_setReg {r : Reg} {i : Nat} (hi : i < r.count) (h : r ≠ .topErrFirst) (v a : Nat) :
    (s.setReg r i v).firstAt (s.on F.TOP_ERR_FIRST_VALID 0) a = s.setReg r i v := by
  have e : (s.setReg r i v).on F.TOP_ERR_FIRST_VALID 0 = s.on F.TOP_ERR_FIRST_VALID 0 := by
    unfold State.on
    rw [State.f_setReg_of_ne s v (Reg.addr_ne (Ne.symm h) (by decide) hi)]
  rw [State.firstAt, e]
  cases s.on F.TOP_ERR_FIRST_VALID 0 <;> rfl

/-- A write of all or of half of a register that only stores its fields sets that register alone. -/
theorem regWrite_of_storesOnly {r : Reg} {i : Nat} {src : Src} {wide upper : Bool} (h : storesOnly r = true) (ha : s.mayAccess src = true)
    (hi : i < r.count) (hw : wide = true → upper = false) (v : Nat) :
    s.regWrite src (halfAddr r i upper) wide v =
      s.setReg r i (r.merged i (s.reg r i) (halfBits wide upper v) (halfMask wide upper)) := by
  rw [regWrite_half s ha hi hw (refusesWrite_of_storesOnly s h _ _ _) (ignoresWrite_of_storesOnly s h _ _),
    applyWrite_of_storesOnly s h, firstAt_setReg s hi (storesOnly_ne_errFirst h), ite_self]

end

/-- Settles O11: such a write sets the one register, and the end of the command leaves all but TOP_INT_STAT as it is. -/
theorem registerWriteStoresItsFields : Obligations.RegisterWriteStoresItsFields := by
  unfold Obligations.RegisterWriteStoresItsFields
  intro s src r i wide upper v hl ha h hi hw
  have apart : r.addr i ≠ Reg.topIntStat.addr 0 := Reg.addr_ne (storesOnly_ne_intStat h) hi (by decide)
  refine ⟨s.after (s.setReg r i (r.merged i (s.reg r i) (halfBits wide upper v.toNat) (halfMask wide upper))), ?_, ?_, ?_,
    State.after_mem s _, State.after_ecc s _, State.after_ctxs s _, State.after_idxs s _, State.after_press s _,
    State.after_cellar s _, State.after_fab s _, State.after_pins s _⟩
  · rw [exec_registerWrite, execRegisterWrite, gated_live _ _ hl, halfAddr_toNat upper hi, regWrite_of_storesOnly s h ha hi hw]
  · rw [State.after_reg s _ r i apart, State.reg_setReg_self]
  · intro q j hq hj
    rw [State.after_reg s _ q j hj, State.reg_setReg_of_ne s _ hq]

end Sys2Proof.Machine
end

section
/-! PROOFS. Reads, and the RC fields that they clear (R10, R12, R525). -/
namespace Sys2Proof.Machine

section
variable (s : State)

/-- A field after a read of its register that clears what it returns: an RC field loses the bits under the mask. -/
theorem State.f_readClears {r : Reg} {i : Nat} {f : Fld} (m : f ∈ r.fields i) (mask : Nat) :
    (s.readClears r i mask).f f i = if f.acc = .rc then clearBits (s.f f i) (bits mask f.hi f.lo) else s.f f i := by
  unfold State.readClears State.f
  rw [Reg.fields_reg r i f m, State.reg_setReg_self, Reg.without_eq_fieldPass,
    Nat.mod_eq_of_lt (fieldPass_lt _ (Reg.fields_apart r i) (State.reg_lt s r i)),
    bits_fieldPass _ (fun _ _ _ e => by rw [e]) (Reg.fields_apart r i) m]
  by_cases h : f.acc = .rc
  · simp only [h, beq_self_eq_true, if_true]
    exact Nat.mod_eq_of_lt (Nat.lt_of_le_of_lt (clearBits_le _ _) (bits_lt_field _ _ _))
  · simp only [h, beq_iff_eq, if_false]

theorem State.reg_readClears_of_ne {r q : Reg} {i j : Nat} (mask : Nat) (h : q.addr j ≠ r.addr i) :
    (s.readClears r i mask).reg q j = s.reg q j := State.reg_setReg_of_ne s _ h

/-- Forming the value of a read may draw a free number; registers and memory stay. -/
theorem State.regNow_frame (r : Reg) (i : Nat) : (s.regNow r i).1.regs = s.regs ∧ (s.regNow r i).1.mem = s.mem := by
  unfold State.regNow
  split
  case h_8 => split <;> exact ⟨rfl, rfl⟩
  all_goals exact ⟨rfl, rfl⟩

/-- A read of all or of half of a register clears what it returns. -/
theorem regRead_half {r : Reg} {i : Nat} {src : Src} {wide upper : Bool} (ha : s.mayAccess src = true) (hi : i < r.count)
    (hw : wide = true → upper = false) :
    (s.regRead src (halfAddr r i upper) wide).1 = (s.regNow r i).1.readClears r i (halfMask wide upper) := by
  have l := halfAddr_lt upper hi
  unfold State.regRead
  rw [mayAccess_eq s ha, show decide (2 ^ 26 ≤ halfAddr r i upper) = false by simp; omega, find_half upper hi,
    accessAligned_half r i hw, accessMask_half hw]
  rfl

/-- Two fields of a list of fields that lie apart are the same or share no bit. -/
theorem fieldsApart_of_ne {l : List Fld} (h : fieldsApart l = true) {f g : Fld} (mf : f ∈ l) (mg : g ∈ l) (n : f ≠ g) :
    f.hi < g.lo ∨ g.hi < f.lo := by
  induction l with
  | nil => cases mf
  | cons x l ih =>
    simp only [fieldsApart, Bool.and_eq_true, List.all_eq_true, Bool.or_eq_true, decide_eq_true_eq] at h
    obtain ⟨⟨-, beside⟩, rest⟩ := h
    rcases List.mem_cons.1 mf with rfl | mf' <;> rcases List.mem_cons.1 mg with rfl | mg'
    · exact absurd rfl n
    · exact beside g mg'
    · exact (beside f mf').symm
    · exact ih rest mf' mg'

/-- A field of TOP_INT_STAT that follows no source reads after a command what its effect left in it (R525). -/
theorem State.after_f_intStat (t : State) {x : Fld} (m : x ∈ Reg.topIntStat.fields 0) (hi : x ≠ F.TOP_INT_STAT_INDEX)
    (he : x ≠ F.TOP_INT_STAT_ERROR) : (s.after t).f x 0 = t.f x 0 := by
  rw [State.f_of_regs (State.after_regs s t), State.follow, State.f_setFs_of_apart]
  · rfl
  · intro y k
    rw [Reg.fields_reg .topIntStat 0 x m]
    simp only [List.mem_cons, List.not_mem_nil, or_false] at k
    rcases k with rfl | rfl <;> rfl
  · rfl
  · intro y k
    simp only [List.mem_cons, List.not_mem_nil, or_false] at k
    have beside : ∀ y ∈ Reg.topIntStat.fields 0, x ≠ y → x.hi < y.lo ∨ y.hi < x.lo :=
      fun _ => fieldsApart_of_ne (Reg.fields_apart .topIntStat 0) m
    rcases k with rfl | rfl
    · exact beside F.TOP_INT_STAT_INDEX (by decide) hi
    · exact beside F.TOP_INT_STAT_ERROR (by decide) he

/-- Where a command leaves the sources of INDEX and ERROR and the state before it agreed with them, so do the two fields after it. -/
theorem State.after_f_sources (t : State) (h : Inv s)
    (hs : ∀ (q : Reg) (j : Nat), q.addr j ≠ Reg.topIntStat.addr 0 → t.reg q j = s.reg q j) :
    (s.after t).f F.TOP_INT_STAT_INDEX 0 = s.f F.TOP_INT_STAT_INDEX 0 ∧
      (s.after t).f F.TOP_INT_STAT_ERROR 0 = s.f F.TOP_INT_STAT_ERROR 0 := by
  obtain ⟨hIndex, hError, -, -⟩ := h
  obtain ⟨aIndex, aError, -, -⟩ := State.after_inv s t
  have o : ∀ (q : Reg) (j : Nat), q.addr j ≠ Reg.topIntStat.addr 0 → (s.after t).reg q j = s.reg q j :=
    fun q j n => by rw [State.after_reg s t q j n, hs q j n]
  have pend : ∀ j, (s.after t).reg .topIdxPend j = s.reg .topIdxPend j := fun j => o _ _ (by unfold Reg.addr Reg.place; simp only; omega)
  constructor
  · rw [aIndex, hIndex]
    simp only [pend]
  · rw [aError, hError, o _ _ (by decide)]

/-- The end of a command leaves the fields of a register as the read that the command made left them, TOP_INT_STAT included: it has no
RC field, and its INDEX and ERROR agreed with their sources before. -/
theorem State.after_f_readClears {t : State} {r : Reg} {i : Nat} (hi : i < r.count) (ht : t.regs = s.regs)
    (hInv : r = .topIntStat → Inv s) (mask : Nat) {f : Fld} (m : f ∈ r.fields i) : (s.after (t.readClears r i mask)).f f i = (t.readClears r i mask).f f i := by
  by_cases h : r = .topIntStat
  · subst h
    obtain rfl : i = 0 := Nat.lt_one_iff.1 hi
    obtain ⟨keepsIndex, keepsError⟩ := State.after_f_sources s (t.readClears .topIntStat 0 mask) (hInv rfl) fun q j n => by
      rw [State.reg_readClears_of_ne t mask n, State.reg_of_regs ht]
    have same : ∀ {g : Fld}, g ∈ Reg.topIntStat.fields 0 → g.acc ≠ .rc → (t.readClears .topIntStat 0 mask).f g 0 = s.f g 0 :=
      fun k n => by rw [State.f_readClears t k, if_neg n, State.f_of_regs ht]
    by_cases e : f = F.TOP_INT_STAT_INDEX
    · subst e
      rw [keepsIndex, same m (by decide)]
    · by_cases e' : f = F.TOP_INT_STAT_ERROR
      · subst e'
        rw [keepsError, same m (by decide)]
      · exact State.after_f_intStat s _ m e e'
  · exact State.after_f s _ f i (by rw [Reg.fields_reg r i f m]; exact Reg.addr_ne h hi (by decide))

end

/-- Settles O14: a read is a pass over the RC fields of its register; INDEX and ERROR of TOP_INT_STAT stay by the invariant. -/
theorem readsClearWhatTheyReturn : Obligations.ReadsClearWhatTheyReturn := by
  unfold Obligations.ReadsClearWhatTheyReturn
  intro s src r i wide upper hl ha hi hw hInv
  obtain ⟨regs, mem⟩ := State.regNow_frame s r i
  refine ⟨s.after ((s.regNow r i).1.readClears r i (halfMask wide upper)), ?_, ?_, ?_, ?_⟩
  · rw [exec_rcRead, execRcRead, gated_live _ _ hl, halfAddr_toNat upper hi, regRead_half s ha hi hw]
  · intro f m
    rw [State.after_f_readClears s hi regs hInv _ m, State.f_readClears _ m, State.f_of_regs regs]
  · intro q j hq hj
    rw [State.after_reg s _ q j hj, State.reg_readClears_of_ne _ _ hq, State.reg_of_regs regs]
  · rw [State.after_mem, State.readClears, State.setReg_mem, mem]

end Sys2Proof.Machine
end

section
/-! PROOFS. Recorded events, and accesses that are refused or come from a closed port (R9, R522, R528, R529, R548). -/
namespace Sys2Proof.Machine

section
variable (s : State)

/-- An event counted: its bit of TOP_ERR_SUM and TOP_ERR_CNT, the first stage of recording it (R529). -/
def State.countErr (k : ErrKind) : State := (s.setF k.bit 0 1).addF F.TOP_ERR_CNT_COUNT 0 1

/-- What TOP_ERR_FIRST takes of an event (R529). -/
def firstErr (k : ErrKind) (src : Src) (a : Nat) (w : Bool) : List (Fld × Nat) :=
  [(F.TOP_ERR_FIRST_ADDR, a), (F.TOP_ERR_FIRST_KIND, k.code), (F.TOP_ERR_FIRST_WRITE, b2n w), (F.TOP_ERR_FIRST_SOURCE, srcCode src),
    (F.TOP_ERR_FIRST_VALID, 1)]

theorem firstErr_reg (k : ErrKind) (src : Src) (a : Nat) (w : Bool) : ∀ x ∈ firstErr k src a w, x.1.reg = .topErrFirst := by
  intro x m
  simp only [firstErr, List.mem_cons, List.not_mem_nil, or_false] at m
  rcases m with rfl | rfl | rfl | rfl | rfl <;> rfl

theorem ErrKind.bit_reg (k : ErrKind) : k.bit.reg = .topErrSum := by cases k <;> rfl

/-- Counting an event leaves TOP_ERR_FIRST. -/
theorem State.reg_countErr_first (k : ErrKind) : (s.countErr k).reg .topErrFirst 0 = s.reg .topErrFirst 0 := by
  rw [State.countErr, State.reg_addF_of_ne _ _ (by decide), State.reg_setF_of_ne _ _ (by rw [ErrKind.bit_reg]; decide)]

theorem State.f_countErr_bit (k : ErrKind) : (s.countErr k).f k.bit 0 = 1 := by
  have same := State.f_setF_self s k.bit 0 1 (by cases k <;> decide) (by cases k <;> decide)
  rw [State.countErr, State.addF, State.f_setF_of_ne _ _ (by rw [ErrKind.bit_reg]; decide), same]
  cases k <;> decide

theorem State.f_countErr_count (k : ErrKind) :
    (s.countErr k).f F.TOP_ERR_CNT_COUNT 0 = min (2 ^ 32 - 1) (s.f F.TOP_ERR_CNT_COUNT 0 + 1) := by
  rw [State.countErr, State.f_addF_self _ _ _ _ (by decide) (by decide), State.f_setF_of_ne _ _ (by rw [ErrKind.bit_reg]; decide)]
  rfl

theorem State.on_countErr_valid (k : ErrKind) : (s.countErr k).on F.TOP_ERR_FIRST_VALID 0 = s.on F.TOP_ERR_FIRST_VALID 0 := by
  unfold State.on State.f
  rw [show F.TOP_ERR_FIRST_VALID.reg = .topErrFirst from rfl, State.reg_countErr_first]

/-- While VALID is 1, TOP_ERR_FIRST keeps the earlier event: the event is counted alone. -/
theorem State.recordErr_later {k : ErrKind} (src : Src) (a : Nat) (w : Bool) (h : s.f F.TOP_ERR_FIRST_VALID 0 ≠ 0) :
    s.recordErr k src a w = s.countErr k :=
  recordErr_first s src a w ((State.on_countErr_valid s k).trans (decide_eq_true h))

/-- While VALID is 0, the event is counted and TOP_ERR_FIRST takes it. -/
theorem State.recordErr_earliest {k : ErrKind} (src : Src) (a : Nat) (w : Bool) (h : s.f F.TOP_ERR_FIRST_VALID 0 = 0) :
    s.recordErr k src a w = (s.countErr k).setFs 0 (firstErr k src a w) :=
  recordErr_new s src a w fun e => of_decide_eq_true ((State.on_countErr_valid s k).symm.trans e) h

/-- Outside TOP_ERR_FIRST, recording an event comes to counting it. -/
theorem State.f_recordErr_count {k : ErrKind} (src : Src) (a : Nat) (w : Bool) {x : Fld} (h : x.reg.addr 0 ≠ Reg.topErrFirst.addr 0) :
    (s.recordErr k src a w).f x 0 = (s.countErr k).f x 0 := by
  by_cases v : s.f F.TOP_ERR_FIRST_VALID 0 = 0
  · rw [State.recordErr_earliest s src a w v]
    unfold State.f
    rw [State.reg_setFs_of_ne _ _ _ _ _ fun y m => by rw [firstErr_reg k src a w y m]; exact h]
  · rw [State.recordErr_later s src a w v]

/-- Each field of TOP_ERR_FIRST after the first event that it takes. -/
theorem State.f_recordErr_earliest {k : ErrKind} {src : Src} {a : Nat} {w : Bool} (h : s.f F.TOP_ERR_FIRST_VALID 0 = 0) {x : Fld} {v : Nat}
    (m : (x, v) ∈ firstErr k src a w) : (s.recordErr k src a w).f x 0 = v % 2 ^ (x.hi + 1 - x.lo) := by
  rw [State.recordErr_earliest s src a w h, State.f_setFs_of_mem _ 0 .topErrFirst (firstErr_reg k src a w) rfl m]

/-- A write that a rule refuses is recorded, and is nothing else. -/
theorem regWrite_refused {r : Reg} {i : Nat} {src : Src} (ha : s.mayAccess src = true) (hi : i < r.count) (v : Nat)
    (h : s.refusesWrite r i (s.reg r i) (r.merged i (s.reg r i) (v % 2 ^ 64) (2 ^ 64 - 1)) = true) :
    s.regWrite src (r.addr i) true v = s.recordErr .access src (r.addr i) true := by
  have l := Reg.addr_lt hi
  have al := accessAligned_half r i (wide := true) (upper := false) (fun _ => rfl)
  have fi := find_half false hi
  simp only [halfAddr, Bool.false_eq_true, if_false, Nat.add_zero] at al fi
  unfold State.regWrite
  rw [mayAccess_eq s ha, show decide (2 ^ 26 ≤ r.addr i) = false by simp; omega, fi, al, accessMask_addr]
  simp only [Bool.or_self, Bool.false_eq_true, Bool.not_true, if_false, accessBits, if_true, h]

/-- A register whose writes a rule can refuse holds no part of the error summary, so that recording the refusal leaves it. -/
theorem refusesWrite_reg_recordErr {r : Reg} {i old new : Nat} (hi : i < r.count) (h : s.refusesWrite r i old new = true) (src : Src)
    (a : Nat) : (s.recordErr .access src a true).reg r i = s.reg r i := by
  have other : r ≠ .topErrSum ∧ r ≠ .topErrCnt ∧ r ≠ .topErrFirst := by
    refine ⟨?_, ?_, ?_⟩ <;> rintro rfl <;> exact absurd h Bool.false_ne_true
  obtain ⟨sum, cnt, first⟩ := other
  exact State.recordErr_reg s _ src a true r i (Reg.addr_ne sum hi (by decide)) (Reg.addr_ne cnt hi (by decide))
    (Reg.addr_ne first hi (by decide))

/-- While the JTAG port is closed, an access from it changes nothing (R548). -/
theorem regWrite_closed (h : s.jtagOpen = false) (a : Nat) (wide : Bool) (v : Nat) : s.regWrite .jtag a wide v = s := by
  rw [State.regWrite, h]
  rfl

theorem regRead_closed (h : s.jtagOpen = false) (a : Nat) (wide : Bool) : (s.regRead .jtag a wide).1 = s := by
  rw [State.regRead, h]
  rfl

end

/-- Settles O13: a refusal is a recorded event in registers that no rule protects, and a closed JTAG port is no source. -/
theorem refusedAccessesChangeNothing : Obligations.RefusedAccessesChangeNothing := by
  unfold Obligations.RefusedAccessesChangeNothing
  refine ⟨?_, ?_, ?_⟩
  · intro s src r i v hl ha hi h
    refine ⟨?_, refusesWrite_reg_recordErr s hi h src _⟩
    rw [exec_registerWrite, execRegisterWrite, gated_live _ _ hl, addr_toNat hi,
      regWrite_refused s ha hi v.toNat (by rw [Nat.mod_eq_of_lt v.isLt]; exact h)]
  · intro s k src a w
    refine ⟨?_, ?_, fun h => ⟨?_, ?_, ?_, ?_, ?_⟩, fun h => ?_⟩
    · rw [State.f_recordErr_count s src a w (by rw [ErrKind.bit_reg]; decide), State.f_countErr_bit]
    · rw [State.f_recordErr_count s src a w (by decide), State.f_countErr_count]
    · exact State.f_recordErr_earliest s h (by simp [firstErr])
    · rw [State.f_recordErr_earliest s h (v := k.code) (by simp [firstErr])]
      cases k <;> rfl
    · rw [State.f_recordErr_earliest s h (v := b2n w) (by simp [firstErr])]
      cases w <;> rfl
    · rw [State.f_recordErr_earliest s h (v := srcCode src) (by simp [firstErr])]
      cases src <;> rfl
    · exact State.f_recordErr_earliest s h (v := 1) (by simp [firstErr])
    · rw [State.recordErr_later s src a w h, State.reg_countErr_first]
  · intro s a wide v hl h
    constructor
    · rw [exec_registerWrite, execRegisterWrite, gated_live _ _ hl, regWrite_closed s h]
    · rw [exec_rcRead, execRcRead, gated_live _ _ hl, regRead_closed s h]

end Sys2Proof.Machine
end

section
/-! PROOFS. Taking a descriptor: the read of the ring, the new request and the head (R119, R135, R343). -/
namespace Sys2Proof.Machine

section
variable (s : State)

/-! The counts of a read change registers alone (R119, R135) -/

/-- A state that differs from this one in its registers alone. -/
def State.regsOnly (t : State) : Prop := t = { s with regs := t.regs }

theorem State.regsOnly_frame {t : State} (h : s.regsOnly t) : t.mem = s.mem ∧ t.ecc = s.ecc ∧ t.ctxs = s.ctxs := by
  rw [show t = { s with regs := t.regs } from h]
  exact ⟨rfl, rfl, rfl⟩

theorem State.regsOnly_trans {t u : State} (h : s.regsOnly t) (k : t.regsOnly u) : s.regsOnly u := by
  unfold State.regsOnly at h k ⊢
  rw [k, h]

theorem State.regsOnly_addF (x : Fld) (i n : Nat) : s.regsOnly (s.addF x i n) := rfl

theorem State.regsOnly_setFs (i : Nat) (l : List (Fld × Nat)) : s.regsOnly (s.setFs i l) := State.setFs_frame s i l

/-- One codeword read: its count, and the log where it holds nothing yet. -/
theorem State.noteCw_regsOnly (w : Nat) : s.regsOnly (s.noteCw w) := by
  have counted : ∀ (x : Fld) (u : Nat) (l : List (Fld × Nat)), s.regsOnly
      (if (s.addF x u 1).on F.PRESS_ECC_LOG_VALID u then s.addF x u 1 else (s.addF x u 1).setFs u l) := by
    intro x u l
    split
    · exact State.regsOnly_addF s x u 1
    · exact State.regsOnly_trans s (State.regsOnly_addF s x u 1) (State.regsOnly_setFs _ u l)
  unfold State.noteCw
  dsimp only
  split
  · rfl
  all_goals exact counted _ _ _

theorem State.foldl_noteCw_regsOnly (l : List Nat) : s.regsOnly (l.foldl State.noteCw s) := by
  induction l generalizing s with
  | nil => rfl
  | cons w l ih => exact State.regsOnly_trans s (State.noteCw_regsOnly s w) (ih _)

theorem State.noteBytes_regsOnly (a len : Nat) : s.regsOnly (s.noteBytes a len) := by
  unfold State.noteBytes
  split
  · rfl
  · exact State.foldl_noteCw_regsOnly s _

@[simp] theorem State.noteBytes_mem (a len : Nat) : (s.noteBytes a len).mem = s.mem := by
  obtain ⟨h, -, -⟩ := State.regsOnly_frame s (State.noteBytes_regsOnly s a len)
  exact h
@[simp] theorem State.noteBytes_ecc (a len : Nat) : (s.noteBytes a len).ecc = s.ecc := by
  obtain ⟨-, h, -⟩ := State.regsOnly_frame s (State.noteBytes_regsOnly s a len)
  exact h
@[simp] theorem State.noteBytes_ctx (a len c : Nat) : (s.noteBytes a len).ctx c = s.ctx c := by
  obtain ⟨-, -, h⟩ := State.regsOnly_frame s (State.noteBytes_regsOnly s a len)
  rw [State.ctx, h, ← State.ctx]

/-! Counting what a context has taken leaves memory, contexts and the head of the ring -/

@[simp] theorem State.setF_ctx (x : Fld) (i v c : Nat) : (s.setF x i v).ctx c = s.ctx c := rfl

@[simp] theorem State.setTaken_mem (c : Nat) : (s.setTaken c).mem = s.mem := by rw [State.setTaken, State.setF_mem]
@[simp] theorem State.setTaken_ecc (c : Nat) : (s.setTaken c).ecc = s.ecc := by rw [State.setTaken, State.setF_ecc]
@[simp] theorem State.setTaken_ctx (c k : Nat) : (s.setTaken c).ctx k = s.ctx k := by rw [State.setTaken, State.setF_ctx]

/-- The count of taken requests lies beside the head of the ring. -/
theorem State.f_setTaken_head (c : Nat) : (s.setTaken c).f F.CTX_STAT_SQ_HEAD c = s.f F.CTX_STAT_SQ_HEAD c :=
  State.f_setF_beside s (x := F.CTX_STAT_TAKEN) _ rfl (by decide) (by decide) (by decide)

/-! The next descriptor (R343, R422) -/

/-- Where the next descriptor of a context stands in its ring. -/
def State.headAddr (c : Nat) : Nat := s.fAddr F.CTX_SQ_ADDR c + 128 * s.f F.CTX_STAT_SQ_HEAD c

/-- The request that a descriptor becomes as it is taken (R15, R343, R368). -/
def State.takenReq (c : Nat) (d : Bytes) : Req :=
  newReq (s.f F.CTX_STAT_SQ_HEAD c) d s.now
    (if s.fencedFor (s.partOf c) [persIngress] then .finished (Compl.code .reset)
     else if s.trlState (s.partOf c) = trlEmpty then .finished (Compl.code .aborted)
     else if !headerOk d c then .finished (Compl.code .invalidArg) else .fresh) false

/-- A context with one request more. -/
def CtxSt.take (x : CtxSt) (r : Req) (now : Nat) : CtxSt :=
  { x with reqs := x.reqs ++ [r], progress := if x.reqs = [] then now else x.progress }

/-- A descriptor that may be taken, reads without an error and waits for no earlier request is taken. -/
theorem State.takeDescriptor_takes {c : Nat} (h : s.mayTake c = true) (hRead : s.readCode (s.headAddr c) 128 = .ok)
    (hWait : bit (byteAt (s.peek (s.headAddr c) 128) 6) 1 = false ∨ (s.ctx c).reqs = []) :
    s.takeDescriptor c =
      (((s.noteBytes (s.headAddr c) 128).setCtx c fun x => x.take (s.takenReq c (s.peek (s.headAddr c) 128)) s.now).setF
        F.CTX_STAT_SQ_HEAD c ((s.f F.CTX_STAT_SQ_HEAD c + 1) % s.sqDepth c)).setTaken c := by
  have noError : (s.readCode (s.headAddr c) 128 != .ok) = false := by rw [hRead]; rfl
  have noWait : (bit (byteAt (s.peek (s.headAddr c) 128) 6) 1 && (s.ctx c).reqs != []) = false := by
    rcases hWait with e | e <;> simp [e]
  unfold State.headAddr at noError noWait
  unfold State.takeDescriptor
  simp only [h, State.load, noError, noWait, Bool.not_true, Bool.false_eq_true, if_false]
  rfl

end

/-- Settles O25: the read of the ring changes counts alone, so that the new request and the head are all that a take adds. -/
theorem descriptorIsTaken : Obligations.DescriptorIsTaken := by
  unfold Obligations.DescriptorIsTaken
  intro s c hl h head a d hRead hWait
  have taken := State.takeDescriptor_takes s h hRead hWait
  refine ⟨s.takeDescriptor c.toNat, ?_, ?_, ?_, ?_, ?_⟩
  · rw [exec_takeDescriptor, execTakeDescriptor, gated_live _ _ hl]
  · rw [taken, State.setTaken_mem, State.setF_mem, State.setCtx_mem, State.noteBytes_mem]
  · rw [taken, State.setTaken_ecc, State.setF_ecc, State.setCtx_ecc, State.noteBytes_ecc]
  · rw [taken, State.setTaken_ctx, State.setF_ctx, State.setCtx_ctx_self, State.noteBytes_ctx]
    rfl
  · rw [taken, State.f_setTaken_head]
    exact State.f_setF_self _ F.CTX_STAT_SQ_HEAD _ _ (by decide) (by decide)

end Sys2Proof.Machine
end

section
/-! PROOFS. The end of a request: what it makes of its context, and what it leaves (R30, R344, R356, R435). -/
namespace Sys2Proof.Machine

/-! The list of a context's requests, one of them replaced -/

theorem length_replaceFirst {α : Type} (p : α → Bool) (f : α → α) (l : List α) : (replaceFirst p f l).length = l.length := by
  induction l with
  | nil => rfl
  | cons y l ih =>
    rw [replaceFirst]
    split
    · rfl
    · rw [List.length_cons, List.length_cons, ih]

/-- The element that a search finds is the one that is replaced; the new one need not pass the search (an ended request does
not). -/
theorem mem_replaceFirst_of_find {α : Type} (p : α → Bool) (f : α → α) {l : List α} {x : α} (h : l.find? p = some x) :
    f x ∈ replaceFirst p f l := by
  induction l with
  | nil => cases h
  | cons y l ih =>
    rw [replaceFirst]
    cases e : p y with
    | true =>
      rw [List.find?_cons_of_pos e] at h
      cases h
      rw [if_pos rfl]
      exact List.mem_cons_self
    | false =>
      rw [List.find?_cons_of_neg (by simp [e])] at h
      rw [if_neg (by simp)]
      exact List.mem_cons_of_mem _ (ih h)

section
variable (s : State)

/-! The context of the request, and the others -/

@[simp] theorem State.noteSlow_ctx (c q : Nat) (k : Code) (e : Nat) : (s.noteSlow c q k).ctx e = s.ctx e := by
  rw [State.ctx, State.noteSlow_ctxs, State.ctx]

/-- A context as the end of the request of one of its ring slots leaves it: the request ended, and progress noted. -/
def CtxSt.finish (x : CtxSt) (q : Nat) (k : Compl) (now : Nat) : CtxSt :=
  { x with reqs := replaceFirst (fun r => r.slot == q && !r.work.ended) (fun r => { r with work := .finished k }) x.reqs,
           progress := now }

@[simp] theorem State.finish_ctx_self (c q : Nat) (k : Compl) : (s.finish c q k).ctx c = (s.ctx c).finish q k s.now := by
  rw [State.finish, State.setCtx_ctx_self, State.setReq, State.setCtx_ctx_self, State.noteSlow_ctx]
  rfl

theorem State.finish_ctx_of_ne {c e : Nat} (q : Nat) (k : Compl) (h : e ≠ c) : (s.finish c q k).ctx e = s.ctx e := by
  rw [State.finish, State.setCtx_ctx_of_ne _ _ h, State.setReq, State.setCtx_ctx_of_ne _ _ h, State.noteSlow_ctx]

/-- The request of the slot stands in the list of its context as ended. -/
theorem State.mem_reqs_finish {c q : Nat} {r : Req} (k : Compl) (h : s.req c q = some r) :
    { r with work := .finished k } ∈ ((s.finish c q k).ctx c).reqs := by
  rw [State.finish_ctx_self]
  exact mem_replaceFirst_of_find _ (fun r => { r with work := .finished k }) h

@[simp] theorem State.finish_reqs_length (c q : Nat) (k : Compl) : ((s.finish c q k).ctx c).reqs.length = (s.ctx c).reqs.length := by
  rw [State.finish_ctx_self]
  exact length_replaceFirst _ _ _

end

/-- Settles O31: the end changes one context, its list and its progress, and beside it only the slowdown figures of a tenant. -/
theorem endOfRequestChangesLittle : Obligations.EndOfRequestChangesLittle := by
  unfold Obligations.EndOfRequestChangesLittle
  intro s c q k t
  have progress : (t.ctx c).progress = s.now := by rw [State.finish_ctx_self]; rfl
  exact ⟨s.finish_mem c q k, s.finish_ecc c q k, s.finish_reg c q k, s.finish_idxs c q k, s.finish_press c q k,
    s.finish_cellar c q k, s.finish_pool c q k, s.finish_fab c q k, s.finish_flt c q k, s.finish_pwr c q k, s.finish_jobs c q k,
    progress, fun _ => s.finish_ctx_of_ne q k, fun _ => s.mem_reqs_finish k, s.finish_reqs_length c q k⟩

end Sys2Proof.Machine
end

section
/-! PROOFS. Entries, and the vintages at which a press unit sees them (R62, R64, R65). -/
namespace Sys2Proof.Machine

/-- R62: the bounds of an entry's offsets. -/
theorem Entry.ok_iff (e : Entry) :
    e.ok = true ↔ e.birth ≤ Config.offsetMax ∧ (e.death = noDeath ∨ 1 ≤ e.death ∧ e.death ≤ Config.offsetMax) := by
  simp [Entry.ok]

/-- R65 compares offsets with a distance that stops at 2^31; offsets that stay at or below it compare as the absolute vintages do. -/
theorem visibleAt_iff {birth death : Nat} (hb : birth ≤ 2 ^ 31) (hd : death = noDeath ∨ death ≤ 2 ^ 31) (v base : Nat) :
    visibleAt v base birth death = true ↔ base + birth ≤ v ∧ (death = noDeath ∨ v < base + death) := by
  simp only [visibleAt, Bool.and_eq_true, Bool.or_eq_true, decide_eq_true_eq, beq_iff_eq]
  omega

/-- Settles O59: the bounds of R62 lie below the 2^31 at which the distance of R65 stops. -/
theorem entriesAreSeenFromBirthToDeath : Obligations.EntriesAreSeenFromBirthToDeath := by
  unfold Obligations.EntriesAreSeenFromBirthToDeath
  intro e v base
  refine ⟨fun h => ?_, fun h => by rw [Entry.visible, h, Bool.false_and]⟩
  obtain ⟨birth, death⟩ := e.ok_iff.1 h
  have bound : Config.offsetMax ≤ 2 ^ 31 := by decide
  rw [Entry.visible, h, Bool.true_and,
    visibleAt_iff (birth.trans bound) (death.imp_right fun d => d.2.trans bound)]

end Sys2Proof.Machine
end

section
/-! PROOFS. Enabling, disabling and closing an index by register writes (R56, R63, R75, R91, R95, R96). -/
namespace Sys2Proof.Machine

section
variable (s : State)

/-! What a write of VINT_IDX_CFG or VINT_CLOSE starts -/

theorem State.idxWritten_enables {src : Src} {i old : Nat} (on : s.on F.VINT_IDX_CFG_ENABLE i = true) (was : old.testBit 0 = false)
    (ok : s.idxCfgOk i = true) : s.idxWritten src i old = s.enableIdx i := by
  simp [State.idxWritten, on, was, ok]

theorem State.idxWritten_disables {src : Src} {i old : Nat} (off : s.on F.VINT_IDX_CFG_ENABLE i = false) (was : old.testBit 0 = true) :
    s.idxWritten src i old = s.disableIdx i := by
  simp [State.idxWritten, off, was]

theorem State.writeVintClose_triggers {src : Src} {v : Nat} (on : s.idxOn (bits v 11 0) = true) :
    s.writeVintClose src v = s.triggerClose (bits v 11 0) := by
  simp [State.writeVintClose, on]

/-! The published and the durable vintage (R95) -/

/-- VINT_CUR and VINT_DURABLE of an index are registers of their own. -/
theorem vintCur_addr_ne_vintDurable (i : Nat) : Reg.vintCur.addr i ≠ Reg.vintDurable.addr i := by
  simp [Reg.addr, Reg.place]

@[simp] theorem State.setIdx_published (j : Nat) (g : IdxSt → IdxSt) (i : Nat) : (s.setIdx j g).published i = s.published i :=
  State.setIdx_f s j g _ i
@[simp] theorem State.setIdx_durable (j : Nat) (g : IdxSt → IdxSt) (i : Nat) : (s.setIdx j g).durable i = s.durable i :=
  State.setIdx_f s j g _ i

@[simp] theorem State.published_setF_cur (i v : Nat) : (s.setF F.VINT_CUR_VINTAGE i v).published i = v % 2 ^ 64 :=
  State.f_setF_self s F.VINT_CUR_VINTAGE i v (by decide) (by decide)
@[simp] theorem State.durable_setF_durable (i v : Nat) : (s.setF F.VINT_DURABLE_VINTAGE i v).durable i = v % 2 ^ 64 :=
  State.f_setF_self s F.VINT_DURABLE_VINTAGE i v (by decide) (by decide)
@[simp] theorem State.published_setF_durable (i v : Nat) : (s.setF F.VINT_DURABLE_VINTAGE i v).published i = s.published i :=
  State.f_setF_of_ne s v (vintCur_addr_ne_vintDurable i)

/-! An index just enabled, and one just disabled (R56, R63, R91) -/

theorem State.enableIdx_published (i : Nat) : (s.enableIdx i).published i = 1 := by
  simp [State.enableIdx, State.setFs_cons]

theorem State.enableIdx_durable (i : Nat) : (s.enableIdx i).durable i = 1 := by
  simp [State.enableIdx]

theorem State.enableIdx_idx (i : Nat) : ((s.enableIdx i).idx i).openV = 2 ∧ ((s.enableIdx i).idx i).pins = [] ∧
    ((s.enableIdx i).idx i).close = none := by
  simp [State.enableIdx]

theorem State.enableIdx_mem (i : Nat) : (s.enableIdx i).mem = s.mem := by
  rw [State.enableIdx, State.setIdx_mem, State.setF_mem, State.setFs_mem]

theorem State.disableIdx_published (i : Nat) : (s.disableIdx i).published i = 0 := by
  simp [State.disableIdx]

theorem State.disableIdx_durable (i : Nat) : (s.disableIdx i).durable i = 0 := by
  simp [State.disableIdx]

theorem State.disableIdx_idx (i : Nat) : ((s.disableIdx i).idx i).openV = 0 ∧ ((s.disableIdx i).idx i).pins = [] ∧
    ((s.disableIdx i).idx i).close = none := by
  simp [State.disableIdx]

end

/-- Settles O16: the write of the register starts the change of ENABLE or the close, and the change sets the vintages of the index. -/
theorem indexRowsTakeEffect : Obligations.IndexRowsTakeEffect := by
  unfold Obligations.IndexRowsTakeEffect
  intro s src i v
  refine ⟨fun h => ⟨fun on was ok => ?_, fun off was => ?_⟩, fun h on => ?_, ?_, ?_⟩
  · rw [exec_indexEnable, execIndexEnable, row_takes s h i.isLt rfl, written_vintIdxCfg, State.idxWritten_enables _ on was ok]
  · rw [exec_indexDisable, execIndexDisable, row_takes s h i.isLt rfl, written_vintIdxCfg, State.idxWritten_disables _ off was]
  · rw [exec_vintClose, execVintClose, row_takes s h (by decide) rfl, written_vintClose, if_pos rfl, Nat.mod_eq_of_lt v.isLt,
      State.writeVintClose_triggers _ on]
  · obtain ⟨openV, pins, close⟩ := State.enableIdx_idx s i.toNat
    exact ⟨State.enableIdx_published s _, State.enableIdx_durable s _, openV, pins, close, State.enableIdx_mem s _⟩
  · obtain ⟨openV, pins, close⟩ := State.disableIdx_idx s i.toNat
    exact ⟨State.disableIdx_published s _, State.disableIdx_durable s _, openV, pins, close⟩

end Sys2Proof.Machine
end

section
/-! PROOFS. The timers of requests: the end that each gives once its time has passed (R81, R90, R261, R348, R359, R422). -/
namespace Sys2Proof.Machine

/-- R90, R261: an update that has waited 100 ms ends with QUOTA, and nothing in the node waits for it any more. -/
theorem waitTimeout_ends (s : State) {since : Work → Option Nat} {c q t : Nat} {r : Req} (h : s.req c q = some r) (w : since r.work = some t)
    (d : s.due t 100000 = true) : waitTimeout since c q s = (s.detach c q).finishCode c q .quota := by
  simp [waitTimeout, h, w, d]

/-- Settles O30: each timer finds its request and the time at which it ends it. -/
theorem requestsTimeOut : Obligations.RequestsTimeOut := by
  unfold Obligations.RequestsTimeOut
  intro s c q r hl h
  refine ⟨fun t limit passed keeps => ?_, fun i ep n since w limit d => ?_, fun t w d => ?_, fun t w d => ?_, fun i idx stamped ended old => ?_⟩
  · rw [exec_requestTimeout, execRequestTimeout, gated_live _ _ hl]
    simp [h, limit, passed, keeps]
  · rw [exec_syncTimeout, execSyncTimeout, gated_live _ _ hl]
    simp [h, w, limit, d]
  · rw [exec_spillWaitTimeout, execSpillWaitTimeout, gated_live _ _ hl, waitTimeout_ends s h (by rw [w]) d]
  · rw [exec_logWaitTimeout, execLogWaitTimeout, gated_live _ _ hl, waitTimeout_ends s h (by rw [w]) d]
  · rw [exec_requestRevoke, execRequestRevoke, gated_live _ _ hl]
    simp [h, idx, stamped, ended, old]

end Sys2Proof.Machine
end

section
/-! PROOFS. Commands of a context that run, up to the effect that they turn out to have (R343, R349, R423), and the checks of a command
that names an index (R55). -/
namespace Sys2Proof.Machine

theorem Runs.live {s : State} {c q op : Nat} {r : Req} (h : Runs s c q op r) : s.live = true := h.1
theorem Runs.needs {s : State} {c q op : Nat} {r : Req} (h : Runs s c q op r) : s.pool.needs = [] := h.2.1
theorem Runs.req {s : State} {c q op : Nat} {r : Req} (h : Runs s c q op r) : s.req c q = some r := h.2.2.1

section
variable (s : State)

/-- The effect of a command that its context may run, where it has been worked out and needs no line of cask space. -/
theorem runCmd_gives {c q op : Nat} {r : Req} {f : State → Req → State} {t : State} (h : Runs s c q op r)
    (e : f (s.begin c q r) (s.accept c r) = t) (n : t.pool.needs = []) : s.runCmd c q op f = t := by
  subst e
  exact runCmd_runs s h n

/-- The beginning of a request changes its context and whose turn is next. -/
@[simp] theorem State.begin_mem (c q : Nat) (r : Req) : (s.begin c q r).mem = s.mem := by
  unfold State.begin
  split
  · rfl
  · dsimp only
    split <;> rfl

@[simp] theorem State.begin_pool (c q : Nat) (r : Req) : (s.begin c q r).pool = s.pool := by
  unfold State.begin
  split
  · rfl
  · dsimp only
    split <;> rfl

@[simp] theorem Code.ok_bad : Code.ok.bad = false := rfl
@[simp] theorem Code.worst_self (k : Code) : k.worst k = k := if_neg (Nat.lt_irrefl _)

/-- An index that the context may use, in an operation area that is in order. -/
theorem State.idxArg_ok {c i : Nat} (hi : i < 4096) (h : s.idxCheck c i = none) : s.idxArg c i true = .ok := by
  simp [State.idxArg, hi, h, Code.worst]

end

end Sys2Proof.Machine
end

section
/-! PROOFS. Pins: their handles, and how they are placed, released and revoked (R80, R423). -/
namespace Sys2Proof.Machine

/-- The handle of a new pin is none that a pin of this node's contexts has: fewer handles are taken than are looked through. -/
theorem freshHandle_fresh {pins : List Pin} {p : Pin} (m : p ∈ pins) (own : p.home = none) : p.handle ≠ freshHandle pins := by
  unfold freshHandle
  cases e : (List.range (pins.length + 1)).find? fun h => !(pins.any fun p => p.home.isNone && p.handle == h) with
  | some h =>
    have free := List.find?_some e
    simp only [Bool.not_eq_true', List.any_eq_false] at free
    intro same
    exact free p m (by simp [own, same])
  | none =>
    have taken : List.range (pins.length + 1) ⊆ pins.map (·.handle) := by
      intro h mem
      have used := List.find?_eq_none.1 e h mem
      simp only [Bool.not_eq_true, Bool.not_eq_false', List.any_eq_true, Bool.and_eq_true, beq_iff_eq] at used
      obtain ⟨p, m, -, same⟩ := used
      exact List.mem_map.2 ⟨p, m, same⟩
    have := (List.nodup_range.subperm taken).length_le
    simp at this

section
variable (s : State)

@[simp] theorem State.setIdx_idxComp (j : Nat) (g : IdxSt → IdxSt) (i : Nat) : (s.setIdx j g).idxComp i = s.idxComp i := rfl

@[simp] theorem State.dropPin_mem (i h : Nat) : (s.dropPin i h).mem = s.mem := rfl
@[simp] theorem State.dropPin_pool (i h : Nat) : (s.dropPin i h).pool = s.pool := rfl
@[simp] theorem State.dropPin_on (i h : Nat) (x : Fld) (j : Nat) : (s.dropPin i h).on x j = s.on x j := by
  rw [State.on, State.dropPin, State.setIdx_f, State.on]

/-- A pin of an index of this node alone is complete at once. -/
theorem State.pinPeers_local {i : Nat} (alone : s.idxComp i = none) (c q h v : Nat) (d : Bytes) :
    s.pinPeers c q i h v d = s.finish c q (Compl.success false false false 0 h) := by
  simp [State.pinPeers, alone]

/-- No other node holds a pin of an index of this node alone. -/
theorem State.unpinPeers_local {i : Nat} (alone : s.on F.VINT_IDX_CFG_SCOPE i = false) (h : Nat) : s.unpinPeers i h = s := by
  simp [State.unpinPeers, alone]

theorem State.idxIntr_mem (i : Nat) : (s.idxIntr i).mem = s.mem := by rw [State.idxIntr, State.setBitF_mem]

end

/-- Settles O32: PIN, UNPIN and PIN_REVOKE pass their checks, and on an index of this node alone no other node is asked. -/
theorem pinsAreHeldAndReleased : Obligations.PinsAreHeldAndReleased := by
  unfold Obligations.PinsAreHeldAndReleased
  intro s₀ c q r₀ s r i
  have begunMem : s.mem = s₀.mem := State.begin_mem s₀ ..
  have begunPool : s.pool = s₀.pool := State.begin_pool s₀ ..
  refine ⟨fun v runs flags hi gap rest check vint room => ?_, fun runs flags hi gap check => ?_, fun s j h hl => ?_⟩
  · intro h u t
    have fields : s.idxArg c.toNat i (opZero r.desc 1 1 && opZero r.desc 4 4 && opZero r.desc 16 80) = .ok := by
      rw [flags, gap, rest]
      exact State.idxArg_ok s hi check
    have run : t.pool.needs = [] → exec (.pin c q) s₀ = .next (s₀.after t) := by
      intro n
      rw [exec_pin, execPin, gated_live _ _ runs.live, runCmd_gives s₀ runs ?_ n]
      dsimp only [s, r, i] at fields vint room
      simp only [fields, Code.ok_bad, Bool.false_eq_true, if_false, vint, if_neg (Nat.not_le.2 room)]
      rfl
    refine ⟨run, fun p m own => freshHandle_fresh m own, fun alone => ?_⟩
    have done : t = u.finish c.toNat q.toNat (Compl.success false false false 0 h) := State.pinPeers_local u alone ..
    refine ⟨done, ?_, run ?_⟩
    · rw [done, State.finish_mem, State.setIdx_mem, begunMem]
    · rw [done, State.finish_pool, State.setIdx_pool, begunPool, runs.needs]
  · intro h mine t
    have fields : s.idxArg c.toNat i (opZero r.desc 1 1 && opZero r.desc 6 90) = .ok := by
      rw [flags, gap]
      exact State.idxArg_ok s hi check
    have run : t.pool.needs = [] → exec (.unpin c q) s₀ = .next (s₀.after t) := by
      intro n
      rw [exec_unpin, execUnpin, gated_live _ _ runs.live, runCmd_gives s₀ runs ?_ n]
      dsimp only [s, r, i, h] at fields mine
      simp only [fields, Code.ok_bad, Bool.false_eq_true, if_false, mine, if_true]
      rfl
    refine ⟨run, fun alone => ?_⟩
    have done : t = (s.dropPin i h).finishCode c.toNat q.toNat .ok := by
      dsimp only [t]
      rw [State.unpinPeers_local _ ((State.dropPin_on s ..).trans alone)]
    refine ⟨done, ?_, run ?_⟩
    · rw [done, State.finishCode_mem, State.dropPin_mem, begunMem]
    · rw [done, State.finishCode_pool, State.dropPin_pool, begunPool, runs.needs]
  · intro old any t
    refine ⟨?_, ?_⟩
    · dsimp only [old] at any
      rw [exec_pinRevoke, execPinRevoke, gated_live _ _ hl, if_pos any]
    · rw [State.idxIntr_mem, State.addF_mem, State.setIdx_mem]

end Sys2Proof.Machine
end

section
/-! PROOFS. Updates: the commands that stage them (R68 to R71, R73, R423). -/
namespace Sys2Proof.Machine

/-- Settles O33: the three commands are one, and it passes its checks up to the staging of its updates. -/
theorem updatesAreStamped : Obligations.UpdatesAreStamped := by
  unfold Obligations.UpdatesAreStamped
  intro s₀ s1 s2 c q op r₀ us k v s r runs hi flags zero i check pers fence updates nonempty stage t needs
  have area : (decide (4096 ≤ i) || decide (2 ≤ byteAt r.desc 33) || !opZero r.desc 24 8) = false := by
    rw [zero, decide_eq_false (Nat.not_le.2 hi), decide_eq_false (Nat.not_le.2 flags)]
    rfl
  have staged : updateCmd c.toNat q.toNat op s₀ = t := by
    refine runCmd_gives s₀ runs ?_ needs
    cases us with
    | nil => exact absurd rfl nonempty
    | cons x us =>
      dsimp only [s, r, i] at area hi check pers fence updates stage
      simp only [area, check, pers, fence, updates, stage, if_neg (Nat.not_le.2 hi), Bool.false_eq_true, if_false, Bool.not_true,
        Option.getD_none, Code.worst_self, Code.ok_bad]
      rfl
  refine ⟨fun e => ?_, fun e => ?_, fun e => ?_⟩ <;> subst e
  · rw [exec_insert, execInsert, gated_live _ _ runs.live, staged]
  · rw [exec_delete, execDelete, gated_live _ _ runs.live, staged]
  · rw [exec_batch, execBatch, gated_live _ _ runs.live, staged]

end Sys2Proof.Machine
end

section
/-! PROOFS. Vintages: how a close starts, opens the next vintage, and ends (R73, R75, R76, R78, R94, R261, R450). -/
namespace Sys2Proof.Machine

section
variable (s : State)

theorem State.startClose_mem (i : Nat) : (s.startClose i).mem = s.mem := by rw [State.startClose, State.setIdx_mem]

/-- A trigger leaves a close to run: the one that runs already, or a new one. -/
theorem State.startClose_closes (i : Nat) : ((s.startClose i).idx i).close.isSome = true := by
  rw [State.startClose, State.setIdx_idx_self]
  cases (s.idx i).close <;> rfl

/-- A marker is handed to the log once. -/
theorem State.handMarker_handed {i : Nat} {k : CloseRun} (h : (s.idx i).close = some k) (handed : k.handed = true) :
    s.handMarker i = s := by
  simp [State.handMarker, h, handed]

end

/-- Settles O34: each command finds the close or the marker at the stage at which it acts. -/
theorem vintagesCloseAndPublish : Obligations.VintagesCloseAndPublish := by
  unfold Obligations.VintagesCloseAndPublish
  intro s i hl on lost
  refine ⟨fun interval due rank waits => ⟨?_, State.startClose_mem s _, State.startClose_closes s _⟩, fun k close zero => ?_,
    fun k close handed rank comp near prepared => ?_, fun v n sq rest markers durable => ?_⟩
  · rw [exec_closeInterval, execCloseInterval, gated_live _ _ hl]
    simp [on, lost, interval, due, rank, waits]
  · rw [exec_close, execClose, gated_live _ _ hl]
    simp [on, lost, close, zero]
  · have handedOver := State.handMarker_handed s close handed
    refine ⟨?_, handedOver⟩
    rw [exec_vintagePublish, execVintagePublish, gated_live _ _ hl]
    simp [on, lost, handedOver, close, handed, rank, comp, Nat.not_lt.2 near, prepared]
  · intro u
    refine ⟨?_, ?_, by rw [State.setIdx_mem, State.setF_mem]⟩
    · rw [exec_vintageDurable, execVintageDurable, gated_live _ _ hl]
      simp only [markers, on, durable, Bool.and_self, if_true, u]
    · rw [State.setIdx_durable, State.durable_setF_durable]

end Sys2Proof.Machine
end

section
/-! PROOFS. The blocks of a list, racked, rebased, moved, repaired and freed, and the log's buffer (R82 to R90, R99, R261, R447). -/
namespace Sys2Proof.Machine

section
variable (s : State)

/-! The blocks that wait to be free (R85) do not bear on what is written to memory -/

/-- A state with another list of blocks that wait to be free. -/
def State.withToFree (l : List ToFree) : State := { s with toFree := l }

theorem State.putP_withToFree (l : List ToFree) (p : Nat) (d : Bytes) : (s.withToFree l).putP p d = (s.putP p d).withToFree l := by
  induction d generalizing s p with
  | nil => rfl
  | cons b d ih => exact ih { s with mem := memPut s.mem p b } (p + 1)

theorem State.putAll_withToFree (l : List ToFree) (a : Nat) (d : Bytes) : (s.withToFree l).putAll a d = (s.putAll a d).withToFree l := by
  induction d generalizing s a with
  | nil => rfl
  | cons b d ih => exact ih { s with mem := memPut s.mem (s.phys a) b } (a + 1)

theorem State.repairCw_withToFree (l : List ToFree) (w : Nat) : (s.withToFree l).repairCw w = (s.repairCw w).withToFree l := by
  have same : (s.withToFree l).syn w = s.syn w := rfl
  unfold State.repairCw
  rw [same]
  split
  · rfl
  · exact congrArg (·.setSyn w Syn.clean) (State.putP_withToFree s l _ _)
  · rfl

theorem State.store_withToFree (l : List ToFree) (a : Nat) (d : Bytes) : (s.withToFree l).store a d = (s.store a d).withToFree l := by
  have same : (s.withToFree l).ecc = s.ecc := rfl
  unfold State.store
  rw [same]
  split
  · exact State.putAll_withToFree s l a d
  · dsimp only
    have cws : (s.withToFree l).cwsOf a d.length = s.cwsOf a d.length := rfl
    have repaired : ∀ ws : List Nat, ws.foldl State.repairCw (s.withToFree l) = (ws.foldl State.repairCw s).withToFree l := fun _ =>
      List.foldl_hom (·.withToFree l) fun t w => State.repairCw_withToFree t l w
    rw [cws, repaired, State.putAll_withToFree]
    exact List.foldl_hom (fun t : State => t.withToFree l) fun t k => rfl

theorem State.setFree_withToFree (l : List ToFree) (u b : Nat) (v : Bool) :
    (s.withToFree l).setFree u b v = (s.setFree u b v).withToFree l := State.store_withToFree s l _ _

@[simp] theorem State.setFree_regs (u b : Nat) (v : Bool) : (s.setFree u b v).regs = s.regs := State.storeN_regs s ..
@[simp] theorem State.setFree_toFree (u b : Nat) (v : Bool) : (s.setFree u b v).toFree = s.toFree := State.storeN_toFree s ..

/-! A block returned to the free blocks (R85, R99) -/

@[simp] theorem State.giveBlock_mem (u b : Nat) (spill : Bool) : (s.giveBlock u b spill).mem = (s.setFree u b true).mem := by
  unfold State.giveBlock
  cases spill
  · rfl
  · rw [if_pos rfl, State.setF_mem]

@[simp] theorem State.giveBlock_toFree (u b : Nat) (spill : Bool) : (s.giveBlock u b spill).toFree = s.toFree := by
  unfold State.giveBlock
  cases spill
  · exact State.setFree_toFree s u b true
  · rw [if_pos rfl, State.setF_toFree, State.setFree_toFree]

/-- A spill block that is returned is counted no more. -/
theorem State.giveBlock_spillUsed (u b : Nat) :
    (s.giveBlock u b true).f F.VINT_SPILL_CFG_SPILL_USED 0 = s.f F.VINT_SPILL_CFG_SPILL_USED 0 - 1 := by
  have used : (s.setFree u b true).f F.VINT_SPILL_CFG_SPILL_USED 0 = s.f F.VINT_SPILL_CFG_SPILL_USED 0 :=
    State.f_of_regs (State.setFree_regs s u b true) ..
  rw [State.giveBlock, if_pos rfl, State.f_setF_self _ _ _ _ (by decide) (by decide), used]
  apply Nat.mod_eq_of_lt
  exact Nat.lt_of_le_of_lt (Nat.sub_le _ _) (bits_lt_field _ _ _)

end

/-- Settles O35: each command finds its place and its condition, and a freed block is returned whatever else waits to be free. -/
theorem blocksAreKept : Obligations.BlocksAreKept := by
  unfold Obligations.BlocksAreKept
  intro s t i a k u b p o hl
  refine ⟨fun place => ⟨fun may racked => ?_, fun may racked => ?_, fun cs chains may moved => ?_, fun may repaired => ?_⟩, ?_, ?_⟩
  · rw [exec_racking, execRacking, gated_live _ _ hl]
    simp [place, may, racked]
  · rw [exec_ageRebase, execAgeRebase, gated_live _ _ hl]
    simp [place, may, racked]
  · rw [exec_spillMove, execSpillMove, gated_live _ _ hl]
    simp [place, chains, may, moved]
  · rw [exec_blockRepair, execBlockRepair, gated_live _ _ hl]
    simp [place, may, repaired]
  · intro mine any
    let rest := s.withToFree (dropFirst mine s.toFree)
    refine ⟨rest.giveBlock u.toNat b.toNat (s.hdr u.toNat b.toNat).spill, ?_, ?_, ?_, fun spill => ?_⟩
    · rw [exec_blockFree, execBlockFree, gated_live _ _ hl]
      simp only [any, mine, if_true]
      rfl
    · exact State.giveBlock_toFree rest ..
    · rw [State.giveBlock_mem, State.setFree_withToFree]
      rfl
    · rw [spill]
      exact State.giveBlock_spillUsed rest ..
  · intro since nonempty
    refine ⟨fun due => ?_, fun due long => ?_⟩ <;> rw [exec_logFlush, execLogFlush, gated_live _ _ hl, if_neg nonempty]
    · rw [if_pos due]
    · rw [if_neg (by rw [due]; decide), if_pos long]

end Sys2Proof.Machine
end

section
/-! PROOFS. Searches: what begins at once, what waits for its pass, and what ends the wait (R66, R138, R139, R144, R423). -/
namespace Sys2Proof.Machine

/-- The three search commands differ in their opcode alone. -/
theorem exec_searchCmd {s : State} {c : BitVec 12} {q : BitVec 16} {op : Nat} {i : Instr}
    (m : (i, op) ∈ [(Instr.search c q, 0x10), (.searchGraph c q, 0x11), (.searchDelete c q, 0x12)]) (hl : s.live = true) :
    exec i s = .next (s.after (searchCmd c.toNat q.toNat op s)) := by
  simp only [List.mem_cons, List.not_mem_nil, or_false, Prod.mk.injEq] at m
  obtain ⟨rfl, rfl⟩ | ⟨rfl, rfl⟩ | ⟨rfl, rfl⟩ := m
  · rw [exec_search, execSearch, gated_live _ _ hl]
  · rw [exec_searchGraph, execSearchGraph, gated_live _ _ hl]
  · rw [exec_searchDelete, execSearchDelete, gated_live _ _ hl]

/-- What becomes of a search that has passed its checks and is pinned: it begins at once, or is held for its pass until a time, which
ends where it fills the pass (R144). -/
def State.beginOrHold (u : State) (c q : Nat) (r : Req) (x wait : Nat) : State :=
  if srGraph r.desc || srBitmap r.desc || wait = 0 then (u.beginSearch c q r).closePasses
  else
    let held := u.setWork c q (.grouped (u.now + ceilDiv wait 1000))
    if held.passSlots x ≤ held.grouped r then held.beginGroup r else held

section
variable (u : State) {c q x wait : Nat} {r : Req}

theorem State.beginOrHold_now (h : srGraph r.desc = true ∨ srBitmap r.desc = true ∨ wait = 0) :
    u.beginOrHold c q r x wait = (u.beginSearch c q r).closePasses :=
  if_pos (by simpa [or_assoc] using h)

theorem State.beginOrHold_later (graph : srGraph r.desc = false) (bitmap : srBitmap r.desc = false) (later : wait ≠ 0) :
    u.beginOrHold c q r x wait =
      let held := u.setWork c q (.grouped (u.now + ceilDiv wait 1000))
      if held.passSlots x ≤ held.grouped r then held.beginGroup r else held :=
  if_neg (by simp [graph, bitmap, later])

end

/-- Settles O36: a search that passes its checks begins or is held, and the timer ends the wait of those that are held. -/
theorem searchesBegin : Obligations.SearchesBegin := by
  unfold Obligations.SearchesBegin
  refine ⟨?_, ?_⟩
  · intro s₀ c q r₀ v op i m runs fresh s r d x t p ok vint queries pers upd fence comp e r' u wait now' held
    have known : ∀ w : State, u.beginOrHold c.toNat q.toNat r' x wait = w → w.pool.needs = [] → exec i s₀ = .next (s₀.after w) := by
      intro w becomes needs
      rw [exec_searchCmd m runs.live, searchCmd, runs.req]
      simp only [Option.map_some, fresh]
      rw [runCmd_gives s₀ runs ?_ needs]
      have stages : (srDelete d && !t.hasPers p persUpdate) = false := by
        cases del : srDelete d
        · rfl
        · rw [upd del]
          rfl
      dsimp only [s, r, d, x, t, p] at ok vint queries pers stages fence comp
      simp only [ok, vint, queries, pers, stages, fence, Bool.false_eq_true, if_false, Bool.not_true, Bool.or_self]
      refine (if_neg ?_).trans becomes
      split
      · next n m slot =>
        rw [comp n m slot]
        exact Bool.false_ne_true
      · exact Bool.false_ne_true
    refine ⟨fun now needs => known _ (State.beginOrHold_now u now) needs, fun graph bitmap later => ?_⟩
    have waits := State.beginOrHold_later u (c := c.toNat) (q := q.toNat) (x := x) (r := r') graph bitmap later
    exact ⟨fun room needs => known _ (waits.trans (if_neg (Nat.not_le.2 room))) needs,
      fun full needs => known _ (waits.trans (if_pos full)) needs⟩
  · intro s c q r t i hl h w idx state
    rw [exec_passGroupTimeout, execPassGroupTimeout, gated_live _ _ hl]
    simp only [h, w, idx, state]
    refine ⟨fun full needs => ?_, fun room early => ?_⟩
    · rw [if_pos ⟨trivial, full.symm⟩, withLines_done s needs]
    · rw [if_neg]
      omega

end Sys2Proof.Machine
end

section
/-! PROOFS. The places of window 1, and what a read returns after a store (R100 to R102, R118 to R120). -/
namespace Sys2Proof.Machine

section
variable (s : State)

/-- The six digits of a physical place (R101). -/
theorem placeDigits {p g u r b c o : Nat} (hu : u < 512) (hr : r < 512) (hb : b < 4) (hc : c < 4) (ho : o < 256)
    (h : p = g * 2 ^ 30 + u * 2 ^ 21 + r * 2 ^ 12 + b * 2 ^ 10 + c * 2 ^ 8 + o) :
    p / 2 ^ 30 = g ∧ p / 2 ^ 21 % 512 = u ∧ p / 2 ^ 12 % 512 = r ∧ p / 2 ^ 10 % 4 = b ∧ p / 2 ^ 8 % 4 = c ∧ p % 256 = o := by
  omega

/-- An offset in window 1 is its group, the four fields of its 256-byte number, and its place in the 256 bytes (R102). -/
theorem offset_eq_fields (a : Nat) :
    a / 2 ^ 30 * 2 ^ 30 + (bits (bits a 29 8) 8 0 + bits (bits a 29 8) 10 9 * 2 ^ 9 + bits (bits a 29 8) 12 11 * 2 ^ 11 +
      bits (bits a 29 8) 21 13 * 2 ^ 13) * 2 ^ 8 + a % 256 = a := by
  simp only [bits]
  omega

theorem State.phys_press {x : Nat} (h : s.pressMode ((x - Config.hbmBase) / 2 ^ 30) = true) : s.phys x = x - Config.hbmBase := by
  simp only [State.phys, h, if_true]

theorem State.addrOf_press {p : Nat} (h : s.pressMode (p / 2 ^ 30) = true) : s.addrOf p = Config.hbmBase + p := by
  simp only [State.addrOf, h, if_true]

theorem State.phys_swizzled {x : Nat} (h : s.pressMode ((x - Config.hbmBase) / 2 ^ 30) = false) :
    let a := x - Config.hbmBase
    let n := bits a 29 8
    let r := bits n 21 13
    s.phys x = a / 2 ^ 30 * 2 ^ 30 + (bits n 8 0 ^^^ r) * 2 ^ 21 + r * 2 ^ 12 + (bits n 10 9 ^^^ (r % 4)) * 2 ^ 10 +
      bits n 12 11 * 2 ^ 8 + a % 256 := by
  simp only [State.phys, h, Bool.false_eq_true, if_false]
  rfl

theorem State.addrOf_swizzled {g u r b c o : Nat} (hu : u < 512) (hr : r < 512) (hb : b < 4) (hc : c < 4) (ho : o < 256)
    (h : s.pressMode g = false) :
    s.addrOf (g * 2 ^ 30 + u * 2 ^ 21 + r * 2 ^ 12 + b * 2 ^ 10 + c * 2 ^ 8 + o) =
      Config.hbmBase + g * 2 ^ 30 + ((u ^^^ r) + (b ^^^ (r % 4)) * 2 ^ 9 + c * 2 ^ 11 + r * 2 ^ 13) * 2 ^ 8 + o := by
  obtain ⟨dg, du, dr, db, dc, dO⟩ := placeDigits (g := g) hu hr hb hc ho rfl
  simp only [State.addrOf, dg, du, dr, db, dc, dO, h, Bool.false_eq_true, if_false]
  rfl

/-- The address that reaches the place of an address is that address, in both mappings (R101, R102). -/
theorem State.addrOf_phys {x : Nat} (h : Config.hbmBase ≤ x) : s.addrOf (s.phys x) = x := by
  cases press : s.pressMode ((x - Config.hbmBase) / 2 ^ 30)
  case true =>
    rw [State.phys_press s press, State.addrOf_press s press, Nat.add_sub_of_le h]
  case false =>
    rw [State.phys_swizzled s press, State.addrOf_swizzled s (Nat.xor_lt_two_pow (n := 9) (bits_lt_field _ 8 0) (bits_lt_field _ 21 13))
      (bits_lt_field _ 21 13) (Nat.xor_lt_two_pow (n := 2) (bits_lt_field _ 10 9) (Nat.mod_lt _ (by decide))) (bits_lt_field _ 12 11)
      (Nat.mod_lt _ (by decide)) press]
    rw [Nat.xor_assoc, Nat.xor_assoc, Nat.xor_self, Nat.xor_self, Nat.xor_zero, Nat.xor_zero, Nat.add_assoc, Nat.add_assoc,
      ← Nat.add_assoc (_ * 2 ^ 30), offset_eq_fields, Nat.add_sub_of_le h]

/-- Two bytes of window 1 never share a place. -/
theorem State.phys_inj {x y : Nat} (hx : Config.hbmBase ≤ x) (hy : Config.hbmBase ≤ y) (h : s.phys x = s.phys y) : x = y := by
  rw [← s.addrOf_phys hx, h, s.addrOf_phys hy]

/-- The 32 bytes of an aligned codeword lie together in both mappings (R102, R118). -/
theorem State.phys_codeword (w : Nat) {k : Nat} (hk : k < 32) (h : Config.hbmBase ≤ 32 * w) : s.phys (32 * w + k) = s.phys (32 * w) + k := by
  have group : (32 * w + k - Config.hbmBase) / 2 ^ 30 = (32 * w - Config.hbmBase) / 2 ^ 30 := by
    simp only [Config.hbmBase] at h ⊢
    omega
  have number : bits (32 * w + k - Config.hbmBase) 29 8 = bits (32 * w - Config.hbmBase) 29 8 := by
    simp only [Config.hbmBase, bits] at h ⊢
    omega
  have offset : (32 * w + k - Config.hbmBase) % 256 = (32 * w - Config.hbmBase) % 256 + k := by
    simp only [Config.hbmBase] at h ⊢
    omega
  cases press : s.pressMode ((32 * w - Config.hbmBase) / 2 ^ 30)
  case true =>
    rw [State.phys_press s press, State.phys_press s (by rw [group, press])]
    omega
  case false =>
    rw [State.phys_swizzled s press, State.phys_swizzled s (by rw [group, press]), group, number, offset]
    omega

theorem State.phys_codeword_mod (w : Nat) : s.phys (32 * w) % 32 = 0 := by
  cases press : s.pressMode ((32 * w - Config.hbmBase) / 2 ^ 30)
  case true =>
    rw [State.phys_press s press]
    simp only [Config.hbmBase]
    omega
  case false =>
    have offset : (32 * w - Config.hbmBase) % 256 % 32 = 0 := by
      simp only [Config.hbmBase]
      omega
    rw [State.phys_swizzled s press]
    omega

/-- The codeword of a byte is the codeword of the first byte of its 32 (R118). -/
theorem State.phys_div_32 {x : Nat} (h : Config.hbmBase ≤ x) : s.phys x / 32 = s.phys (32 * (x / 32)) / 32 := by
  have base : Config.hbmBase ≤ 32 * (x / 32) := by
    simp only [Config.hbmBase] at h ⊢
    omega
  have place := s.phys_codeword (x / 32) (Nat.mod_lt x (by decide : 32 > 0)) base
  rw [Nat.div_add_mod] at place
  have := s.phys_codeword_mod (x / 32)
  omega

/-- The codewords that bytes of window 1 touch are those of their places. -/
theorem State.mem_cwsOf {a len k : Nat} (h : Config.hbmBase ≤ a) (hk : k < len) : s.phys (a + k) / 32 ∈ s.cwsOf a len := by
  rw [State.cwsOf, if_neg (by omega), s.phys_div_32 (by omega)]
  exact List.mem_map.2 ⟨(a + k) / 32 - a / 32, List.mem_range.2 (by omega), by rw [Nat.add_sub_of_le (by omega)]⟩

/-- A codeword that a write covers is one that it touches. -/
theorem State.mem_cwsOf_whole {a len k : Nat} (hk : k < (a + len) / 32 - ceilDiv a 32) :
    s.phys (32 * (ceilDiv a 32 + k)) / 32 ∈ s.cwsOf a len := by
  unfold ceilDiv at hk ⊢
  rw [State.cwsOf, if_neg (by omega)]
  exact List.mem_map.2 ⟨(a + 32 - 1) / 32 + k - a / 32, List.mem_range.2 (by omega), by rw [Nat.add_sub_of_le (by omega)]⟩

end

/-! What a read returns at a place -/

section
variable (s : State)

/-- The byte that a read of window 1 returns at a physical place (R119). -/
def State.readP (p : Nat) : Byte := (s.cwData (p / 32)).getD (p % 32) 0#8

/-- A read of a codeword with these syndromes returns its data as they are stored: no data symbol is corrected. -/
def Syn.asStored (x : Syn) : Prop := ∀ i, x.read = .corrected i → 4 ≤ i

theorem Syn.asStored_clean : Syn.clean.asStored := by
  intro i h
  cases h

theorem Syn.asStored_poison : Syn.poison.asStored := by
  intro i h
  cases h

theorem State.cwData_of_asStored {w : Nat} (h : (s.syn w).asStored) : s.cwData w = s.bytesP (32 * w) 32 := by
  unfold State.cwData
  split
  · next i e => rw [if_neg (Nat.not_lt.2 (h i e))]
  · rfl

theorem State.getD_bytesP {p len k : Nat} (h : k < len) : (s.bytesP p len).getD k 0#8 = s.byteP (p + k) := by
  simp [State.bytesP, List.getD, h]

theorem State.readP_of_asStored {p : Nat} (h : (s.syn (p / 32)).asStored) : s.readP p = s.byteP p := by
  rw [State.readP, s.cwData_of_asStored h, s.getD_bytesP (Nat.mod_lt p (by decide)), Nat.div_add_mod]

theorem State.length_cwData (w : Nat) : (s.cwData w).length = 32 := by
  unfold State.cwData
  split
  · split
    · simp [putAt, State.bytesP, leBytes]
      omega
    · simp [State.bytesP]
  · simp [State.bytesP]

/-- What a read of a codeword returns depends on its bytes and its syndromes alone. -/
theorem State.readP_congr {t : State} {p : Nat} (syn : t.syn (p / 32) = s.syn (p / 32))
    (bytes : ∀ q, q / 32 = p / 32 → t.byteP q = s.byteP q) : t.readP p = s.readP p := by
  have same : t.bytesP (32 * (p / 32)) 32 = s.bytesP (32 * (p / 32)) 32 :=
    List.map_congr_left fun k hk => bytes _ (by have := List.mem_range.1 hk; omega)
  rw [State.readP, State.readP, State.cwData, State.cwData, syn, same]

theorem State.syn_of_ecc_nil (h : s.ecc = []) (w : Nat) : s.syn w = Syn.clean := by
  rw [State.syn, h]
  rfl

/-- A read of window 1 returns what stands at the places of its bytes. -/
theorem State.peek_eq_readP (a len : Nat) : s.peek a len = (List.range len).map fun k => s.readP (s.phys (a + k)) := by
  unfold State.peek
  split
  · next e =>
    refine List.map_congr_left fun k _ => (s.readP_of_asStored ?_).symm
    rw [s.syn_of_ecc_nil e]
    exact Syn.asStored_clean
  · rfl

end

/-! A codeword that is mended before part of it is written (R120) -/

section
variable (s : State)

@[simp] theorem State.setSyn_syn_self (w : Nat) (x : Syn) : (s.setSyn w x).syn w = x := SMap.get_put_self _ _ _ _

theorem State.setSyn_syn_of_ne {v w : Nat} (x : Syn) (h : v ≠ w) : (s.setSyn w x).syn v = s.syn v := SMap.get_put_of_ne _ _ _ h

@[simp] theorem State.setSyn_byteP (w : Nat) (x : Syn) (p : Nat) : (s.setSyn w x).byteP p = s.byteP p := rfl

theorem State.asStored_setSyn {v w : Nat} {x : Syn} (hx : x.asStored) (hv : (s.syn v).asStored) : ((s.setSyn w x).syn v).asStored := by
  by_cases e : v = w
  · rw [e, State.setSyn_syn_self]
    exact hx
  · rwa [State.setSyn_syn_of_ne s x e]

/-- New syndromes that correct nothing leave what a read returns, where the old ones corrected nothing. -/
theorem State.readP_setSyn {w p : Nat} {x : Syn} (hx : x.asStored) (hw : (s.syn w).asStored) : (s.setSyn w x).readP p = s.readP p := by
  by_cases e : p / 32 = w
  · rw [State.readP_of_asStored _ (s.asStored_setSyn hx (e ▸ hw)), s.readP_of_asStored (e ▸ hw), State.setSyn_byteP]
  · exact s.readP_congr (s.setSyn_syn_of_ne x e) fun _ _ => rfl

theorem State.byteP_putP (p : Nat) (d : Bytes) (q : Nat) :
    (s.putP p d).byteP q = if p ≤ q ∧ q < p + d.length then d.getD (q - p) 0#8 else s.byteP q := by
  induction d generalizing s p with
  | nil => exact (if_neg (by simp)).symm
  | cons b d ih =>
    have first : ({ s with mem := memPut s.mem p b } : State).byteP q = if q = p then b else s.byteP q := byteP_memPut ..
    rw [State.putP, ih, first, List.length_cons]
    by_cases e : q = p
    · subst e
      simp
    · by_cases inside : p + 1 ≤ q ∧ q < p + 1 + d.length
      · rw [if_pos inside, if_pos (by omega), show q - p = q - (p + 1) + 1 by omega, List.getD_cons_succ]
      · rw [if_neg inside, if_neg e, if_neg (by omega)]

@[simp] theorem State.putP_ecc (p : Nat) (d : Bytes) : (s.putP p d).ecc = s.ecc := by
  induction d generalizing s p with
  | nil => rfl
  | cons b d ih => rw [State.putP, ih]

@[simp] theorem State.putAll_ecc (a : Nat) (d : Bytes) : (s.putAll a d).ecc = s.ecc := by
  induction d generalizing s a with
  | nil => rfl
  | cons b d ih => rw [State.putAll, ih]

@[simp] theorem State.putP_syn (p : Nat) (d : Bytes) (w : Nat) : (s.putP p d).syn w = s.syn w := by
  unfold State.syn
  rw [State.putP_ecc]

@[simp] theorem State.putAll_syn (a : Nat) (d : Bytes) (w : Nat) : (s.putAll a d).syn w = s.syn w := by
  unfold State.syn
  rw [State.putAll_ecc]

/-- What mending a codeword does: its corrected data are written back, or it becomes poison, or it was clean. -/
theorem State.repairCw_cases (w : Nat) :
    s.repairCw w = s ∧ (s.syn w).asStored ∨
    s.repairCw w = (s.putP (32 * w) (s.cwData w)).setSyn w Syn.clean ∨
    s.repairCw w = s.setSyn w Syn.poison ∧ (s.syn w).asStored := by
  unfold State.repairCw Syn.asStored
  cases (s.syn w).read <;> simp

theorem State.asStored_repairCw_self (w : Nat) : ((s.repairCw w).syn w).asStored := by
  obtain ⟨e, h⟩ | e | ⟨e, -⟩ := s.repairCw_cases w <;> rw [e]
  · exact h
  · rw [State.setSyn_syn_self]
    exact Syn.asStored_clean
  · rw [State.setSyn_syn_self]
    exact Syn.asStored_poison

theorem State.asStored_repairCw (w : Nat) {v : Nat} (h : (s.syn v).asStored) : ((s.repairCw w).syn v).asStored := by
  obtain ⟨e, -⟩ | e | ⟨e, -⟩ := s.repairCw_cases w <;> rw [e]
  · exact h
  · exact State.asStored_setSyn _ Syn.asStored_clean (by rwa [State.putP_syn])
  · exact s.asStored_setSyn Syn.asStored_poison h

/-- Mending a codeword changes nothing that a read returns. -/
theorem State.readP_repairCw (w p : Nat) : (s.repairCw w).readP p = s.readP p := by
  obtain ⟨e, -⟩ | e | ⟨e, h⟩ := s.repairCw_cases w <;> rw [e]
  · by_cases own : p / 32 = w
    · have clean : (((s.putP (32 * w) (s.cwData w)).setSyn w Syn.clean).syn (p / 32)).asStored := by
        rw [own, State.setSyn_syn_self]
        exact Syn.asStored_clean
      rw [State.readP_of_asStored _ clean, State.setSyn_byteP, State.byteP_putP, State.length_cwData, if_pos (by omega), State.readP, own,
        show p - 32 * w = p % 32 by omega]
    · refine s.readP_congr ?_ fun q hq => ?_
      · rw [State.setSyn_syn_of_ne _ _ own, State.putP_syn]
      · rw [State.setSyn_byteP, State.byteP_putP, State.length_cwData, if_neg (by omega)]
  · exact s.readP_setSyn Syn.asStored_poison h

theorem State.readP_foldl_repairCw (l : List Nat) (p : Nat) : (l.foldl State.repairCw s).readP p = s.readP p := by
  induction l generalizing s with
  | nil => rfl
  | cons w l ih => rw [List.foldl_cons, ih, State.readP_repairCw]

theorem State.asStored_foldl_repairCw {l : List Nat} {v : Nat} (h : v ∈ l ∨ (s.syn v).asStored) :
    ((l.foldl State.repairCw s).syn v).asStored := by
  induction l generalizing s with
  | nil => exact h.resolve_left List.not_mem_nil
  | cons w l ih =>
    refine ih _ ?_
    rcases h with m | stored
    · rcases List.mem_cons.1 m with rfl | m
      · exact .inr (s.asStored_repairCw_self v)
      · exact .inl m
    · exact .inr (s.asStored_repairCw w stored)

/-- Codewords made clean leave what a read returns, where the old syndromes corrected nothing. -/
theorem State.readP_foldl_clean (lo p : Nat) {l : List Nat} (h : ∀ k ∈ l, (s.syn (s.phys (32 * (lo + k)) / 32)).asStored) :
    (l.foldl (fun s k => s.setSyn (s.phys (32 * (lo + k)) / 32) Syn.clean) s).readP p = s.readP p := by
  induction l generalizing s with
  | nil => rfl
  | cons j l ih =>
    rw [List.foldl_cons, ih, s.readP_setSyn Syn.asStored_clean (h j List.mem_cons_self)]
    intro k m
    rw [State.phys_of_regs (s.setSyn_regs ..)]
    exact s.asStored_setSyn Syn.asStored_clean (h k (List.mem_cons_of_mem j m))

end

/-! What a read returns after a store (R118 to R120) -/

section
variable (s : State)

/-- The state whose codewords that a store touches have been mended. -/
def State.mended (a len : Nat) : State := (s.cwsOf a len).foldl State.repairCw s

@[simp] theorem State.mended_regs (a len : Nat) : (s.mended a len).regs = s.regs := State.foldRepair_regs s _

theorem State.mended_of_ecc_nil (h : s.ecc = []) (a len : Nat) : s.mended a len = s := by
  have none_mended : ∀ l : List Nat, l.foldl State.repairCw s = s := fun l => by
    induction l with
    | nil => rfl
    | cons w l ih =>
      have : s.repairCw w = s := by
        unfold State.repairCw
        rw [s.syn_of_ecc_nil h]
        rfl
      rw [List.foldl_cons, this, ih]
  exact none_mended _

theorem State.asStored_mended {a len k : Nat} (h : Config.hbmBase ≤ a) (hk : k < len) :
    ((s.mended a len).syn (s.phys (a + k) / 32)).asStored := s.asStored_foldl_repairCw (.inl (s.mem_cwsOf h hk))

/-- To a read, a store is its bytes written into the mended codewords. -/
theorem State.readP_store (a : Nat) (d : Bytes) (p : Nat) : (s.store a d).readP p = ((s.mended a d.length).putAll a d).readP p := by
  unfold State.store
  split
  · next e => rw [s.mended_of_ecc_nil e]
  · refine State.readP_foldl_clean _ _ _ fun k m => ?_
    rw [State.putAll_syn, State.phys_of_regs (State.putAll_regs ..), State.phys_of_regs (State.foldRepair_regs ..)]
    exact s.asStored_foldl_repairCw (.inl (s.mem_cwsOf_whole (List.mem_range.1 m)))

variable {a : Nat} {d : Bytes}

/-- A place of the store reads the byte stored there. -/
theorem State.readP_store_at (h : Config.hbmBase ≤ a) {k : Nat} (hk : k < d.length) : (s.store a d).readP (s.phys (a + k)) = d[k] := by
  rw [State.readP_store, State.readP_of_asStored _ (by rw [State.putAll_syn]; exact s.asStored_mended h hk)]
  have same : ∀ x, (s.mended a d.length).phys x = s.phys x := State.phys_of_regs (s.mended_regs ..)
  rw [← same, byteP_putAll_self _ a d k hk]
  intro j _ ne e
  rw [same, same] at e
  have := s.phys_inj (by omega) (by omega) e
  omega

/-- A place that the store does not reach reads as before. -/
theorem State.readP_store_of_ne (h : Config.hbmBase ≤ a) {p : Nat} (apart : ∀ k, k < d.length → s.phys (a + k) ≠ p) :
    (s.store a d).readP p = s.readP p := by
  have kept : ∀ q, (∀ k, k < d.length → s.phys (a + k) ≠ q) →
      ((s.mended a d.length).putAll a d).byteP q = (s.mended a d.length).byteP q := fun q hq =>
    byteP_putAll_of_ne _ a d q fun k hk => by rw [State.phys_of_regs (s.mended_regs ..)]; exact hq k hk
  have unmended : (s.mended a d.length).readP p = s.readP p := s.readP_foldl_repairCw _ p
  rw [State.readP_store, ← unmended]
  by_cases touched : ∃ k, k < d.length ∧ s.phys (a + k) / 32 = p / 32
  · obtain ⟨k, hk, e⟩ := touched
    have stored := s.asStored_mended h hk
    rw [e] at stored
    rw [State.readP_of_asStored _ (by rwa [State.putAll_syn]), State.readP_of_asStored _ stored, kept p apart]
  · refine State.readP_congr _ (State.putAll_syn ..) fun q hq => kept q fun k hk e => touched ⟨k, hk, ?_⟩
    rw [e, hq]

theorem le_of_inHbm {len : Nat} (h : inHbm a len = true) : Config.hbmBase ≤ a := by
  simp only [inHbm, Bool.and_eq_true, decide_eq_true_eq] at h
  exact h.1

end

/-- Settles O27: a store mends the codewords that it touches, and no two bytes share a place. -/
theorem memoryReadsBack : Obligations.MemoryReadsBack := by
  unfold Obligations.MemoryReadsBack
  intro s a d inside
  have base := le_of_inHbm inside
  have same : ∀ x, (s.store a d).phys x = s.phys x := State.phys_of_regs (s.store_regs a d)
  refine ⟨?_, fun b hb outside => ?_, store_wf s a d, fun x y hx hy => s.phys_inj (le_of_inHbm hx) (le_of_inHbm hy)⟩
  · rw [State.peek_eq_readP]
    refine List.ext_getElem (by simp) fun k _ hk => ?_
    rw [List.getElem_map, List.getElem_range, same, s.readP_store_at base hk]
  · rw [State.peek_eq_readP, State.peek_eq_readP]
    refine List.map_congr_left fun k hk => ?_
    rw [same, s.readP_store_of_ne base]
    intro j hj e
    have := s.phys_inj (by omega) (Nat.le_add_right_of_le (le_of_inHbm hb)) e
    have := List.mem_range.1 hk
    omega

end Sys2Proof.Machine
end

section
/-! PROOFS. The check code: the product by α in GF(2^64), and the data symbol that a pair of syndromes names (R118, R119). -/
namespace Sys2Proof.Machine

theorem mulAlphaN_eq_iterate (n : Nat) : mulAlphaN n = mulAlpha^[n] := by
  induction n with
  | zero => rfl
  | succ n ih => funext x; rw [mulAlphaN, ih, Function.iterate_succ_apply]

/-- The product by α is linear (R118). -/
theorem mulAlpha_xor (x y : BitVec 64) : mulAlpha (x ^^^ y) = mulAlpha x ^^^ mulAlpha y := by
  have carry : ∀ a b : Bool, (if (a ^^ b) then 0x1b#64 else 0#64) = (if a then 0x1b#64 else 0#64) ^^^ if b then 0x1b#64 else 0#64 := by
    decide
  unfold mulAlpha
  rw [BitVec.shiftLeft_xor_distrib, BitVec.msb_xor, carry]
  ac_rfl

theorem iterate_mulAlpha_xor (n : Nat) (x y : BitVec 64) : mulAlpha^[n] (x ^^^ y) = mulAlpha^[n] x ^^^ mulAlpha^[n] y := by
  induction n generalizing x y with
  | zero => rfl
  | succ n ih => simp only [Function.iterate_succ_apply, mulAlpha_xor, ih]

/-- Where the highest bit is 0, the product by α is a shift. -/
theorem mulAlpha_of_msb {x : BitVec 64} (h : x.msb = false) : mulAlpha x = x <<< 1 := by
  simp [mulAlpha, h]

theorem mulAlpha_eq_zero {x : BitVec 64} (h : mulAlpha x = 0#64) : x = 0#64 := by
  cases m : x.msb
  case false =>
    rw [mulAlpha_of_msb m] at h
    rw [BitVec.msb_eq_false_iff_two_mul_lt] at m
    bv_omega
  case true =>
    have low := congrArg (·.getLsbD 0) h
    simp [mulAlpha, m] at low

theorem mulAlpha_injective : Function.Injective mulAlpha := fun x y h =>
  BitVec.xor_eq_zero_iff.1 (mulAlpha_eq_zero (by rw [mulAlpha_xor, h, BitVec.xor_self]))

/-- Every number is its lowest bit and the product by α of the bits above it. -/
theorem eq_mulAlpha_xor_low (x : BitVec 64) : x = mulAlpha (x >>> 1) ^^^ if x.getLsbD 0 then 1#64 else 0#64 := by
  rw [mulAlpha_of_msb (by simp)]
  ext i
  rcases i with _ | i
  · cases h : x.getLsbD 0 <;> simpa using h
  · cases x.getLsbD 0 <;> simp [Nat.add_comm 1 i, BitVec.getLsbD_eq_getElem, *]

/-- What holds of 0 and of 1 and is kept by sums and by the product by α holds of every number. -/
theorem mulAlpha_induction {P : BitVec 64 → Prop} (zero : P 0#64) (one : P 1#64) (xor : ∀ x y, P x → P y → P (x ^^^ y))
    (mul : ∀ x, P x → P (mulAlpha x)) (x : BitVec 64) : P x := by
  induction h : x.toNat using Nat.strong_induction_on generalizing x with
  | _ n ih =>
    by_cases z : x = 0#64
    · exact z ▸ zero
    · have shorter : (x >>> 1).toNat < n := by bv_omega
      rw [eq_mulAlpha_xor_low x]
      refine xor _ _ (mul _ (ih _ shorter _ rfl)) ?_
      split <;> assumption

/-- R118: α^64 = α^4 + α^3 + α + 1. -/
theorem iterate_mulAlpha_64 (x : BitVec 64) : mulAlpha^[64] x = mulAlpha^[4] x ^^^ mulAlpha^[3] x ^^^ mulAlpha x ^^^ x := by
  induction x using mulAlpha_induction with
  | zero => decide +kernel
  | one => decide +kernel
  | xor x y hx hy =>
    rw [iterate_mulAlpha_xor, hx, hy, iterate_mulAlpha_xor, iterate_mulAlpha_xor, mulAlpha_xor]
    ac_rfl
  | mul x hx =>
    have out (n : Nat) : mulAlpha^[n] (mulAlpha x) = mulAlpha (mulAlpha^[n] x) := (Function.Commute.self_iterate mulAlpha n x).symm
    rw [out, out, out, hx, mulAlpha_xor, mulAlpha_xor, mulAlpha_xor]

/-- No number but 0 is its own product by α^6. -/
theorem eq_zero_of_isPeriodicPt {x : BitVec 64} (h : Function.IsPeriodicPt mulAlpha 6 x) : x = 0#64 := by
  have four : mulAlpha^[64] x = mulAlpha^[4] x :=
    (Function.iterate_add_apply mulAlpha 4 60 x).trans (congrArg _ (h.mul_const 10))
  have three : mulAlpha^[3] x = mulAlpha x ^^^ x := by
    rw [iterate_mulAlpha_64, BitVec.xor_assoc, BitVec.xor_assoc] at four
    exact BitVec.xor_eq_zero_iff.1 (by simpa using four)
  have two : mulAlpha (mulAlpha x) = 0#64 := by
    have out : mulAlpha^[3] (mulAlpha x) = mulAlpha (mulAlpha^[3] x) := rfl
    have six : mulAlpha^[3] (mulAlpha^[3] x) = x := h
    rw [three, iterate_mulAlpha_xor, out, three, mulAlpha_xor, BitVec.xor_assoc, ← BitVec.xor_assoc (mulAlpha x)] at six
    simpa using six
  exact mulAlpha_eq_zero (mulAlpha_eq_zero two)

theorem mulAlphaN_ne {e : BitVec 64} (h : e ≠ 0#64) {i j : Nat} (hij : j < i) (hi : i < 4) : mulAlphaN i e ≠ mulAlphaN j e := by
  rw [mulAlphaN_eq_iterate, mulAlphaN_eq_iterate]
  intro same
  have period : Function.IsPeriodicPt mulAlpha (i - j) e := by
    apply (mulAlpha_injective.iterate j)
    rw [← Function.iterate_add_apply, Nat.add_sub_of_le hij.le, same]
  have divides : i - j ∣ 6 := by
    have : i - j = 1 ∨ i - j = 2 ∨ i - j = 3 := by omega
    rcases this with e | e | e <;> rw [e] <;> decide
  exact h (eq_zero_of_isPeriodicPt (period.trans_dvd divides))


/-- An error in one data symbol is named (R119). -/
theorem Syn.read_dataSymbol {e : BitVec 64} (h : e ≠ 0#64) {i : Nat} (hi : i < 4) : (Syn.mk e (mulAlphaN i e)).read = .corrected i := by
  have nonzero : mulAlphaN i e ≠ 0#64 := by
    rw [mulAlphaN_eq_iterate]
    intro z
    exact h (mulAlpha_injective.iterate i (z.trans (Function.iterate_fixed (by decide) i).symm))
  have found : (List.range 4).find? (fun j => decide (mulAlphaN i e = mulAlphaN j e)) = some i := by
    rw [List.find?_range_eq_some]
    exact ⟨decide_eq_true rfl, List.mem_range.2 hi, fun j hj => by simpa using mulAlphaN_ne h hj hi⟩
  simp only [Syn.read, if_neg h, if_neg nonzero, found]

/-- Settles O28: the products of a nonzero error by 1, α, α^2 and α^3 differ, so that the second syndrome names one symbol. -/
theorem singleSymbolIsCorrected : Obligations.SingleSymbolIsCorrected := by
  unfold Obligations.SingleSymbolIsCorrected
  refine ⟨fun e i h hi => Syn.read_dataSymbol h hi, fun e h => ⟨?_, ?_⟩, rfl⟩
  · simp only [Syn.read, if_neg h, if_true]
  · simp only [Syn.read, if_neg h, if_true]

end Sys2Proof.Machine
end

section
/-! PROOFS. Press units: what their updates leave unchanged, and when the grant finds nothing to take (R105 to R112, R117, R501). -/
namespace Sys2Proof.Machine

section
variable (s : State)

@[simp] theorem State.setF_pu (x : Fld) (i v u : Nat) : (s.setF x i v).pu u = s.pu u := rfl
@[simp] theorem State.addF_pu (x : Fld) (i n u : Nat) : (s.addF x i n).pu u = s.pu u := rfl
@[simp] theorem State.clearReg_pu (r : Reg) (i u : Nat) : (s.clearReg r i).pu u = s.pu u := rfl

theorem State.pu_of_press {a b : State} (h : a.press = b.press) (u : Nat) : a.pu u = b.pu u := by
  unfold State.pu
  rw [h]

/-! The work that wakes a base die (R501) -/

theorem State.askWake_press (d : Nat) : (s.askWake d).press = s.press := by
  unfold State.askWake State.setDom
  split
  · rw [State.setPwr_press]
  · split
    · rfl
    · dsimp only
      split
      · rw [State.setF_press, State.setPwr_press]
      · rw [State.setPwr_press, State.setPwr_press]

theorem State.foldl_askWake_press (l : List Nat) : (l.foldl State.askWake s).press = s.press := by
  induction l generalizing s with
  | nil => rfl
  | cons d l ih => rw [List.foldl_cons, ih, State.askWake_press]

theorem State.wakeFor_pu (d u : Nat) : (s.wakeFor d).pu u = s.pu u := State.pu_of_press (s.foldl_askWake_press _) u

/-! The grant (R110, R501) -/

/-- A unit that runs a window takes nothing. -/
theorem State.grantPress_busy (fuel : Nat) {u : Nat} (h : (s.pu u).win ≠ none) : State.grantPress fuel s u = s := by
  cases fuel with
  | zero => rfl
  | succ fuel =>
    obtain ⟨w, e⟩ := Option.ne_none_iff_exists'.1 h
    simp only [State.grantPress, e, ite_self]

/-- A free unit whose base die sleeps asks for its wake. -/
theorem State.grantPress_asleep (fuel : Nat) {u : Nat} {j : PressJob} (runs : s.pressHalted u = false) (free : (s.pu u).win = none)
    (next : s.nextPress u = some j) (asleep : s.depth (14 + u / 64) ≠ 0) :
    State.grantPress (fuel + 1) s u = s.wakeFor (14 + u / 64) := by
  simp only [State.grantPress, runs, free, next, Bool.false_eq_true, if_false, if_pos asleep]

end
end Sys2Proof.Machine
end

section
/-! PROOFS. Press commands: how one joins its unit's queue, and what it does on a unit that sleeps (R105, R107, R108, R501). -/
namespace Sys2Proof.Machine

section
variable (s : State)

/-- A unit with one more command in its queue, and QUEUE_PEAK following (R105). -/
def State.queuePress (u : Nat) (j : PressJob) : State :=
  (s.setPu u fun p => { p with queue := p.queue ++ [j] }).setF F.PRESS_LOAD_QUEUE_PEAK u
    (max (s.f F.PRESS_LOAD_QUEUE_PEAK u) ((s.pu u).queue.length + 1))

theorem State.queuePress_pu (u : Nat) (j : PressJob) : (s.queuePress u j).pu u = { s.pu u with queue := (s.pu u).queue ++ [j] } := by
  rw [State.queuePress, State.setF_pu, State.setPu_pu_self]

theorem State.queuePress_depth {u d : Nat} (j : PressJob) (hu : u < 512) (hd : d < 44) : (s.queuePress u j).depth d = s.depth d :=
  (State.f_setF_of_ne _ _ (Reg.addr_ne (by decide) hd hu)).trans (State.setPu_f ..)

/-- The unit is of the tile's partition, and the command's OP and head are in order (R107, R108). -/
def State.pressOk (t u op : Nat) (k : Bytes) : Prop :=
  s.pressOwner u = some ((s.tileOwner t).getD 8) ∧
    pcOp k = op ∧ pcHeadOk k ((s.tileOwner t).getD 8) (s.hdr u (leAt k 32 4)).next = true

variable {t u op : Nat} {j : PressJob}

/-- A command in order joins the queue of a unit that has room and is not fenced, and the unit is granted. -/
theorem State.pressCmd_joins (good : s.pressOk t u op j.cmd) (room : (s.pu u).queue.length < 64)
    (unfenced : s.pressFenced u = false ∨ op = opWrite) : s.pressCmd t u op j true = State.grantPress 65 (s.queuePress u j) u := by
  obtain ⟨own, row, head⟩ := good
  have kept : ¬ (64 ≤ (s.pu u).queue.length ∨ s.pressFenced u = true ∧ op ≠ opWrite) := by
    rintro (full | ⟨fenced, other⟩)
    · exact Nat.not_le.2 room full
    · exact unfenced.elim (fun h => by simp [h] at fenced) other
  refine (if_neg (by simp [own])).trans ((if_neg (by simp [row, head])).trans ((if_neg kept).trans ?_))
  simp only [State.setPu_f, State.setPu_pu_self, List.length_append, List.length_singleton]
  rfl

/-- A command that joins the queue of a free unit whose base die sleeps is work that wakes it, and waits. -/
theorem State.pressCmd_asleep {j' : PressJob} (good : s.pressOk t u op j.cmd) (room : (s.pu u).queue.length < 64)
    (unfenced : s.pressFenced u = false ∨ op = opWrite) (hu : u < 512) (free : (s.pu u).win = none)
    (runs : (s.queuePress u j).pressHalted u = false) (asleep : s.depth (14 + u / 64) ≠ 0)
    (next : (s.queuePress u j).nextPress u = some j') : s.pressCmd t u op j true = (s.queuePress u j).wakeFor (14 + u / 64) := by
  rw [s.pressCmd_joins good room unfenced]
  refine State.grantPress_asleep _ 64 runs ?_ next ?_
  · rw [State.queuePress_pu, free]
  · rwa [s.queuePress_depth j hu (by omega)]

end

/-! A unit that sleeps with a DISCARD waiting, and a second one that comes -/

/-- A DISCARD of a pass, from partition 0. -/
def discardOf (pass : Nat) : Bytes := [7#8] ++ zeros 11 ++ leBytes 4 pass ++ zeros 48

/-- The DISCARD of a pass as tile 0 queues it. -/
def discardJob (pass : Nat) : PressJob := ⟨0, discardOf pass, [], []⟩

/-- Tile 0 and press unit 0 belong to partition 0; the base die of the unit is gated, and the DISCARD of pass 1 waits in its queue. -/
def discardWaits : State :=
  (((State.reset.setReg .trlTileOwn 0 8).setReg .trlPressOwn 0 8).setF F.CLK_DOM_STATE 14 1).setPu 0 fun p =>
    { p with queue := [discardJob 1] }

theorem discardWaits_pressOk (pass : Nat) (h : pass = 1 ∨ pass = 2) : discardWaits.pressOk 0 0 opDiscard (discardJob pass).cmd := by
  unfold State.pressOk
  rcases h with rfl | rfl <;> decide +kernel

/-- Refutes O48: its clause on a base die that sleeps binds the command anew, as whichever command is next in the unit's queue, and not
as the one that is given. Where the DISCARD of pass 1 waits and that of pass 2 is given, it speaks of the DISCARD of pass 1 given once
more, and of a queue that the DISCARD of pass 2 has joined. By `State.pressCmd_asleep` the DISCARD of pass 1 stands there twice. -/
theorem not_pressCommandsQueue : ¬ Obligations.PressCommandsQueue := by
  unfold Obligations.PressCommandsQueue
  intro h
  have row := (h discardWaits 0 0 0 (discardOf 2) [] [] (by decide +kernel)).1 (.discard 0 0 (discardOf 2)) opDiscard (discardJob 2)
    (by simp [discardJob])
  obtain ⟨-, -, -, -, -, -, joins⟩ := row
  have room : (discardWaits.pu 0).queue.length < 64 := by decide +kernel
  have unfenced : discardWaits.pressFenced 0 = false ∨ opDiscard = opWrite := .inl (by decide +kernel)
  have free : (discardWaits.pu 0).win = none := by decide +kernel
  have asleep : discardWaits.depth 14 ≠ 0 := by decide +kernel
  have first : (discardWaits.queuePress 0 (discardJob 2)).nextPress 0 = some (discardJob 1) := by decide +kernel
  obtain ⟨-, clause, -, -⟩ := joins (discardWaits_pressOk 2 (.inr rfl)) room unfenced
  have claimed : discardWaits.pressCmd 0 0 opDiscard (discardJob 1) true = (discardWaits.queuePress 0 (discardJob 2)).wakeFor 14 :=
    clause free (by decide +kernel) asleep (discardJob 1) first
  have given : discardWaits.pressCmd 0 0 opDiscard (discardJob 1) true = (discardWaits.queuePress 0 (discardJob 1)).wakeFor 14 :=
    discardWaits.pressCmd_asleep (j' := discardJob 1) (discardWaits_pressOk 1 (.inl rfl)) room unfenced (by decide) free
      (by decide +kernel) asleep (by decide +kernel)
  have queues := congrArg (fun s : State => (s.pu 0).queue) (given.symm.trans claimed)
  simp only [State.wakeFor_pu, State.queuePress_pu] at queues
  exact absurd queues (by decide +kernel)

end Sys2Proof.Machine
end

section
/-! PROOFS. The end of a window, the accounting period, refreshes and rewrites (R111, R112, R115, R116, R121). -/
namespace Sys2Proof.Machine

section
variable (s : State)

/-! What goes to a tile -/

@[simp] theorem State.emitPress_pu (n t : Nat) (b : Bytes) (u : Nat) : (s.emitPress n t b).pu u = s.pu u := by
  unfold State.emitPress
  split <;> rfl

@[simp] theorem State.emitPress_mem (n t : Nat) (b : Bytes) : (s.emitPress n t b).mem = s.mem := by
  unfold State.emitPress
  split <;> rfl

@[simp] theorem State.emitPress_regs (n t : Nat) (b : Bytes) : (s.emitPress n t b).regs = s.regs := by
  unfold State.emitPress
  split <;> rfl

theorem State.emitPress_pressOut {n t : Nat} {b : Bytes} (h : b ≠ []) : (s.emitPress n t b).pressOut = s.pressOut ++ [⟨n, t, b⟩] := by
  rw [State.emitPress, if_neg h]

/-! The end of a window (R111, R112) -/

section
variable {u : Nat} {w : Win}

/-- The window is the last of a pass of the second class. -/
def Win.endsPass (w : Win) : Bool := pcLast w.job.cmd && pressClass w.job == 1

/-- A unit whose window ends: the window is gone, and the pass that it ends. -/
def PressUnit.ended (p : PressUnit) (w : Win) : PressUnit :=
  { p with win := none, passes := if w.endsPass then p.passes.filter (· != passTag w.job.cmd) else p.passes }

/-- The registers of a unit whose window ends: PRESS_WIN_LEN reads as at reset, and its cycles are counted. -/
def State.countWindow (u : Nat) (w : Win) : State := (s.clearReg .pressWinLen u).addF F.PRESS_WIN_STAT_WIN_CYCLES u w.len

theorem State.countWindow_cycles (hu : u < 512) :
    (s.countWindow u w).f F.PRESS_WIN_STAT_WIN_CYCLES u = satAdd 32 (s.f F.PRESS_WIN_STAT_WIN_CYCLES u) w.len := by
  have kept : (s.clearReg .pressWinLen u).f F.PRESS_WIN_STAT_WIN_CYCLES u = s.f F.PRESS_WIN_STAT_WIN_CYCLES u :=
    State.f_setReg_of_ne s _ (Reg.addr_ne (by decide) hu hu)
  rw [State.countWindow, State.f_addF_self _ _ _ _ (by decide) (by decide), kept]
  rfl

theorem State.countWindow_len (hu : u < 512) : (s.countWindow u w).f F.PRESS_WIN_LEN_LEN u = 0 := by
  have kept : (s.countWindow u w).f F.PRESS_WIN_LEN_LEN u = (s.clearReg .pressWinLen u).f F.PRESS_WIN_LEN_LEN u :=
    State.f_setF_of_ne _ _ (Reg.addr_ne (by decide) hu hu)
  have reset : Reg.pressWinLen.resetVal u = 0 := rfl
  have cleared : (s.clearReg .pressWinLen u).reg .pressWinLen u = 0 := by
    rw [State.clearReg, State.reg_setReg_self, reset, Nat.zero_mod]
  rw [kept]
  exact congrArg (bits · 11 0) cleared

theorem State.endWindow_eq (h : (s.pu u).win = some w) :
    s.endWindow u = (((s.countWindow u w).setPu u fun p => p.ended w).emitPress u w.job.tile w.status).emitPress u w.job.tile w.records := by
  simp only [State.endWindow, h]
  rfl

theorem State.endWindow_pu (h : (s.pu u).win = some w) : (s.endWindow u).pu u = (s.pu u).ended w := by
  rw [s.endWindow_eq h, State.emitPress_pu, State.emitPress_pu, State.setPu_pu_self, State.countWindow, State.addF_pu, State.clearReg_pu]

theorem State.endWindow_mem (h : (s.pu u).win = some w) : (s.endWindow u).mem = s.mem := by
  rw [s.endWindow_eq h, State.emitPress_mem, State.emitPress_mem, State.setPu_mem, State.countWindow, State.addF_mem, State.clearReg,
    State.setReg_mem]

theorem State.endWindow_f (h : (s.pu u).win = some w) (x : Fld) (i : Nat) : (s.endWindow u).f x i = (s.countWindow u w).f x i :=
  State.f_of_regs (by rw [s.endWindow_eq h, State.emitPress_regs, State.emitPress_regs, State.setPu_regs]) x i

/-- The status word goes out before the records. -/
theorem State.endWindow_pressOut (h : (s.pu u).win = some w) (status : w.status ≠ []) (records : w.records ≠ []) :
    (s.endWindow u).pressOut = s.pressOut ++ [⟨u, w.job.tile, w.status⟩, ⟨u, w.job.tile, w.records⟩] := by
  rw [s.endWindow_eq h, State.emitPress_pressOut _ records, State.emitPress_pressOut _ status, State.setPu_pressOut, State.countWindow,
    State.addF_pressOut, State.clearReg, State.setReg_pressOut, List.append_assoc]
  rfl

theorem PressUnit.ended_passes_last (p : PressUnit) (last : pcLast w.job.cmd = true) (second : pressClass w.job = 1) :
    passTag w.job.cmd ∉ (p.ended w).passes := by
  simp [PressUnit.ended, Win.endsPass, last, second]

theorem PressUnit.ended_passes_other (p : PressUnit) (h : pcLast w.job.cmd = false ∨ pressClass w.job ≠ 1) :
    (p.ended w).passes = p.passes := by
  have goesOn : w.endsPass = false := by
    rcases h with h | h <;> simp [Win.endsPass, h]
  simp [PressUnit.ended, goesOn]

end

/-! The accounting period (R115) -/

theorem State.endPeriod_free {u : Nat} (h : (s.pu u).win = none) :
    s.endPeriod u = s.setPu u fun p => { p with used := p.used - s.pressBudget u, usedWr := 0, usedRack := 0 } := by
  simp only [State.endPeriod, h]

/-- The cycles of a window that are still to come fall in the next period: at most those that no period has taken. -/
theorem State.endPeriod_window {u : Nat} {w : Win} (h : (s.pu u).win = some w) :
    ∃ rest, rest ≤ w.rest ∧ ((s.endPeriod u).pu u).win = some { w with rest := rest } ∧
      ((s.endPeriod u).pu u).used = ((s.pu u).used - rest - s.pressBudget u) + rest := by
  have drawn : s.draw.1.pu u = s.pu u := rfl
  refine ⟨Config.pressElapsed s.draw.2 w.rest % (w.rest + 1), Nat.le_of_lt_succ (Nat.mod_lt _ (Nat.succ_pos _)), ?_⟩
  simp only [State.endPeriod, h, State.setPu_pu_self, drawn, and_self]

end

/-- Settles O49: each row finds the unit with or without a window, and the end of a window changes the unit, its registers and what
goes to the tile alone. -/
theorem pressUnitsKeepTime : Obligations.PressUnitsKeepTime := by
  unfold Obligations.PressUnitsKeepTime
  intro s u st b hl
  dsimp only
  have hu : u.toNat < 512 := u.isLt
  refine ⟨⟨?_, s.grantPress_busy 65⟩, fun free => ?_, fun w running => ?_, ?_, s.endPeriod_free, fun w => s.endPeriod_window,
    fun unheld => ?_, fun w running held => ?_, fun clean => ?_, fun cw rest owed => ⟨fun unheld => ?_, fun w running held => ?_⟩⟩
  · rw [exec_windowGrant, execWindowGrant, gated_live _ _ hl]
  · rw [exec_windowEnd, execWindowEnd, gated_live _ _ hl, if_pos (Option.isNone_iff_eq_none.2 free)]
  · have unit := s.endWindow_pu running
    refine ⟨?_, ?_, ?_, ?_, ?_, s.endWindow_mem running, ?_, s.endWindow_pressOut running, ?_, ?_⟩
    · rw [exec_windowEnd, execWindowEnd, gated_live _ _ hl, if_neg (by simp [running])]
    · rw [unit, PressUnit.ended]
    · rw [s.endWindow_f running, s.countWindow_cycles hu]
    · rw [unit, PressUnit.ended]
    · rw [unit, PressUnit.ended]
    · rw [s.endWindow_f running, s.countWindow_len hu]
    · rw [unit]
      exact PressUnit.ended_passes_last _
    · rw [unit]
      exact PressUnit.ended_passes_other _
  · rw [exec_accountingPeriod, execAccountingPeriod, gated_live _ _ hl]
  · rw [exec_refresh, execRefresh, gated_live _ _ hl]
    cases running : (s.pu u.toNat).win with
    | none => rfl
    | some w => simp only [unheld w running, Bool.false_eq_true, if_false]
  · rw [exec_refresh, execRefresh, gated_live _ _ hl]
    simp only [running, held, if_true]
  · rw [exec_correctedRewrite, execCorrectedRewrite, gated_live _ _ hl]
    simp only [clean]
  · rw [exec_correctedRewrite, execCorrectedRewrite, gated_live _ _ hl]
    cases running : (s.pu u.toNat).win with
    | none => simp only [owed, Bool.false_eq_true, if_false]
    | some w => simp only [owed, unheld w running, Bool.false_eq_true, if_false]
  · rw [exec_correctedRewrite, execCorrectedRewrite, gated_live _ _ hl]
    simp only [owed, running, held, if_true]

end Sys2Proof.Machine
end

section
/-! PROOFS. Lists that the model orders by a test (R169). -/
namespace Sys2Proof.Machine

section
variable {α : Type} (lt : α → α → Bool)

theorem insertBy_perm (x : α) (l : List α) : (insertBy lt x l).Perm (x :: l) := by
  induction l with
  | nil => exact .refl _
  | cons y l ih =>
    rw [insertBy]
    split
    · exact .refl _
    · exact (ih.cons y).trans (.swap x y l)

/-- The order in which the elements are inserted ends with the last one. -/
theorem sortBy_concat (l : List α) (x : α) : sortBy lt (l ++ [x]) = insertBy lt x (sortBy lt l) := by
  simp [sortBy]

theorem sortBy_perm (l : List α) : (sortBy lt l).Perm l := by
  induction l using List.reverseRecOn with
  | nil => exact .refl _
  | append_singleton l x ih =>
    rw [sortBy_concat]
    exact ((insertBy_perm lt x _).trans (ih.cons x)).trans (List.perm_append_singleton x l).symm

/-- A transitive relation that the test decides one way or the other orders what the test orders. -/
theorem insertBy_pairwise {R : α → α → Prop} (trans : ∀ x y z, R x y → R y z → R x z) (before : ∀ x y, lt x y = true → R x y)
    (after : ∀ x y, lt x y = false → R y x) (x : α) {l : List α} (h : l.Pairwise R) : (insertBy lt x l).Pairwise R := by
  induction l with
  | nil => exact List.pairwise_singleton R x
  | cons y l ih =>
    obtain ⟨least, rest⟩ := List.pairwise_cons.1 h
    rw [insertBy]
    cases e : lt x y with
    | true =>
      rw [if_pos rfl, List.pairwise_cons]
      refine ⟨fun z m => ?_, h⟩
      rcases List.mem_cons.1 m with rfl | m
      · exact before _ _ e
      · exact trans _ _ _ (before _ _ e) (least z m)
    | false =>
      rw [if_neg (by simp), List.pairwise_cons]
      refine ⟨fun z m => ?_, ih rest⟩
      rcases List.mem_cons.1 ((insertBy_perm lt x l).mem_iff.1 m) with rfl | m
      · exact after _ _ e
      · exact least z m

theorem sortBy_pairwise {R : α → α → Prop} (trans : ∀ x y z, R x y → R y z → R x z) (before : ∀ x y, lt x y = true → R x y)
    (after : ∀ x y, lt x y = false → R y x) (l : List α) : (sortBy lt l).Pairwise R := by
  induction l using List.reverseRecOn with
  | nil => exact .nil
  | append_singleton l x ih =>
    rw [sortBy_concat]
    exact insertBy_pairwise lt trans before after x ih

end

end Sys2Proof.Machine
end

section
/-! PROOFS. The k best of a combination of parts (R169, R173, R177). -/
namespace Sys2Proof.Machine

theorem fLt_eq_false_iff (x y : F32) : fLt x y = false ↔ fKey y ≤ fKey x := by
  simp [fLt]

/-- A score with its tie rank and its place in a list. -/
abbrev Ranked := F32 × Nat × Nat

/-- The test by which candidates are put in result order. -/
def rankedBefore (a b : Ranked) : Bool := fLt b.1 a.1 || (fEq a.1 b.1 && decide (a.2.1 < b.2.1))

/-- The candidates of a list as they are put in order. -/
def rankedOf (k : Nat) (l : List Cand) : List Ranked :=
  (l.zip (List.range l.length)).map fun (c, j) => (c.score, Config.tieRank l.length k c.item j, j)

theorem rankOrder_eq (k : Nat) (l : List Cand) : rankOrder k l = (sortBy rankedBefore (rankedOf k l)).map (·.2.2) := rfl

theorem rankedOf_places (k : Nat) (l : List Cand) : (rankedOf k l).map (·.2.2) = List.range l.length := by
  have places : (rankedOf k l).map (·.2.2) = (l.zip (List.range l.length)).map Prod.snd := by simp [rankedOf]
  rw [places, List.map_snd_zip (by simp)]

/-- What is ranked carries the score of the candidate at its place. -/
theorem score_of_mem_rankedOf {k : Nat} {l : List Cand} {t : Ranked} (m : t ∈ rankedOf k l) : (l.getD t.2.2 default).score = t.1 := by
  obtain ⟨i, hi, rfl⟩ := List.mem_iff_getElem.1 m
  have inside : i < l.length := by simpa [rankedOf] using hi
  simp [rankedOf, inside]

/-- R177: the places in result order are the places of the list. -/
theorem rankOrder_perm (k : Nat) (l : List Cand) : (rankOrder k l).Perm (List.range l.length) := by
  rw [rankOrder_eq, ← rankedOf_places k l]
  exact (sortBy_perm rankedBefore _).map _

@[simp] theorem rankOrder_length (k : Nat) (l : List Cand) : (rankOrder k l).length = l.length := by
  rw [(rankOrder_perm k l).length_eq, List.length_range]

theorem lt_of_mem_rankOrder {k j : Nat} {l : List Cand} (m : j ∈ rankOrder k l) : j < l.length :=
  List.mem_range.1 ((rankOrder_perm k l).mem_iff.1 m)

/-- R169: in result order no later place holds a higher score. -/
theorem rankOrder_descending (k : Nat) (l : List Cand) :
    (rankOrder k l).Pairwise fun i j => fLt (l.getD i default).score (l.getD j default).score = false := by
  have sorted : (sortBy rankedBefore (rankedOf k l)).Pairwise fun a b => fKey b.1 ≤ fKey a.1 := by
    refine sortBy_pairwise _ (fun x y z first second => second.trans first) (fun x y before => ?_) (fun x y after => ?_) _
    · simp only [rankedBefore, fLt, fEq, Bool.or_eq_true, Bool.and_eq_true, decide_eq_true_eq] at before
      omega
    · simp only [rankedBefore, fLt, Bool.or_eq_false_iff, decide_eq_false_iff_not] at after
      omega
  rw [rankOrder_eq, List.pairwise_map]
  refine sorted.imp_of_mem fun {a b} ma mb le => ?_
  rw [score_of_mem_rankedOf ((sortBy_perm ..).mem_iff.1 ma), score_of_mem_rankedOf ((sortBy_perm ..).mem_iff.1 mb), fLt_eq_false_iff]
  exact le

/-- The candidates of a list in result order, as many as there are places. -/
def bestOf (k : Nat) (l : List Cand) : List Cand := ((rankOrder k l).take k).map fun j => l.getD j default

theorem combine_cands (massExp : Bool) (k : Nat) (parts : List Part) :
    (combine false massExp k parts).part.cands = bestOf k (parts.flatMap (·.cands)) := rfl

theorem combine_dups (massExp : Bool) (k : Nat) (parts : List Part) : (combine false massExp k parts).dups = 0 := rfl

@[simp] theorem bestOf_length (k : Nat) (l : List Cand) : (bestOf k l).length = min k l.length := by
  rw [bestOf, List.length_map, List.length_take, rankOrder_length]

theorem mem_of_mem_bestOf {k : Nat} {l : List Cand} {x : Cand} (m : x ∈ bestOf k l) : x ∈ l := by
  obtain ⟨j, mj, rfl⟩ := List.mem_map.1 m
  have inside : j < l.length := lt_of_mem_rankOrder (List.mem_of_mem_take mj)
  rw [List.getD_eq_getElem l default inside]
  exact List.getElem_mem inside

theorem bestOf_descending (k : Nat) (l : List Cand) : (bestOf k l).Pairwise fun x y => fLt x.score y.score = false :=
  List.pairwise_map.2 ((rankOrder_descending k l).sublist (List.take_sublist k _))

end Sys2Proof.Machine
end

section
/-! PROOFS. SELECT, ATTEND and ATTEND_BWD past their checks (R166, R168, R181 to R183, R192 to R194, R209). -/
namespace Sys2Proof.Machine

@[simp] theorem State.accept_desc (s : State) (c : Nat) (r : Req) : (s.accept c r).desc = r.desc := by
  unfold State.accept
  split <;> rfl

/-- What becomes of a SELECT that has passed its checks: it runs over the composition of its context, or on a row of this node. -/
def State.selectRun (t : State) (c q part : Nat) (d : Bytes) : State :=
  if bit (opN d 1 1) 3 then
    match t.ctxComp c with
    | none => t.finishCode c q .denied
    | some (slot, m) =>
      if (t.comp slot).removing then t.endReq c q .routeStale
      else
        match t.distSelect (.ctx c q) (t.tenant c) part slot m d (decide (m.members.length ≤ 16) || m.rank % 16 == 0) m.selectAsks
            (List.range m.members.length) with
        | (s, .error k) => s.endReq c q k
        | (s, .ok id) => (s.setReq c q fun r => { r with work := .job id, comp := some slot, epoch := m.epoch }).runJob 64 id
  else
    match t.selectHere (.ctx c q) (t.tenant c) part d 0 with
    | (s, .error k) => s.endReq c q k
    | (s, .ok x) => s.selectOwn c q part d x

section
variable (t : State) {c q part : Nat} {d : Bytes}

theorem State.selectRun_here {u : State} {x : QJob} (here : bit (opN d 1 1) 3 = false)
    (h : t.selectHere (.ctx c q) (t.tenant c) part d 0 = (u, .ok x)) : t.selectRun c q part d = u.selectOwn c q part d x := by
  simp only [State.selectRun, here, Bool.false_eq_true, if_false, h]

theorem State.selectRun_over {u : State} {slot id : Nat} {m : CompMap} (dist : bit (opN d 1 1) 3 = true)
    (bound : t.ctxComp c = some (slot, m)) (stays : (t.comp slot).removing = false)
    (h : t.distSelect (.ctx c q) (t.tenant c) part slot m d (decide (m.members.length ≤ 16) || m.rank % 16 == 0) m.selectAsks
      (List.range m.members.length) = (u, .ok id)) :
    t.selectRun c q part d =
      (u.setReq c q fun r => { r with work := .job id, comp := some slot, epoch := m.epoch }).runJob 64 id := by
  simp only [State.selectRun, dist, bound, stays, Bool.false_eq_true, if_false, if_true, h]

end

/-- What becomes of an attention command that has passed its checks: its groups are attended, and what they give is stored. -/
def State.attendRun (t : State) (c q part total : Nat) (a : Att) (seqs : List SeqEnt) : State :=
  let g := t.attendGroups c part total a seqs
  match g.2 with
  | .error k => (g.1.failAttn c a total k).finishCode c q k
  | .ok l =>
    let v := g.1.ctxStores c l
    v.1.finish c q (Compl.of v.2 (if a.bwd then 0 else total * a.heads) 0)

/-- The two attention commands differ in their opcode alone. -/
theorem exec_attendCmd {s : State} {c : BitVec 12} {q : BitVec 16} {op : Nat} {i : Instr}
    (m : (i, op) ∈ [(Instr.attend c q, 0x18), (.attendBwd c q, 0x19)]) (hl : s.live = true) :
    exec i s = .next (s.after (attendCmd c.toNat q.toNat op s)) := by
  simp only [List.mem_cons, List.not_mem_nil, or_false, Prod.mk.injEq] at m
  obtain ⟨rfl, rfl⟩ | ⟨rfl, rfl⟩ := m
  · rw [exec_attend, execAttend, gated_live _ _ hl]
  · rw [exec_attendBwd, execAttendBwd, gated_live _ _ hl]

/-- Settles O37: the k best are a prefix of the parts' candidates in result order, and each command passes its checks up to its run. -/
theorem selectionAndAttention : Obligations.SelectionAndAttention := by
  unfold Obligations.SelectionAndAttention
  refine ⟨?_, ?_, ?_⟩
  · intro m k l all out
    have best : out = bestOf k all := combine_cands m k l
    rw [best]
    exact ⟨bestOf_length k all, fun _ => mem_of_mem_bestOf, bestOf_descending k all, combine_dups m k l⟩
  · intro s₀ c q r₀ runs s d n part a b e t fields row ids record stage fence
    have known : ∀ w : State, t.selectRun c.toNat q.toNat part d = w → w.pool.needs = [] →
        exec (.select c q) s₀ = .next (s₀.after w) := by
      rintro _ rfl needs
      rw [exec_select, execSelect, gated_live _ _ runs.live, runCmd_gives s₀ runs ?_ needs]
      have staged : (t.selStage part (opN d 4 4 % 2 ^ 21)).isNone = false := by
        rw [Option.isNone_eq_false_iff]
        exact stage
      dsimp only [s, d, n, part, a, b, e, t] at fields row ids record staged fence
      simp only [State.accept_desc, fields, row, ids, record, staged, fence, Code.worst_self, Code.ok_bad, Bool.false_eq_true, if_false,
        if_true]
      rfl
    exact ⟨fun here u x h => known _ (t.selectRun_here here h),
      fun dist slot id m u bound stays h => known _ (t.selectRun_over dist bound stays h)⟩
  · intro s₀ c q r₀ i op m runs s r a part nseq g seqs total x y t table fields entries operands lists pers fence
    have known : ∀ w : State, t.attendRun c.toNat q.toNat part total a seqs = w → w.pool.needs = [] →
        exec i s₀ = .next (s₀.after w) := by
      rintro _ rfl needs
      rw [exec_attendCmd m runs.live, attendCmd, runCmd_gives s₀ runs ?_ needs]
      have listed : (a.bwd && !t.listsOk c.toNat a seqs) = false := by
        cases bwd : a.bwd
        · rfl
        · rw [lists bwd]
          rfl
      dsimp only [s, r, a, part, nseq, g, seqs, total, x, y, t] at table fields entries operands listed pers fence
      simp only [table, fields, entries, operands, listed, pers, fence, Bool.false_eq_true, if_false, Bool.not_true, Bool.or_self]
      rfl
    refine ⟨fun u l h => known _ ?_, fun u k h => known _ ?_⟩ <;> rw [State.attendRun, h]

end Sys2Proof.Machine
end

section
/-! PROOFS. Embedding tables enabled, fuses burned and domains woken by register writes (R215, R233, R487, R496, R501, R513). -/
namespace Sys2Proof.Machine

section
variable (s : State)

/-- No rule refuses or ignores a write of TILE_EMB_EN. -/
theorem writeReg_tileEmbEn {src : Src} {j : Nat} (v : Nat) (hl : s.live = true) (ha : s.mayAccess src = true) (hj : j < 16) :
    s.writeReg src .tileEmbEn j v = s.applyWrite src .tileEmbEn j (v % 2 ^ 64) (2 ^ 64 - 1) :=
  writeReg_takes s ⟨hl, ha, rfl, rfl⟩ hj

/-- R487: bit 12 of SEC_FUSE_PROG is GO, so that a row that writes it above its other fields starts a burn. -/
theorem fuseRow_takes {src : Src} {x : Nat} (hx : x < 2 ^ 12) (h : Takes s src .secFuseProg 0 (x + 2 ^ 12)) :
    gated s (fun s => s.writeReg src .secFuseProg 0 (x + 2 ^ 12)) =
      .next (s.after ((s.rowWrite .secFuseProg 0 (x + 2 ^ 12)).fuseGo src)) := by
  have go : bit ((x + 2 ^ 12) % 2 ^ 64) 12 = true := by
    rw [bit, Nat.mod_eq_of_lt (by omega), Nat.add_comm, Nat.testBit_two_pow_add_eq, Nat.testBit_lt_two_pow hx, Bool.not_false]
  rw [row_takes s h (by decide) rfl, written_secFuseProg, if_pos go]

/-! A domain asked to wake (R501) changes no memory -/

theorem State.askWake_mem (d : Nat) : (s.askWake d).mem = s.mem := by
  unfold State.askWake State.setDom
  dsimp only
  split_ifs <;> simp only [State.setF_mem, State.setPwr_mem]

@[simp] theorem State.clkWake_mem (v : Nat) : (s.clkWake v).mem = s.mem :=
  List.foldlRecOn (motive := fun t : State => t.mem = s.mem) _ State.askWake rfl fun t same d _ => (t.askWake_mem d).trans same

end

/-- Settles O24: each row writes its one register, and the write of GO or of CLK_WAKE starts the burn or the wakes. -/
theorem tableFuseAndClockRowsTakeEffect : Obligations.TableFuseAndClockRowsTakeEffect := by
  unfold Obligations.TableFuseAndClockRowsTakeEffect
  intro s src t g m v
  refine ⟨fun hl ha => ?_, fun h => ?_, fun h => ?_, fun h => ⟨?_, ?_⟩⟩
  · have word : t.toNat / 64 < 16 := by have := t.isLt; omega
    rw [exec_tableEnable, execTableEnable, gated_live _ _ hl]
    dsimp only
    rw [writeReg_tileEmbEn s _ hl ha word]
  · rw [exec_advance, execAdvance, fuseRow_takes s (by have := g.isLt; omega) h]
  · rw [exec_revoke, execRevoke, fuseRow_takes s (by have := m.isLt; omega) h]
  · rw [exec_clkWake, execClkWake, row_takes s h (by decide) rfl, written_clkWake, Nat.mod_eq_of_lt v.isLt]
  · rw [State.clkWake_mem, State.rowWrite_mem]

end Sys2Proof.Machine
end

section
/-! PROOFS. GATHER, SCATTER, ROW_WRITE and PUBLISH past their checks (R216, R217, R220, R225 to R229, R393). -/
namespace Sys2Proof.Machine

/-- R217: the two ways of a command on a table whose owners are up: with rows of other nodes it asks their owners and waits, with none it
comes to its end `here`. -/
def State.askOrEnd (u : State) (c q : Nat) (d : Bytes) (pin : Bool) (cm : Option (Nat × CompMap)) (asks : List (Nat × List Nat))
    (here : State) : State :=
  match asks, cm with
  | [], _ => here
  | _, none => here
  | _, some (n, m) => u.askRows c q d pin n m asks

/-- What becomes of a ROW_WRITE that has passed its checks: it waits (R228, R229), or its rows are written at the open version (R227). -/
def State.holdOrWrite (t : State) (c q : Nat) (r : Req) (b : Tab) (rows : List (Nat × Bytes)) : State :=
  if t.writeWaits r b then t.holdWrite c q r b
  else
    let ver := t.openVer r b.t
    let v := (t.writeRows b rows ver).ctxStore c (opN r.desc 48 8) (EmbRep.bytes ⟨.ok, 0, 0, 0, 0, 0, ver, 0, 0, 0⟩)
    v.1.finish c q (Compl.of v.2 (opN r.desc 8 4) ver)

section
variable (u here : State) {c q : Nat} {d : Bytes} {pin : Bool} {asks : List (Nat × List Nat)}

theorem State.askOrEnd_nil {cm : Option (Nat × CompMap)} (empty : asks = []) : u.askOrEnd c q d pin cm asks here = here := by
  rw [empty, State.askOrEnd]

theorem State.askOrEnd_remote {n : Nat} {m : CompMap} (any : asks ≠ []) :
    u.askOrEnd c q d pin (some (n, m)) asks here = u.askRows c q d pin n m asks := by
  cases asks with
  | nil => exact absurd rfl any
  | cons => rfl

/-- R227: the version of a table just set reads back. -/
@[simp] theorem State.tabVer_setF_version (t v : Nat) : (u.setF F.TILE_EMB_VER_VERSION t v).tabVer t = v % 2 ^ 64 :=
  State.f_setF_self u F.TILE_EMB_VER_VERSION t v (by decide) (by decide)

/-- R227: the open version of an enabled table follows its published one. -/
theorem State.openVer_on {t : Nat} (on : u.tabOn t = true) (r : Req) : u.openVer r t = u.tabVer t + 1 := by
  rw [State.openVer, if_pos on]

end

/-- Settles O38: each command passes its checks up to what it does with the rows of this node or asks of their owners. -/
theorem embeddingCommandsRun : Obligations.EmbeddingCommandsRun := by
  unfold Obligations.EmbeddingCommandsRun
  intro s₀ c q r₀ s r x d
  refine ⟨?_, ?_, ?_, ?_⟩
  · intro runs t b cm g checks u asks down
    have known : ∀ w : State, u.askOrEnd c.toNat q.toNat r.desc x.third cm asks
        (u.finishGather c.toNat q.toNat r x b (cm.map (·.2)) g) = w → w.pool.needs = [] → exec (.gather c q) s₀ = .next (s₀.after w) := by
      rintro _ rfl needs
      rw [exec_gather, execGather, gated_live _ _ runs.live, runCmd_gives s₀ runs ?_ needs]
      dsimp only [s, r, x, u, asks] at checks down
      simp only [checks, down, Bool.false_eq_true, if_false]
      rfl
    refine ⟨fun here => known _ (u.askOrEnd_nil _ here), fun away n m comp => known _ ?_⟩
    rw [comp, State.askOrEnd_remote _ _ away]
  · intro runs t u b cm g grads checks read sums asks down
    have known : ∀ w : State, (if !x.third then u.applyGrads c.toNat q.toNat r x b cm asks sums
        else u.askOrEnd c.toNat q.toNat r.desc false cm asks (u.emitGrads c.toNat q.toNat r x b (cm.map (·.2)) sums)) = w →
        w.pool.needs = [] → exec (.scatter c q) s₀ = .next (s₀.after w) := by
      rintro _ rfl needs
      rw [exec_scatter, execScatter, gated_live _ _ runs.live, runCmd_gives s₀ runs ?_ needs]
      dsimp only [s, r, x, sums, asks] at checks read down ⊢
      simp only [checks, read, down, Bool.false_eq_true, if_false]
      generalize remoteRows _ _ _ = owners
      cases owners <;> cases cm <;> rfl
    refine ⟨fun updates => known _ (by rw [updates]; rfl), fun exports here => known _ ?_, fun exports away n m comp => known _ ?_⟩
    · rw [exports, State.askOrEnd_nil _ _ here]
      rfl
    · rw [exports, comp, State.askOrEnd_remote _ _ away]
      rfl
  · intro runs b cm table y z rows t reach load tiles recs cold
    have known : ∀ w : State, t.holdOrWrite c.toNat q.toNat r b rows = w → w.pool.needs = [] →
        exec (.rowWrite c q) s₀ = .next (s₀.after w) := by
      rintro _ rfl needs
      rw [exec_rowWrite, execRowWrite, gated_live _ _ runs.live, runCmd_gives s₀ runs ?_ needs]
      dsimp only [s, r, d, y, z, rows, t] at table reach load tiles recs cold
      simp only [table, reach, load, tiles, recs, cold, Code.worst_self, Code.ok_bad, Bool.false_eq_true, if_false, if_true]
      rfl
    exact ⟨fun now => known _ (if_neg (ne_true_of_eq_false now)), fun waits => known _ (if_pos waits)⟩
  · intro runs b cm table y t reach tiles ver u v w
    refine ⟨fun needs => ?_, fun on => ⟨State.openVer_on t on r, ?_⟩⟩
    · rw [exec_publish, execPublish, gated_live _ _ runs.live, runCmd_gives s₀ runs ?_ needs]
      dsimp only [s, r, d, y, t] at table reach tiles
      simp only [table, reach, tiles, Code.worst_self, Code.ok_bad, Bool.false_eq_true, if_false]
      rfl
    · dsimp only [u]
      rw [if_pos on, State.tabVer_setF_version]

end Sys2Proof.Machine
end

section
/-! PROOFS. The cellar's registers written by rows: channels, the start, namespaces and the log's trim (R239, R240, R248, R250, R273, R553). -/
namespace Sys2Proof.Machine

section
variable (s : State)

/-! A channel started and stopped (R240, R553) -/

theorem State.channelWritten_starts {c old : Nat} (on : s.on F.CELLAR_CH_CFG_ENABLE c = true) (was : old.testBit 0 = false) :
    s.channelWritten c old = s.startChannel c := by
  simp [State.channelWritten, on, was]

theorem State.channelWritten_stops {c old : Nat} (off : s.on F.CELLAR_CH_CFG_ENABLE c = false) (was : old.testBit 0 = true) :
    s.channelWritten c old = s.stopChannel c chOff := by
  simp [State.channelWritten, off, was]

@[simp] theorem State.setCel_chState (g : CellarSt → CellarSt) (c : Nat) : (s.setCel g).chState c = s.chState c := State.setCel_f s g _ c

@[simp] theorem State.startChannel_chState (c : Nat) : (s.startChannel c).chState c = chTraining := by
  rw [State.startChannel, State.setCel_chState]
  exact State.f_setF_self s F.CELLAR_CH_STAT_STATE c chTraining (by decide) (by decide)

/-! Writes that nothing refuses, and writes that have no effect -/

/-- A register after a write is 64 bits wide. -/
theorem Reg.merged_lt {r : Reg} {i old : Nat} (h : old < 2 ^ 64) (w mask : Nat) : r.merged i old w mask < 2 ^ 64 := by
  rw [Reg.merged_eq_fieldPass]
  exact fieldPass_lt _ (Reg.fields_apart r i) h

/-- A write that a rule ignores changes nothing and is not recorded. -/
theorem writeReg_ignored {src : Src} {r : Reg} {i v : Nat} (ha : s.mayAccess src = true) (hi : i < r.count)
    (hr : s.refusesWrite r i (s.reg r i) (r.merged i (s.reg r i) (v % 2 ^ 64) (2 ^ 64 - 1)) = false)
    (hg : s.ignoresWrite r i (r.merged i (s.reg r i) (v % 2 ^ 64) (2 ^ 64 - 1)) = true) : s.writeReg src r i v = s := by
  have l := Reg.addr_lt hi
  have al := accessAligned_half r i (wide := true) (upper := false) (fun _ => rfl)
  have fi := find_half false hi
  simp only [halfAddr, Bool.false_eq_true, if_false, Nat.add_zero] at al fi
  unfold State.writeReg State.regWrite
  rw [mayAccess_eq s ha, show decide (2 ^ 26 ≤ r.addr i) = false by simp; omega, fi, al, accessMask_addr]
  simp only [Bool.or_self, Bool.false_eq_true, Bool.not_true, if_false, accessBits, if_true, hr, hg]

/-- No rule refuses or ignores a write of CELLAR_NS_EN. -/
theorem writeReg_cellarNsEn {src : Src} {j : Nat} (v : Nat) (hl : s.live = true) (ha : s.mayAccess src = true) (hj : j < 64) :
    s.writeReg src .cellarNsEn j v = s.applyWrite src .cellarNsEn j (v % 2 ^ 64) (2 ^ 64 - 1) :=
  writeReg_takes s ⟨hl, ha, rfl, rfl⟩ hj

/-- R273: a write of CELLAR_LOG_TRIM that takes effect does not lower it. -/
theorem Takes.logTrim_le {src : Src} {v : Nat} (t : Takes s src .cellarLogTrim 0 v) :
    s.reg .cellarLogTrim 0 ≤ (s.rowWrite .cellarLogTrim 0 v).reg .cellarLogTrim 0 := by
  obtain ⟨-, -, -, kept⟩ := t
  rw [State.rowWrite_reg_self s (Reg.merged_lt (s.reg_lt _ _) _ _)]
  exact Nat.le_of_not_lt (of_decide_eq_false kept)

end

/-- Settles O17: each row writes its one register, and the bit that it changes starts or stops what it stands for. -/
theorem cellarRowsTakeEffect : Obligations.CellarRowsTakeEffect := by
  unfold Obligations.CellarRowsTakeEffect
  intro s src c n v
  refine ⟨fun h hc => ⟨fun on was => ⟨?_, State.startChannel_chState _ _⟩, fun off was => ?_⟩, fun h start => ?_,
    fun h => ⟨?_, h.logTrim_le⟩, fun hl ha lower => ?_, fun hl ha => ?_⟩
  · rw [exec_channelStart, execChannelStart, row_takes s h hc rfl, written_cellarChCfg, State.channelWritten_starts _ on was]
  · rw [exec_channelStop, execChannelStop, row_takes s h hc rfl, written_cellarChCfg, State.channelWritten_stops _ off was]
  · rw [exec_cellarStart, execCellarStart, row_takes s h (by decide) rfl, written_cellarCfg, Nat.mod_eq_of_lt v.isLt, if_pos start]
  · rw [exec_logTrimWrite, execLogTrimWrite, row_takes s h (by decide) rfl, written_cellarLogTrim]
  · rw [exec_logTrimWrite, execLogTrimWrite, gated_live _ _ hl, writeReg_ignored s ha (by decide) rfl]
    rw [Nat.mod_eq_of_lt v.isLt]
    exact decide_eq_true lower
  · have word : n.toNat / 64 < 64 := by have := n.isLt; omega
    rw [exec_namespaceEnable, execNamespaceEnable, exec_namespaceDisable, execNamespaceDisable, gated_live _ _ hl, gated_live _ _ hl]
    dsimp only
    rw [writeReg_cellarNsEn s _ hl ha word, writeReg_cellarNsEn s _ hl ha word]
    exact ⟨rfl, rfl⟩

end Sys2Proof.Machine
end

section
/-! PROOFS. Slots of the cellar: what their map, the write buffer and the streams keep, and what a read of one finds (R249 to R254). -/
namespace Sys2Proof.Machine

section
variable (s : State)

/-! Blocks, LUNs and superblocks -/

@[simp] theorem State.setBlock_mem (k : Nat) (g : BlockSt → BlockSt) : (s.setBlock k g).mem = s.mem := rfl
@[simp] theorem State.setBlock_buffer (k : Nat) (g : BlockSt → BlockSt) : (s.setBlock k g).cellar.buffer = s.cellar.buffer := rfl
@[simp] theorem State.setBlock_f (k : Nat) (g : BlockSt → BlockSt) (x : Fld) (i : Nat) : (s.setBlock k g).f x i = s.f x i := State.setCel_f s _ x i
@[simp] theorem State.setBlock_blockSt_self (k : Nat) (g : BlockSt → BlockSt) : (s.setBlock k g).blockSt k = g (s.blockSt k) :=
  SMap.get_put_self _ _ _ _
@[simp] theorem State.setBlock_lunSt (k : Nat) (g : BlockSt → BlockSt) (l : Nat) : (s.setBlock k g).lunSt l = s.lunSt l := rfl

@[simp] theorem State.setLun_mem (k : Nat) (g : LunSt → LunSt) : (s.setLun k g).mem = s.mem := rfl
@[simp] theorem State.setLun_buffer (k : Nat) (g : LunSt → LunSt) : (s.setLun k g).cellar.buffer = s.cellar.buffer := rfl
@[simp] theorem State.setLun_lunSt_self (k : Nat) (g : LunSt → LunSt) : (s.setLun k g).lunSt k = g (s.lunSt k) := SMap.get_put_self _ _ _ _

@[simp] theorem State.modSuper_buffer (id : Nat) (g : Super → Super) : (s.modSuper id g).cellar.buffer = s.cellar.buffer := rfl

/-! A frame that joins a stream leaves the write buffer as it is -/

theorem State.openNext_buffer {stream : Nat} {t : State} (h : s.openNext stream = some t) : t.cellar.buffer = s.cellar.buffer := by
  unfold State.openNext at h
  dsimp only at h
  split at h
  · cases h
  · split at h
    · cases h
    · cases h
      exact List.foldlRecOn (motive := fun u : State => u.cellar.buffer = s.cellar.buffer) _ _ rfl
        fun t same _ _ => (t.setBlock_buffer _ _).trans same

@[simp] theorem State.placeFrame_buffer (b : Super) (k : Nat) (f : FrameRec) (p : Purpose) :
    (s.placeFrame b k f p).cellar.buffer = s.cellar.buffer := by
  rw [State.placeFrame, State.modSuper_buffer, State.setLun_buffer]

/-- A frame placed in the open superblock of its stream, or left waiting. -/
def State.putFrame (stream : Nat) (f : FrameRec) (p : Purpose) : State :=
  match s.openSuper stream with
  | none => s.setCel fun x => { x with waiting := x.waiting ++ [(stream, f, p)] }
  | some b => match s.nextMember b p with
    | none => s.setCel fun x => { x with waiting := x.waiting ++ [(stream, f, p)] }
    | some k => s.placeFrame b k f p

theorem State.putFrame_buffer (stream : Nat) (f : FrameRec) (p : Purpose) : (s.putFrame stream f p).cellar.buffer = s.cellar.buffer := by
  unfold State.putFrame
  split
  · rfl
  · split
    · rfl
    · exact State.placeFrame_buffer s _ _ f p

/-- R244, R246: a frame is put in its stream as that stands, in its stream once it has opened a superblock, or waits. -/
theorem State.appendFrame_cases (stream : Nat) (f : FrameRec) (p : Purpose) :
    s.appendFrame stream f p = s.putFrame stream f p ∨
    (∃ t, s.openNext stream = some t ∧ s.appendFrame stream f p = t.putFrame stream f p) ∨
    s.appendFrame stream f p = s.setCel fun x => { x with waiting := x.waiting ++ [(stream, f, p)] } := by
  unfold State.appendFrame
  dsimp only
  split
  · exact .inl rfl
  · split
    · next t h => exact .inr (.inl ⟨t, h, rfl⟩)
    · exact .inr (.inr rfl)

@[simp] theorem State.appendFrame_buffer (stream : Nat) (f : FrameRec) (p : Purpose) :
    (s.appendFrame stream f p).cellar.buffer = s.cellar.buffer := by
  rcases s.appendFrame_cases stream f p with h | ⟨t, opened, h⟩ | h <;> rw [h]
  · exact s.putFrame_buffer stream f p
  · rw [t.putFrame_buffer, s.openNext_buffer opened]
  · rfl

/-! The map (R249, R250) -/

@[simp] theorem State.setCel_nsOn (g : CellarSt → CellarSt) (n : Nat) : (s.setCel g).nsOn n = s.nsOn n := by
  rw [State.nsOn, State.nsOn, State.setCel_reg]

@[simp] theorem State.setCel_peek (g : CellarSt → CellarSt) (a len : Nat) : (s.setCel g).peek a len = s.peek a len := rfl

@[simp] theorem State.setCel_nsDesc (g : CellarSt → CellarSt) (n : Nat) : (s.setCel g).nsDesc n = s.nsDesc n := by
  have place : (s.setCel g).nsAddr n = s.nsAddr n := rfl
  rw [State.nsDesc, State.nsDesc, State.setCel_peek, place]

@[simp] theorem State.setMap_buffer (k e : Nat) : (s.setMap k e).cellar.buffer = s.cellar.buffer := by
  unfold State.setMap
  dsimp only
  split_ifs <;> simp only [State.storeN_cellar, State.setCel_cellar]

@[simp] theorem State.setMap_mapEntry_self (k e : Nat) : (s.setMap k e).mapEntry k = e := by
  have put : SMap.get 0 (SMap.put 0 s.cellar.map k e) k = e := SMap.get_put_self _ _ _ _
  unfold State.setMap State.mapEntry
  dsimp only
  split_ifs <;> simpa only [State.storeN_cellar, State.setCel_cellar] using put

/-- R248: an entry of a namespace without a resident map is in no memory. -/
theorem State.setMap_mem {k : Nat} (h : (s.nsOn (k / 2 ^ 40) && (s.nsDesc (k / 2 ^ 40)).resident) = false) (e : Nat) :
    (s.setMap k e).mem = s.mem := by
  unfold State.setMap
  dsimp only
  split_ifs with on resident
  · exact absurd (Bool.and_eq_true_iff.2 ⟨on, resident⟩) (ne_true_of_eq_false h)
  · rfl
  · rfl

/-! What a read of a slot finds (R253, R254) -/

theorem State.slotRead_buffered {n k q : Nat} {d : Bytes} (h : SMap.find s.cellar.buffer (mapKey n k) = some (q, d)) :
    s.slotRead n k = .here d := by
  rw [State.slotRead, h]

theorem State.slotRead_zero {n k : Nat} (h : SMap.find s.cellar.buffer (mapKey n k) = none)
    (zero : entryState (s.mapEntry (mapKey n k)) = 0) : s.slotRead n k = .here (zeros 4096) := by
  rw [State.slotRead, h]
  dsimp only
  rw [zero]
  rfl

theorem State.slotRead_lost {n k : Nat} (h : SMap.find s.cellar.buffer (mapKey n k) = none)
    (lost : 2 ≤ entryState (s.mapEntry (mapKey n k))) : s.slotRead n k = .lost := by
  rw [State.slotRead, h]
  dsimp only
  split
  · next zero => omega
  · next mapped => omega
  · rfl

/-- R253: the data of a slot just written are in the write buffer. -/
theorem State.writeSlot_buffer (n k : Nat) (d : Bytes) (p : Purpose) :
    (s.writeSlot n k d p).cellar.buffer = SMap.ins s.cellar.buffer (mapKey n k) (s.cellar.frameSeq, d) := by
  rw [State.writeSlot, State.drawSeq]
  dsimp only
  rw [State.appendFrame_buffer]
  rfl

theorem State.slotRead_writeSlot (n k : Nat) (d : Bytes) (p : Purpose) : (s.writeSlot n k d p).slotRead n k = .here d :=
  State.slotRead_buffered _ (by rw [State.writeSlot_buffer, SMap.find_ins_self])

/-- R248: a discard leaves memory where its namespace has no resident map. -/
theorem State.discardSlot_mem {n k : Nat} (h : (s.nsOn (mapKey n k / 2 ^ 40) && (s.nsDesc (mapKey n k / 2 ^ 40)).resident) = false) :
    (s.discardSlot n k).mem = s.mem := by
  rw [State.discardSlot, State.setMap_mem _ (by rw [State.setCel_nsOn, State.setCel_nsDesc, h]), State.setCel_mem]

theorem State.slotRead_discardSlot (n k : Nat) : (s.discardSlot n k).slotRead n k = .here (zeros 4096) := by
  apply State.slotRead_zero
  · rw [State.discardSlot, State.setMap_buffer, State.setCel_cellar, SMap.find_del_self]
  · rw [State.discardSlot, State.setMap_mapEntry_self]
    rfl

end

/-- Settles O39: each command passes its checks up to what it does with its slots, and a slot reads as the buffer and the map have it. -/
theorem cellarCommandsRun : Obligations.CellarCommandsRun := by
  unfold Obligations.CellarCommandsRun
  refine ⟨?_, ?_⟩
  · intro s₀ c q r₀ s r x
    refine ⟨?_, ?_, ?_⟩
    · intro runs checks t l mapped y w needs
      rw [exec_cellarRead, execCellarRead, gated_live _ _ runs.live, runCmd_gives s₀ runs ?_ needs]
      dsimp only [s, r, x] at checks mapped
      simp only [checks, mapped]
      rfl
    · intro runs checks y readable many room w needs
      rw [exec_cellarWrite, execCellarWrite, gated_live _ _ runs.live, runCmd_gives s₀ runs ?_ needs]
      dsimp only [s, r, x, y] at checks readable many room
      simp only [checks, readable, many, room, Bool.false_eq_true, if_false]
      rfl
    · intro runs checks many w needs
      rw [exec_cellarDiscard, execCellarDiscard, gated_live _ _ runs.live, runCmd_gives s₀ runs ?_ needs]
      dsimp only [s, r, x] at checks many
      simp only [checks, many, if_false]
      rfl
  · intro s n k d p
    exact ⟨fun h => ⟨s.slotRead_zero h, s.slotRead_lost h⟩, s.slotRead_discardSlot n k, fun h => s.discardSlot_mem h,
      s.slotRead_writeSlot n k d p⟩

end Sys2Proof.Machine
end

section
/-! PROOFS. LUNs: what one takes next, and how its reads, programs and erases end (R255 to R260). -/
namespace Sys2Proof.Machine

/-! The first element of the least measure, and the read of the earliest deadline (R255, R259) -/

/-- A pass that keeps the first element of the least measure finds what `List.argmin` finds. -/
theorem foldl_eq_argmin {α : Type} (f : α → Nat) {g : Option α → α → Option α} (l : List α) (first : ∀ x, g none x = some x)
    (next : ∀ b x, g (some b) x = if f x < f b then some x else some b) : l.foldl g none = l.argmin f := by
  have same : g = List.argAux fun x b => f x < f b := by
    funext b x
    cases b with
    | none => exact first x
    | some b => exact next b x
  rw [same, List.argmin]

theorem leastBy_eq_argmin (f : Super → Nat) (l : List Super) : leastBy f l = l.argmin f :=
  foldl_eq_argmin f l (fun _ => rfl) fun _ _ => rfl

/-- R259: of the reads that have a deadline the first of those with the earliest one goes first. -/
theorem nextRead_eq (l : List ReadReq) :
    nextRead l = ((l.filter fun r => r.deadline.isSome).argmin fun r => r.deadline.getD 0).or l.head? := by
  unfold nextRead
  dsimp only
  rw [foldl_eq_argmin fun r => r.deadline.getD 0]
  · cases (l.filter fun r => r.deadline.isSome).argmin fun r => r.deadline.getD 0 <;> rfl
  · exact fun _ => rfl
  · exact fun _ _ => rfl

theorem nextRead_earliest {l : List ReadReq} (h : l.any (·.deadline.isSome) = true) :
    ∃ r ∈ l, nextRead l = some r ∧ r.deadline.isSome = true ∧ ∀ x ∈ l, ∀ t, x.deadline = some t → r.deadline.getD 0 ≤ t := by
  obtain ⟨y, my, timed⟩ := List.any_eq_true.1 h
  have listed : y ∈ l.filter fun r => r.deadline.isSome := List.mem_filter.2 ⟨my, timed⟩
  obtain ⟨r, least⟩ : ∃ r, ((l.filter fun r => r.deadline.isSome).argmin fun r => r.deadline.getD 0) = some r :=
    Option.ne_none_iff_exists'.1 fun e => List.ne_nil_of_mem listed (List.argmin_eq_none.1 e)
  obtain ⟨mr, tr⟩ := List.mem_filter.1 (List.argmin_mem least)
  refine ⟨r, mr, by rw [nextRead_eq, least, Option.some_or], tr, fun x mx t tx => ?_⟩
  have le := List.le_of_mem_argmin (List.mem_filter.2 ⟨mx, by rw [tx]; rfl⟩) least
  rwa [tx, Option.getD_some] at le

section
variable (s : State)

/-! Erased blocks (R255) -/

theorem State.erased_flash {key k p : Nat} {f : FrameRec} (h : (p, f) ∈ (s.erased key k).cellar.flash) : placeMember p ≠ k := by
  have kept : (p, f) ∈ s.cellar.flash.filter fun x => placeMember x.1 != k := h
  exact bne_iff_ne.1 (List.mem_filter.1 kept).2

theorem State.erased_blockSt (key k : Nat) :
    (s.erased key k).blockSt k = { s.blockSt k with pe := (s.blockSt k).pe + 1, taken := false, moves := 0 } := by
  rw [State.erased, State.setBlock_blockSt_self]
  rfl

theorem State.erased_lunSt (key k : Nat) : (s.erased key k).lunSt key = { s.lunSt key with op := .idle } := by
  rw [State.erased, State.setBlock_lunSt]
  exact s.setLun_lunSt_self key fun l => { l with op := .idle }

theorem State.erased_mem (key k : Nat) : (s.erased key k).mem = s.mem := by
  rw [State.erased, State.setBlock_mem, State.setCel_mem, State.setLun_mem]

/-! The rows of a LUN, by what it is doing -/

variable {s} {c : BitVec 6} {tg : BitVec 3} {n : BitVec 2} (hl : s.live = true)
include hl

theorem exec_lunDispatch_idle (ready : (s.chIsReady c.toNat && (s.lunsOf c.toNat).contains (tg.toNat, n.toNat)) = true)
    (idle : (s.lunSt (lunKey c.toNat tg.toNat n.toNat)).op = .idle) : exec (.lunDispatch c tg n) s = .next (s.after
      (if s.depth (40 + groupOfCh c.toNat) = 0 then s.dispatchLun (lunKey c.toNat tg.toNat n.toNat)
       else if s.lunWaits (lunKey c.toNat tg.toNat n.toNat) then s.wakeFor (40 + groupOfCh c.toNat) else s)) := by
  rw [exec_lunDispatch, execLunDispatch, gated_live _ _ hl]
  simp only [ready, idle, beq_self_eq_true, Bool.and_self, if_true, beq_iff_eq]

theorem exec_lunDispatch_atWork (busy : (s.lunSt (lunKey c.toNat tg.toNat n.toNat)).op ≠ .idle) :
    exec (.lunDispatch c tg n) s = .next (s.after s) := by
  rw [exec_lunDispatch, execLunDispatch, gated_live _ _ hl]
  simp only [beq_eq_false_iff_ne.2 busy, Bool.and_false, Bool.false_eq_true, if_false]

theorem exec_frameReadDone_read {o : DecodeOut} {id : Nat} {r : ReadReq}
    (reads : (s.lunSt (lunKey c.toNat tg.toNat n.toNat)).op = .read id)
    (found : (s.cellar.reads.find? fun r => r.id == id) = some r) (may : s.stageMay (entryPlace r.entry) o = true)
    (needs : (s.frameRead (lunKey c.toNat tg.toNat n.toNat) r o).pool.needs = []) :
    exec (.frameReadDone c tg n o) s = .next (s.after (s.frameRead (lunKey c.toNat tg.toNat n.toNat) r o)) := by
  rw [exec_frameReadDone, execFrameReadDone, gated_live _ _ hl]
  simp only [reads, found, may, Bool.not_true, Bool.false_eq_true, if_false]
  rw [withLines_done s needs]

theorem exec_frameReadDone_givenUp {o : DecodeOut} {id : Nat} (reads : (s.lunSt (lunKey c.toNat tg.toNat n.toNat)).op = .read id)
    (gone : (s.cellar.reads.find? fun r => r.id == id) = none) : exec (.frameReadDone c tg n o) s = .next (s.after
      ((s.setLun (lunKey c.toNat tg.toNat n.toNat) fun l => { l with op := .idle }).addF F.CELLAR_CH_STAT_READS c.toNat 1)) := by
  rw [exec_frameReadDone, execFrameReadDone, gated_live _ _ hl]
  simp only [reads, gone]

theorem exec_readDeadline_early {id t : Nat} {r : ReadReq} (found : (s.cellar.reads.find? fun r => r.id == id) = some r)
    (timed : r.deadline = some t) (early : s.now < t) : exec (.readDeadline id) s = .next (s.after s) := by
  rw [exec_readDeadline, execReadDeadline, gated_live _ _ hl]
  simp only [found, timed, early, if_true]

theorem exec_readDeadline_passed {id t : Nat} {r : ReadReq} (found : (s.cellar.reads.find? fun r => r.id == id) = some r)
    (timed : r.deadline = some t) (passed : t ≤ s.now) (needs : (s.abandonRead r).pool.needs = []) :
    exec (.readDeadline id) s = .next (s.after (s.abandonRead r)) := by
  rw [exec_readDeadline, execReadDeadline, gated_live _ _ hl]
  simp only [found, timed, Nat.not_lt.2 passed, if_false]
  rw [withLines_done s needs]

end

/-- Settles O40: each row of a LUN does what the LUN's operation calls for, and the fold of `nextRead` finds the earliest deadline. -/
theorem lunsServeTheirQueues : Obligations.LunsServeTheirQueues := by
  unfold Obligations.LunsServeTheirQueues
  intro s c tg n o id hl key
  refine ⟨fun ready idle => ⟨fun awake => ?_, fun asleep waits => ?_⟩, exec_lunDispatch_atWork hl,
    fun _ => exec_frameReadDone_read hl, exec_frameReadDone_givenUp hl,
    fun _ _ found timed => ⟨exec_readDeadline_early hl found timed, exec_readDeadline_passed hl found timed⟩,
    fun p programs => ⟨?_, ?_⟩, fun k erases => ⟨?_, ?_, fun _ _ => s.erased_flash, ?_, ?_, ?_, s.erased_mem key k⟩,
    fun _ => nextRead_earliest⟩
  · rw [exec_lunDispatch_idle hl ready idle, if_pos awake]
  · rw [exec_lunDispatch_idle hl ready idle, if_neg asleep, if_pos waits]
  · rw [exec_programDone, execProgramDone, gated_live _ _ hl]
    dsimp only
    rw [programs]
  · rw [exec_programFailure, execProgramFailure, gated_live _ _ hl]
    dsimp only
    rw [programs]
  · rw [exec_eraseDone, execEraseDone, gated_live _ _ hl]
    dsimp only
    rw [erases]
    rfl
  · rw [exec_eraseDone, execEraseDone, gated_live _ _ hl]
    dsimp only
    rw [erases]
    rfl
  · rw [State.erased_blockSt]
  · rw [State.erased_blockSt]
  · rw [State.erased_lunSt]

end Sys2Proof.Machine
end

section
/-! PROOFS. The cellar's own work: channels that come up, the end of the start, superblocks collected and verified, and the timers (R239,
R240, R245, R250, R255, R265, R266, R553, R560). -/
namespace Sys2Proof.Machine

/-! The superblock of the least measure (R255) -/

theorem leastBy_mem {f : Super → Nat} {l : List Super} {b : Super} (h : leastBy f l = some b) : b ∈ l := by
  rw [leastBy_eq_argmin] at h
  exact List.argmin_mem h

theorem leastBy_le {f : Super → Nat} {l : List Super} {b x : Super} (h : leastBy f l = some b) (m : x ∈ l) : f b ≤ f x := by
  rw [leastBy_eq_argmin] at h
  exact List.le_of_mem_argmin m h

section
variable (s : State)

/-! A channel that comes up (R239, R256) -/

theorem State.foldl_setBlock_mem (g : BlockSt → BlockSt) (l : List Nat) : (l.foldl (fun s k => s.setBlock k g) s).mem = s.mem :=
  List.foldlRecOn (motive := fun t : State => t.mem = s.mem) _ _ rfl fun t same k _ => (t.setBlock_mem k g).trans same

theorem State.foldl_setBlock_f (g : BlockSt → BlockSt) (l : List Nat) (x : Fld) (i : Nat) :
    (l.foldl (fun s k => s.setBlock k g) s).f x i = s.f x i :=
  List.foldlRecOn (motive := fun t : State => t.f x i = s.f x i) _ _ rfl fun t same k _ => (t.setBlock_f k g x i).trans same

theorem State.channelUp_mem (c n : Nat) (ts : List TargetReport) : (s.channelUp c n ts).mem = s.mem := by
  rw [State.channelUp, State.foldl_setBlock_mem, State.setCel_mem, State.setFs_mem]

theorem State.channelUp_chState (c n : Nat) (ts : List TargetReport) : (s.channelUp c n ts).chState c = chReady := by
  rw [State.channelUp, State.chState, State.foldl_setBlock_f, State.setCel_f,
    State.f_setFs_of_mem s c .cellarChStat (by simp [F.CELLAR_CH_STAT_STATE, F.CELLAR_CH_STAT_LUNS]) rfl List.mem_cons_self]
  rfl

/-- R239, R240: what becomes of a channel in TRAINING: the targets decide, then the training. -/
theorem exec_channelTrainingEnd_training {c : BitVec 6} {ts : List TargetReport} (tr : Bool) (hl : s.live = true) (hc : c.toNat < 48)
    (training : s.chState c.toNat = chTraining) :
    let n := SMap.get 0 s.cellar.chTargets c.toNat
    let t := s.setCel fun x => { x with geom := (s.acceptTargets n ts).2 }
    let u := t.channelUp c.toNat n ts
    exec (.channelTrainingEnd c ts tr) s = .next (s.after
      (if (!(s.acceptTargets n ts).1) = true then (t.setF F.CELLAR_CH_STAT_STATE c.toNat chFailedPart).event F.TOP_INT_STAT_CELLAR
       else if (!tr) = true then (t.setF F.CELLAR_CH_STAT_STATE c.toNat chFailedTrain).event F.TOP_INT_STAT_CELLAR
       else if u.cellar.started then u.addSpare c.toNat else u)) := by
  rw [exec_channelTrainingEnd, execChannelTrainingEnd, gated_live _ _ hl]
  dsimp only
  rw [if_neg (not_or.2 ⟨Nat.not_le.2 hc, not_not.2 training⟩)]

/-! The end of the start (R560) -/

theorem State.endStart_mem (n : Nat) : (s.endStart n).mem = s.mem := by
  rw [State.endStart, State.setCel_mem, State.setF_mem, State.setF_mem, State.setF_mem]

theorem State.endStart_start (n : Nat) : (s.endStart n).f F.CELLAR_CFG_START 0 = 0 := by
  rw [State.endStart, State.setCel_f, State.f_setF_of_ne _ _ (by decide), State.f_setF_of_ne _ _ (by decide)]
  exact State.f_setF_self s F.CELLAR_CFG_START 0 0 (by decide) (by decide)

theorem State.endStart_userSlots (n : Nat) : (s.endStart n).f F.CELLAR_CAP_USER_SLOTS 0 = n % 2 ^ 40 := by
  rw [State.endStart, State.setCel_f, State.f_setF_of_ne _ _ (by decide)]
  exact State.f_setF_self _ F.CELLAR_CAP_USER_SLOTS 0 n (by decide) (by decide)

/-! Verification (R245) and the debug window (R265) -/

theorem State.isWeak_iff (reads : List (Nat × Bool × Nat)) (p : Nat) : s.isWeak reads p = true ↔
    ∃ x ∈ reads, x.1 = p ∧ (x.2.1 = false ∨ s.f F.CELLAR_CFG_VERIFY_LIMIT 0 < x.2.2) := by
  simp only [State.isWeak, List.any_eq_true, Bool.and_eq_true, Bool.or_eq_true, beq_iff_eq, Bool.not_eq_true', decide_eq_true_eq]

@[simp] theorem State.length_debugRead (a n : Nat) : (s.debugRead a n).length = n := by
  rw [State.debugRead, List.length_map, List.length_range]

theorem exec_superblockVerify_settled {sb : Nat} (reads : List (Nat × Bool × Nat)) {b : Super} (hl : s.live = true)
    (found : (s.cellar.supers.find? fun b => b.id == sb) = some b) (fresh : b.verified = false) (settled : s.settled b = true) :
    exec (.superblockVerify sb reads) s = .next (s.after
      ((((s.placesOf b).filter (s.isWeak reads)).foldl State.verifyMove ((s.placesOf b).foldl State.noteRead s)).modSuper sb
        fun b => { b with verified := true }).retryWaiting) := by
  rw [exec_superblockVerify, execSuperblockVerify, gated_live _ _ hl]
  simp only [found, fresh, settled, Bool.not_true, Bool.or_self, Bool.false_eq_true, if_false]

end

/-- Settles O41: each row meets its condition and does its work, and the passes over the superblocks find the one of the least measure. -/
theorem cellarKeepsItsFlash : Obligations.CellarKeepsItsFlash := by
  unfold Obligations.CellarKeepsItsFlash
  intro s c ts tr hl
  refine ⟨fun hc training => ⟨fun refused => ?_, fun accepted => ?_, fun accepted => ⟨?_, ?_, ?_⟩⟩, fun hc ready => ?_,
    fun n starting => ⟨?_, rfl, rfl, s.endStart_start n, s.endStart_userSlots n, s.endStart_mem n⟩,
    fun b least => ⟨?_, leastBy_mem least, fun _ => leastBy_le least⟩,
    fun b uneven least => ⟨?_, leastBy_mem least, fun _ => leastBy_le least⟩,
    fun _ reads _ => exec_superblockVerify_settled s reads hl, s.isWeak_iff, ?_, fun ready due => ?_, fun temps feat due => ?_,
    fun src a n wr => ⟨fun opened => ?_, fun shut => ?_⟩, State.length_debugRead⟩
  · rw [exec_channelTrainingEnd_training s tr hl hc training, refused]
    rfl
  · rw [exec_channelTrainingEnd_training s false hl hc training, accepted]
    rfl
  · rw [exec_channelTrainingEnd_training s true hl hc training, accepted]
    rfl
  · exact State.channelUp_chState _ _ _ _
  · rw [State.channelUp_mem, State.setCel_mem]
  · rw [exec_failedRun, execFailedRun, gated_live _ _ hl, if_pos ⟨hc, ready⟩]
  · rw [exec_cellarStartEnd, execCellarStartEnd, gated_live _ _ hl, starting]
  · rw [exec_garbageCollection, execGarbageCollection, gated_live _ _ hl, least]
  · rw [exec_wearLevelling, execWearLevelling, gated_live _ _ hl, if_pos uneven, least]
  · rw [exec_mapSegmentFlush, execMapSegmentFlush, gated_live _ _ hl]
  · rw [exec_zqShortCalibration, execZqShortCalibration, gated_live _ _ hl, ready, due, Bool.and_self, if_pos rfl]
  · rw [exec_temperatureSample, execTemperatureSample, gated_live _ _ hl, due]
    rw [if_neg (by simp only [feat, Bool.not_true, Bool.false_eq_true, or_self, not_false_eq_true])]
  · rw [exec_debugWindowAccess, execDebugWindowAccess, gated_live _ _ hl, if_pos opened]
  · rw [exec_debugWindowAccess, execDebugWindowAccess, gated_live _ _ hl, if_neg (ne_true_of_eq_false shut)]

end Sys2Proof.Machine
end

section
/-! PROOFS. Lost agents, the catalog cache, and partitions loaded and unloaded by register writes (R283, R296, R310, R330, R333, R335). -/
namespace Sys2Proof.Machine

section
variable (s : State)

/-! The catalog cache (R283, R310) -/

theorem State.catInval_all {v : Nat} (all : bit v 13 = true) : (s.catInval v).pool.catCache = [] := by
  rw [State.catInval, if_pos all, State.setPool_pool]

theorem State.catInval_slot {v : Nat} (one : bit v 13 = false) (slot : bits v 12 0 < Config.caskSlots) :
    SMap.find (s.catInval v).pool.catCache (bits v 12 0) = none := by
  rw [State.catInval, if_neg (ne_true_of_eq_false one), if_neg (Nat.not_le.2 slot), State.setPool_pool]
  exact SMap.find_del_self _ _

/-! A load and an unload begun (R330, R335) -/

theorem State.trlState_setF (x n : Nat) (g : PartSt → PartSt) :
    ((s.setF F.TRL_STAT_STATE n x).setPart n g).trlState n = x % 8 := by
  rw [State.trlState, State.setPart_f]
  exact State.f_setF_self s F.TRL_STAT_STATE n x (by decide) (by decide)

/-- A partition that is EMPTY or RUNNING is held by no load or unload. -/
theorem not_moving {st : Nat} (h : st = trlEmpty ∨ st = trlRunning) : ¬ (st = trlVerify ∨ st = trlDrain ∨ st = trlProgram) := by
  rcases h with rfl | rfl <;> decide

theorem State.trlStart_loads {n : Nat} (src : Src) (h : s.trlState n = trlEmpty ∨ s.trlState n = trlRunning) :
    let t := s.trlStart src n false
    t.trlState n = trlVerify ∧ t.mem = s.mem ∧ (t.part n).run = some ⟨false, s.fAddr F.TRL_SRC_ADDR n,
      s.f F.TRL_SRC_SIZE_64K n * 65536, s.trlState n, s.f F.TRL_LIMITS_GAP_MAX 0, none, s.now⟩ := by
  rw [State.trlStart, if_neg (not_moving h), if_neg Bool.false_ne_true]
  exact ⟨State.trlState_setF _ _ _ _, by simp, by rw [State.setPart_part_self]⟩

theorem State.trlStart_unloads {n : Nat} (src : Src) (h : s.trlState n = trlRunning) :
    let t := s.trlStart src n true
    t.trlState n = trlDrain ∧ t.mem = s.mem ∧ (t.part n).run = some ⟨true, 0, 0, trlRunning, 0, none, s.now⟩ := by
  rw [State.trlStart, if_neg (not_moving (.inr h)), if_pos rfl, h, if_neg (by decide)]
  exact ⟨State.trlState_setF _ _ _ _, by simp, by rw [State.setPart_part_self]⟩

end

/-- Settles O18: each row writes its one register, and the bits that it carries start the action. -/
theorem poolAndTrellisRowsTakeEffect : Obligations.PoolAndTrellisRowsTakeEffect := by
  unfold Obligations.PoolAndTrellisRowsTakeEffect
  intro s src a n v
  refine ⟨fun h => ?_, fun h => ⟨?_, State.catInval_all _, State.catInval_slot _⟩,
    fun h free => ⟨fun noUnload load => ?_, fun unload running => ?_⟩⟩
  · have fits : a.toNat < 2 ^ 64 := a.isLt.trans (by decide)
    rw [exec_agentLost, execAgentLost, row_takes s h (by decide) rfl, written_poolAgentLost, if_pos rfl, Nat.mod_eq_of_lt fits]
  · rw [exec_poolCatInval, execPoolCatInval, row_takes s h (by decide) rfl, written_poolCatInval, if_pos rfl, Nat.mod_eq_of_lt v.isLt]
  · refine ⟨_, ?_, (s.rowWrite .trlCtl n.toNat v.toNat).trlStart_loads src free⟩
    rw [exec_trellisLoad, execTrellisLoad, row_takes s h n.isLt rfl, written_trlCtl, Nat.mod_eq_of_lt v.isLt,
      if_neg (ne_true_of_eq_false noUnload), if_pos load]
  · refine ⟨_, ?_, (s.rowWrite .trlCtl n.toNat v.toNat).trlStart_unloads src running⟩
    rw [exec_trellisUnload, execTrellisUnload, row_takes s h n.isLt rfl, written_trlCtl, Nat.mod_eq_of_lt v.isLt, if_pos unload]

end Sys2Proof.Machine
end

section
/-! PROOFS. CASK_HINT, CASK_FLUSH and the pool's administration past their checks (R282, R284 to R286, R301, R304, R423). -/
namespace Sys2Proof.Machine

/-- R282, R301: a range whose fields are in order is one whose casks are looked up. -/
theorem ranged_of_caskFieldsOk {d : Bytes} {op : Nat} (h : caskFieldsOk d op = true) :
    (inCaskSpace (opN d 8 8) (opN d 16 8) && opN d 8 8 % 65536 == 0 && opN d 16 8 % 65536 == 0) = true := by
  simp only [caskFieldsOk, Bool.and_eq_true] at h ⊢
  obtain ⟨⟨⟨-, addr⟩, len⟩, space⟩ := h
  exact ⟨⟨space, addr⟩, len⟩

section
variable (s : State)

/-- R301: a range that passes its checks is worked on piece by piece. -/
theorem State.caskRange_works {c q op : Nat} {r : Req} (fields : caskFieldsOk r.desc op = true)
    (reach : ((s.caskNames c (opN r.desc 8 8) (opN r.desc 16 8)).2.any fun x => x.1.isNone) = false) :
    s.caskRange c q r op =
      (let y := s.caskNames c (opN r.desc 8 8) (opN r.desc 16 8)
       let z := y.1.caskParts c q r op y.2
       (if z.2.1 = 0 then z.1.finishCode c q z.2.2 else z.1.setWork c q (.cask z.2.1 z.2.2)).poolTick) := by
  unfold State.caskRange
  simp only [ranged_of_caskFieldsOk fields, fields, reach, Code.worst_self, Code.ok_bad, Bool.false_eq_true, if_false, if_true]

/-- CASK_HINT and CASK_FLUSH differ in their opcode alone. -/
theorem exec_caskRange {c : BitVec 12} {q : BitVec 16} {i : Instr} {op : Nat}
    (m : (i, op) ∈ [(Instr.caskHint c q, 0x40), (.caskFlush c q, 0x41)]) (hl : s.live = true) :
    exec i s = .next (s.after (s.runCmd c.toNat q.toNat op fun s r => s.caskRange c.toNat q.toNat r op)) := by
  simp only [List.mem_cons, List.not_mem_nil, or_false, Prod.mk.injEq] at m
  obtain ⟨rfl, rfl⟩ | ⟨rfl, rfl⟩ := m
  · rw [exec_caskHint, execCaskHint, gated_live _ _ hl]
  · rw [exec_caskFlush, execCaskFlush, gated_live _ _ hl]

/-! The administering tenant (R30, R284) -/

theorem State.adminCode_ok {c : Nat} (admin : s.f F.POOL_CFG_ADMIN_TENANT 0 = s.tenant c) : s.adminCode c true = .ok := by
  rw [State.adminCode, if_pos rfl, if_pos admin, Code.worst_self]

/-- DENIED is worse than what the arguments can give. -/
theorem State.adminCode_denied {c : Nat} (other : s.f F.POOL_CFG_ADMIN_TENANT 0 ≠ s.tenant c) (argsOk : Bool) :
    s.adminCode c argsOk = .denied := by
  rw [State.adminCode, if_neg other]
  cases argsOk <;> rfl

/-- DENIED is worse than what the directory's room can give. -/
theorem Code.denied_worst_room (p : Prop) [Decidable p] : Code.denied.worst (if p then Code.quota else Code.ok) = .denied := by
  split <;> rfl

@[simp] theorem Code.denied_bad : Code.denied.bad = true := rfl

/-- A command that has just begun and ends with a code needs no line of cask space. -/
theorem Runs.finishCode_needs {c q op : Nat} {r : Req} (h : Runs s c q op r) (k : Code) :
    ((s.begin c q r).finishCode c q k).pool.needs = [] := by
  rw [State.finishCode_pool, State.begin_pool, h.needs]

/-- R284: a command of the pool's administration by another tenant ends with DENIED. -/
theorem exec_caskAdmin_denied {c : BitVec 12} {q : BitVec 16} {r : Req} {i : Instr} {op : Nat}
    (m : (i, op) ∈ [(Instr.caskLend c q, 0x42), (.caskReclaim c q, 0x43), (.caskWithdraw c q, 0x44)])
    (runs : Runs s c.toNat q.toNat op r)
    (other : (s.begin c.toNat q.toNat r).f F.POOL_CFG_ADMIN_TENANT 0 ≠ (s.begin c.toNat q.toNat r).tenant c.toNat) :
    exec i s = .next (s.after ((s.begin c.toNat q.toNat r).finishCode c.toNat q.toNat .denied)) := by
  have needs := runs.finishCode_needs s .denied
  have code := State.adminCode_denied _ other
  simp only [List.mem_cons, List.not_mem_nil, or_false, Prod.mk.injEq] at m
  obtain ⟨rfl, rfl⟩ | ⟨rfl, rfl⟩ | ⟨rfl, rfl⟩ := m
  · rw [exec_caskLend, execCaskLend, gated_live _ _ runs.live, runCmd_gives s runs ?_ needs]
    simp only [code, Code.denied_worst_room, Code.denied_bad, if_true]
  · rw [exec_caskReclaim, execCaskReclaim, gated_live _ _ runs.live, runCmd_gives s runs ?_ needs]
    simp only [code, Code.denied_bad, if_true]
  · rw [exec_caskWithdraw, execCaskWithdraw, gated_live _ _ runs.live, runCmd_gives s runs ?_ needs]
    simp only [code, Code.denied_bad, if_true]

end

/-- Settles O42: each command passes its checks up to its work, and another tenant's stops at the check of the administrator. -/
theorem caskCommandsRun : Obligations.CaskCommandsRun := by
  unfold Obligations.CaskCommandsRun
  intro s₀ c q r₀ c' q' s r d
  refine ⟨fun i op m runs fields reach needs => ?_, fun i op m runs other => ⟨exec_caskAdmin_denied s₀ m runs other, ?_⟩,
    fun runs admin store record fields good needs => ?_,
    fun runs admin zero₁ zero₂ many first last lent needs => ?_,
    fun runs admin => ?_⟩
  · rw [exec_caskRange s₀ m runs.live, runCmd_gives s₀ runs (State.caskRange_works _ fields reach) needs]
  · rw [State.finishCode_mem, State.begin_mem]
  · rw [exec_caskLend, execCaskLend, gated_live _ _ runs.live, runCmd_gives s₀ runs ?_ needs]
    have room : ¬ (s.f F.DIR_STORE_SIZE 0 = 0 ∨ s.fAddr F.DIR_REC_ADDR 0 = 0) := not_or.2 ⟨store, record⟩
    dsimp only [s, r, d, c', q'] at admin fields good room ⊢
    simp only [fields, good, State.adminCode_ok _ admin, if_neg room, Bool.not_false, Bool.and_self, Code.worst_self, Code.ok_bad,
      Bool.false_eq_true, if_false]
  · rw [exec_caskReclaim, execCaskReclaim, gated_live _ _ runs.live, runCmd_gives s₀ runs ?_ needs]
    dsimp only [s, r, d, c', q'] at admin zero₁ zero₂ many first last lent ⊢
    simp only [zero₁, zero₂, many, first, last, lent, decide_true, State.adminCode_ok _ admin, Bool.and_self, Code.ok_bad,
      Bool.false_eq_true, if_false]
  · intro k a named zero₁ zero₂ cask agent lent kind
    have known : ∀ w : State, (if named = [] then s.finishCode c' q' .ok
        else ((s.setWork c' q' (.cask 1 .ok)).startWithdraw k named (some (c', q'))).poolTick) = w → w.pool.needs = [] →
        exec (.caskWithdraw c q) s₀ = .next (s₀.after w) := by
      rintro _ rfl needs
      rw [exec_caskWithdraw, execCaskWithdraw, gated_live _ _ runs.live, runCmd_gives s₀ runs ?_ needs]
      have kinds : (agentKind a != 3 || a == 0x3FFFF) = true := by
        simpa only [Bool.or_eq_true, bne_iff_ne, beq_iff_eq] using kind
      dsimp only [s, r, d, c', q', k, a, named] at admin zero₁ zero₂ cask agent lent kinds ⊢
      simp only [zero₁, zero₂, cask, agent, lent, kinds, decide_true, State.adminCode_ok _ admin, Bool.and_self, Code.ok_bad,
        Bool.false_eq_true, if_false]
    exact ⟨fun nobody => known _ (if_pos nobody) (runs.finishCode_needs s₀ .ok), fun somebody => known _ (if_neg somebody)⟩

end Sys2Proof.Machine
end

section
/-! PROOFS. Snoops, the answers to snoops and to requests, and the loss of an agent (R291 to R293, R295, R296, R306, R307). -/
namespace Sys2Proof.Machine

section
variable (s : State)

/-! This node's pool cache answers its own lender (R292) -/

theorem State.cacheSnoop_absent {k l : Nat} (h : s.cacheLine k l = none) :
    s.cacheSnoop s.self k l = (s.cacheDrop k l).snoopAnswer (s.cacheDrop k l).ownAgent (caskLocal k) l .notHeld := by
  simp only [State.cacheSnoop, h]
  exact if_pos rfl

theorem State.cacheSnoop_held {k l : Nat} {x : CacheLine} (h : s.cacheLine k l = some x) :
    s.cacheSnoop s.self k l = (s.cacheDrop k l).snoopAnswer (s.cacheDrop k l).ownAgent (caskLocal k) l
      (if x.owned then .withLine x.bytes else .without) := by
  simp only [State.cacheSnoop, h]
  cases x.owned <;> exact if_pos rfl

/-! Answers at the lender (R293, R296, R306, R307) -/

theorem State.snoopAnswer_late {a c l : Nat} (ans : SnoopAns)
    (h : (s.pool.recalls.find? fun r => r.cask == c && r.line == l && r.waits.contains a) = none) :
    s.snoopAnswer a c l ans = s.addF F.DIR_STAT_LATE_DROP 0 1 := by
  simp only [State.snoopAnswer, h]

theorem State.snoopFrom_taken {a k l g : Nat} (ans : SnoopAns) (mine : caskLender k = s.self) (there : s.pool.lost.contains a = false)
    (compat : s.compat = false) : s.snoopFrom a k l g ans = s.snoopAnswer a (caskLocal k) l ans := by
  rw [State.snoopFrom, if_neg (not_not.2 mine),
    if_neg (not_or.2 ⟨ne_true_of_eq_false there, fun old => ne_true_of_eq_false compat old.1⟩)]

theorem State.snoopFrom_lost {a k l g : Nat} (ans : SnoopAns) (mine : caskLender k = s.self) (lost : s.pool.lost.contains a = true) :
    s.snoopFrom a k l g ans = s.addF F.DIR_STAT_LATE_DROP 0 1 := by
  rw [State.snoopFrom, if_neg (not_not.2 mine), if_pos (.inl lost)]

/-! Answers of lenders (R291) -/

theorem State.lenderAnswer_fits {a : Option Nat} {k l : Nat} {isData : Bool} {r : LineReq} (code : Code) (d : Option Bytes)
    (h : s.pool.sent.find? (answerFits a k l isData) = some r) :
    s.lenderAnswer a k l isData code d =
      ((s.setPool fun p => { p with sent := dropFirst (answerFits a k l isData) p.sent }).answerAt k r code d).wakeJobs := by
  simp only [State.lenderAnswer, h]

theorem State.lenderAnswer_stray {a : Option Nat} {k l : Nat} {isData : Bool} (code : Code) (d : Option Bytes)
    (h : s.pool.sent.find? (answerFits a k l isData) = none) : s.lenderAnswer a k l isData code d = s := by
  simp only [State.lenderAnswer, h]

/-- R296: an agent of one of the three kinds is lost once it is declared lost. -/
theorem State.mem_lost_declareLost {a : Nat} (kind : agentKind a ≠ 3) : a ∈ (s.declareLost a).pool.lost := by
  rw [State.declareLost, if_neg kind, State.setPool_pool]
  dsimp only
  split
  · next h => exact List.contains_iff_mem.1 h
  · exact List.mem_append_right _ (List.mem_singleton_self a)

end

/-- Settles O44: each message finds what it answers, or is dropped, and the timer finds the recall whose time is over. -/
theorem snoopsAndAnswersAreTaken : Obligations.SnoopsAndAnswersAreTaken := by
  unfold Obligations.SnoopsAndAnswersAreTaken
  intro s n a k k' l g ans st b hl
  refine ⟨?_, ?_, fun own absent => ?_, fun x own held => ?_, fun mine there compat => ⟨?_, s.snoopAnswer_late ans⟩,
    fun mine lost => ?_, fun r fits => ?_, fun stray => ?_, fun r fits => ?_, fun stray => ?_, fun late => ?_,
    s.mem_lost_declareLost⟩
  · rw [exec_snpInv, execSnpInv, gated_live _ _ hl]
  · rw [exec_snpData, execSnpData, gated_live _ _ hl]
  · rw [own, s.cacheSnoop_absent absent]
  · rw [own, s.cacheSnoop_held held]
  · rw [exec_snpAck, execSnpAck, gated_live _ _ hl, s.snoopFrom_taken ans mine there compat]
  · rw [exec_snpAck, execSnpAck, gated_live _ _ hl, s.snoopFrom_lost ans mine lost]
  · rw [exec_data, execData, gated_live _ _ hl, s.lenderAnswer_fits _ _ fits]
  · rw [exec_data, execData, gated_live _ _ hl, s.lenderAnswer_stray _ _ stray]
  · rw [exec_cmp, execCmp, gated_live _ _ hl, s.lenderAnswer_fits _ _ fits]
  · rw [exec_cmp, execCmp, gated_live _ _ hl, s.lenderAnswer_stray _ _ stray]
  · rw [exec_recallTimeout, execRecallTimeout, gated_live _ _ hl, if_pos late]

end Sys2Proof.Machine
end

section
/-! PROOFS. Pages of flash-backed casks: fetched, evicted in their order, counted and given up (R297, R299, R300, R304, R307, R314). -/
namespace Sys2Proof.Machine

/-! The order of eviction (R300) -/

/-- R300: the number by which pages are evicted, lowest first: NORMAL after COLD, then the counter, the local index and the page. -/
def evictKey (x : Nat × Nat × PageEnt × Nat) : Nat :=
  (b2n (x.2.2.1.hint != 2) * 2 ^ 16 + x.2.2.2) * 2 ^ 24 + x.1 * 2 ^ 14 + x.2.1

theorem evictBefore_eq (x y : Nat × Nat × PageEnt × Nat) : evictBefore x y = decide (evictKey x < evictKey y) := rfl

theorem evictBefore_eq_false_iff (x y : Nat × Nat × PageEnt × Nat) : evictBefore x y = false ↔ evictKey y ≤ evictKey x := by
  rw [evictBefore_eq, decide_eq_false_iff_not, Nat.not_lt]

/-- The page at the head of the order is one of the pages, and no other comes before it. -/
theorem sortBy_evictBefore_head {l rest : List (Nat × Nat × PageEnt × Nat)} {x : Nat × Nat × PageEnt × Nat}
    (h : sortBy evictBefore l = x :: rest) : x ∈ l ∧ ∀ z ∈ l, evictBefore z x = false := by
  have perm := sortBy_perm evictBefore l
  have sorted := sortBy_pairwise evictBefore (R := fun x y => evictKey x ≤ evictKey y) (fun _ _ _ => Nat.le_trans)
    (fun _ _ e => (of_decide_eq_true e).le) (fun x y => (evictBefore_eq_false_iff x y).1) l
  rw [h] at perm sorted
  refine ⟨perm.mem_iff.1 List.mem_cons_self, fun z m => (evictBefore_eq_false_iff z x).2 ?_⟩
  rcases List.mem_cons.1 (perm.mem_iff.2 m) with rfl | m
  · exact Nat.le_refl _
  · exact (List.pairwise_cons.1 sorted).1 z m

section
variable (s : State)

/-- R299, R300: a page that may be evicted neither moves nor is poisoned, and its hint is NORMAL or COLD. -/
theorem State.of_mem_evictable {x : Nat} {y : Nat × PageEnt × Nat} (h : (x, y) ∈ s.evictable) :
    y.2.1.moving = false ∧ y.2.1.poisoned = false ∧ (y.2.1.hint = 0 ∨ y.2.1.hint = 2) := by
  obtain ⟨_, _, m⟩ := List.mem_flatMap.1 h
  have test := (List.mem_filter.1 m).2
  simp only [Bool.and_eq_true, Bool.or_eq_true, Bool.not_eq_true', beq_iff_eq] at test
  obtain ⟨⟨⟨moving, poisoned⟩, hint⟩, -⟩ := test
  exact ⟨moving, poisoned, hint⟩

/-- R300: with free frames below the low mark, and fewer than enough of them free or on their way, one page more is evicted. -/
theorem exec_pageEviction_starts {x : Nat} {y : Nat × PageEnt × Nat} {rest : List (Nat × Nat × PageEnt × Nat)} (hl : s.live = true)
    (marked : s.frameGroups ≠ []) (low : s.freeFrames < s.f F.DIR_CFG_LOW_FRAMES_K 0 * 1024) :
    let t := s.setPool fun p => { p with evicting := true }
    let high := max (s.f F.DIR_CFG_LOW_FRAMES_K 0 * 1024) (s.f F.DIR_CFG_HIGH_FRAMES_K 0 * 1024)
    t.freeFrames < high → t.freeFrames + (t.pool.pageJobs.filter (·.evict)).length < high →
      sortBy evictBefore t.evictable = (x, y) :: rest →
      exec .pageEviction s = .next (s.after ((t.startPageJob x y.1 true none).poolTick).wakeJobs) := by
  intro t high few onWay first
  rw [exec_pageEviction, execPageEviction, gated_live _ _ hl]
  dsimp only
  rw [if_neg marked, if_pos low, if_neg (by simp), if_neg (Nat.not_le.2 few), if_neg (Nat.not_le.2 onWay), first]

/-! A page that comes in (R299) -/

theorem State.pageIn_fetching (c p k : Nat) (l : Lent) : (s.pageIn c p k l).fetching c p = false := by
  unfold State.pageIn
  generalize List.foldl _ (s, ([] : List (Option Bytes))) (List.range 16) = read
  obtain ⟨t, parts⟩ := read
  rw [State.fetching, State.addF_pool, State.setPool_pool, List.any_eq_false]
  intro f m
  have other := (List.mem_filter.1 m).2
  rwa [Bool.not_eq_true', ← Bool.not_eq_true] at other

/-! The counters halved (R300) -/

theorem State.setPageCount_regs (c p v : Nat) : (s.setPageCount c p v).regs = s.regs := State.storeN_regs _ _ _ _

/-- One cask's counters halved, of whichever pages (no proof needs the list of all 16,384). -/
theorem State.foldl_halve_regs (c : Nat) (l : List Nat) :
    (l.foldl (fun s p => if s.pageCount c p = 0 then s else s.setPageCount c p (s.pageCount c p / 2)) s).regs = s.regs := by
  refine List.foldlRecOn (motive := fun t : State => t.regs = s.regs) _ _ rfl fun t same p _ => ?_
  split
  · exact same
  · exact (t.setPageCount_regs _ _ _).trans same

theorem State.foldl_casks_halve_regs (pages : List Nat) (casks : List (Nat × Lent)) :
    (casks.foldl (fun s (c, _) => pages.foldl (fun s p =>
      if s.pageCount c p = 0 then s else s.setPageCount c p (s.pageCount c p / 2)) s) s).regs = s.regs :=
  List.foldlRecOn (motive := fun t : State => t.regs = s.regs) _ _ rfl fun t same x _ => (t.foldl_halve_regs x.1 pages).trans same

theorem State.halveCounts_regs : s.halveCounts.regs = s.regs := by
  rw [State.halveCounts]
  exact s.foldl_casks_halve_regs (List.range 16384) s.pool.lent

theorem State.halveCounts_f (x : Fld) (i : Nat) : s.halveCounts.f x i = s.f x i := State.f_of_regs s.halveCounts_regs x i

theorem State.halveCounts_now : s.halveCounts.now = s.now := s.halveCounts_f _ _

end

/-- Settles O45: each row meets its condition and does its work, and the sorted list of pages begins with the first to be evicted. -/
theorem pagesMove : Obligations.PagesMove := by
  unfold Obligations.PagesMove
  intro s k g hl c p
  refine ⟨fun flash idle absent still asked => ?_, fun flash fetching => ?_,
    fun f l n found lent frame => ⟨?_, s.pageIn_fetching c p n l⟩,
    fun marked low few onWay x y rest first => ?_, fun due period => ?_, fun period early => ?_,
    fun f found => ⟨fun due => ?_, fun early => ?_⟩, fun compat late => ?_, fun compat => ?_⟩
  · rw [exec_pageFetch, execPageFetch, gated_live _ _ hl]
    simp only [c, p] at flash idle absent still asked ⊢
    simp only [flash, idle, absent, still, asked, Bool.not_true, Bool.not_false, Bool.and_self, Bool.false_eq_true, if_false, if_true]
  · rw [exec_pageFetch, execPageFetch, gated_live _ _ hl]
    simp only [c, p] at flash fetching ⊢
    simp only [flash, fetching, Bool.not_true, Bool.false_eq_true, if_false, if_true]
  · rw [exec_pageFetchDone, execPageFetchDone, gated_live _ _ hl]
    simp only [c, p] at found lent ⊢
    simp only [found, lent, frame]
  · obtain ⟨m, least⟩ := sortBy_evictBefore_head first
    obtain ⟨moving, poisoned, hint⟩ := State.of_mem_evictable _ m
    exact ⟨exec_pageEviction_starts s hl marked low few onWay first, moving, poisoned, hint, least⟩
  · rw [exec_counterHalving, execCounterHalving, gated_live _ _ hl, if_neg (by simp [due]), if_neg period, State.halveCounts_now,
      State.halveCounts_f]
  · rw [exec_counterHalving, execCounterHalving, gated_live _ _ hl, if_pos ⟨period, by simp [early]⟩]
  · rw [exec_fetchTimeout, execFetchTimeout, gated_live _ _ hl]
    simp only [c, p] at found ⊢
    simp only [found, due, Bool.not_true, Bool.false_eq_true, if_false]
  · rw [exec_fetchTimeout, execFetchTimeout, gated_live _ _ hl]
    simp only [c, p] at found ⊢
    simp only [found, early, Bool.not_false, if_true]
  · rw [exec_drainTimeout, execDrainTimeout, gated_live _ _ hl]
    dsimp only
    rw [if_neg (not_or.2 ⟨ne_true_of_eq_false compat, late⟩)]
  · rw [exec_drainTimeout, execDrainTimeout, gated_live _ _ hl]
    dsimp only
    rw [if_pos (.inl compat)]

end Sys2Proof.Machine
end

section
/-! PROOFS. Trellis images verified, drained for and programmed (R316, R324, R325, R328, R330, R331). -/
namespace Sys2Proof.Machine

/-- A pass of steps that each keep memory keeps memory. -/
theorem State.foldl_mem {α : Type} {step : State → α → State} (keeps : ∀ t x, (step t x).mem = t.mem) (l : List α) (s : State) :
    (l.foldl step s).mem = s.mem :=
  List.foldlRecOn (motive := fun t : State => t.mem = s.mem) _ _ rfl fun t same x _ => (keeps t x).trans same

section
variable (s : State)

theorem State.noteBytes_part (a len n : Nat) : (s.noteBytes a len).part n = s.part n := by
  rw [show s.noteBytes a len = { s with regs := (s.noteBytes a len).regs } from s.noteBytes_regsOnly a len]
  rfl

theorem State.trlEvent_part (n m : Nat) : (s.trlEvent n).part m = s.part m := by
  rw [State.trlEvent, State.part, State.setBitF_parts, ← State.part]

/-- STATE of a partition just given a state that its three bits hold. -/
theorem State.trlState_setF_self {x : Nat} (n : Nat) (h : x < 8) : (s.setF F.TRL_STAT_STATE n x).trlState n = x :=
  (s.f_setF_self F.TRL_STAT_STATE n x (by decide) (by decide)).trans (Nat.mod_eq_of_lt h)

/-! A load that fails (R330) -/

section
variable {s}
variable {n : Nat} {r : LoadRun} (run : (s.part n).run = some r) (res : Nat)
include run

theorem State.failLoad_eq : s.failLoad n res =
    (((s.setFs n [(F.TRL_STAT_STATE, r.before), (F.TRL_STAT_RESULT, res)]).setF F.TRL_CTL_LOAD n 0).setPart n fun p =>
      { p with run := none }).trlEvent n := by
  rw [State.failLoad, run]

theorem State.failLoad_mem : (s.failLoad n res).mem = s.mem := by
  rw [State.failLoad_eq run, State.trlEvent, State.setBitF_mem, State.setPart_mem, State.setF_mem, State.setFs_mem]

/-- The image stays and the load is over. -/
theorem State.failLoad_part : (s.failLoad n res).part n = { s.part n with run := none } := by
  rw [State.failLoad_eq run, State.trlEvent_part, State.setPart_part_self, State.part, State.setF_parts, State.setFs_parts, ← State.part]

theorem State.failLoad_trlState (hn : n < 8) : (s.failLoad n res).trlState n = r.before % 8 := by
  rw [State.failLoad_eq run, State.trlEvent, State.setBitF, State.trlState,
    State.f_setF_of_ne _ _ (Reg.addr_ne (by decide) hn (by decide)), State.setPart_f,
    State.f_setF_of_ne _ _ (Reg.addr_ne (by decide) hn hn),
    State.f_setFs_of_mem s n .trlStat (by simp [F.TRL_STAT_STATE, F.TRL_STAT_RESULT]) rfl List.mem_cons_self]
  rfl

end

/-! An image that has passed its checks (R329, R330) -/

theorem State.setTileHolder_mem (t : Nat) (p : Option Nat) : (s.setTileHolder t p).mem = s.mem := rfl

theorem State.setPressHolder_mem (u : Nat) (p : Option Nat) : (s.setPressHolder u p).mem = s.mem := rfl

theorem State.store_storeSlot (a : Nat) (d : Bytes) (n : Nat) : (s.store a d).storeSlot n = s.storeSlot n := by
  rw [State.storeSlot, State.fAddr, State.f_of_regs (s.store_regs a d), ← State.fAddr, ← State.storeSlot]

theorem State.holdImage_mem (n : Nat) (r : LoadRun) (g : Img) : (s.holdImage n r g).mem = s.mem := by
  rw [State.holdImage, State.setF_mem, State.setPart_mem, State.foldl_mem fun t p => ?press, State.foldl_mem fun t x => ?tiles]
  case tiles => exact t.setTileHolder_mem _ _
  case press => exact t.setPressHolder_mem _ _

theorem State.holdImage_trlState (n : Nat) (r : LoadRun) (g : Img) :
    (s.holdImage n r g).trlState n = if r.before = trlEmpty then trlProgram else trlDrain := by
  rw [State.holdImage]
  exact State.trlState_setF_self _ n (by split <;> decide)

section
variable {s}
variable {k : BitVec 3} {r : LoadRun} (hl : s.live = true) (run : (s.part k.toNat).run = some r)
include hl run

/-- R329, R330: what becomes of a partition in VERIFY: the checks decide, then the room in its store slot and what it reads back.
The result of the checks is put in before their pair is taken apart, so that no step of the proof evaluates the checks. -/
theorem exec_verifyDone_verify {res : Nat} {b : Bytes} (verify : s.trlState k.toNat = trlVerify)
    (checked : s.checkImage k.toNat r.src r.size r.gapMax = (res, b)) :
    let n := k.toNat
    let g := imgOf b
    let d := slice b 0 g.bytes
    let v := s.noteBytes r.src b.length
    let w := v.store (v.storeSlot n) d
    exec (.verifyDone k) s = .next (s.after
      (if res ≠ 0 then v.failLoad n res
       else if (!v.plainHbm (v.storeSlot n) g.bytes) = true then v.failLoad n 14
       else if w.peek (v.storeSlot n) g.bytes ≠ d then w.failLoad n 14
       else w.holdImage n r g)) := by
  intro n g d v w
  rw [exec_verifyDone, execVerifyDone, gated_live _ _ hl]
  extract_lets
  split
  case h_1 none => cases run.symm.trans none
  case h_2 r' same =>
    obtain rfl := Option.some.inj (run.symm.trans same)
    rw [if_neg (not_not.2 verify), checked]
    dsimp only
    rw [State.store_storeSlot]

/-! DRAIN and PROGRAM (R324, R325, R328, R330, R331) -/

theorem exec_drainEnd_drain (drain : s.trlState k.toNat = trlDrain) :
    exec (.drainEnd k) s = .next (s.after
      (if s.partHolds k.toNat = true ∧ (!s.due r.started (1000 * s.f F.TRL_CTL_DRAIN_MS k.toNat)) = true then s
       else (s.clearPart k.toNat .aborted .aborted).leaveDrain k.toNat r)) := by
  rw [exec_drainEnd, execDrainEnd, gated_live _ _ hl]
  simp only [run, drain, ne_eq, not_true_eq_false, false_or]

theorem exec_programEnd_program {g : Img} (program : s.trlState k.toNat = trlProgram) (img : r.img = some g) :
    exec (.programEnd k) s = .next (s.after
      (((((s.programImage k.toNat g).setF F.TRL_CTL_LOAD k.toNat 0).appendLog (0x10 + k.toNat) 2 k.toNat g.keySlot g.digest).trlEvent
        k.toNat).retake k.toNat)) := by
  rw [exec_programEnd, execProgramEnd, gated_live _ _ hl]
  simp only [run, img, program, ne_eq, not_true_eq_false, if_false]

end

theorem State.leaveDrain_load (n : Nat) {r : LoadRun} (load : r.unload = false) :
    s.leaveDrain n r = s.setF F.TRL_STAT_STATE n trlProgram := by
  rw [State.leaveDrain, load, if_neg Bool.false_ne_true]

theorem State.loadScales_mem (g : Img) : (s.loadScales g).mem = s.mem := by
  rw [State.loadScales, State.foldl_mem fun t x => t.setReg_mem .tileScale _ _]

theorem State.programImage_mem (n : Nat) (g : Img) : (s.programImage n g).mem = s.mem := by
  rw [State.programImage, State.setPart_mem, State.setFs_mem, State.foldl_mem fun t _ => t.setReg_mem .trlDigest _ _, State.setReg_mem,
    State.foldl_mem fun t k => ?barriers, State.loadScales_mem, State.foldl_mem fun t u => ?press, State.foldl_mem fun t x => ?tiles]
  case tiles => split <;> rfl
  case press =>
    split
    · dsimp only
      split <;> rfl
    · rfl
  case barriers => split <;> rfl

theorem State.programImage_part (n : Nat) (g : Img) :
    ((s.programImage n g).part n).img = some g ∧ ((s.programImage n g).part n).run = none := by
  rw [State.programImage, State.setPart_part_self]
  exact ⟨rfl, rfl⟩

/-- A field of TRL_STAT that an image written into its partition sets. -/
theorem State.programImage_f (n : Nat) (g : Img) {x : Fld} {v : Nat} (m : (x, v) ∈ [(F.TRL_STAT_STATE, trlRunning), (F.TRL_STAT_RESULT, 0),
      (F.TRL_STAT_TILES, g.tiles.length), (F.TRL_STAT_PRESS, g.press.length), (F.TRL_STAT_MAX_LIVE, g.maxLive)]) :
    (s.programImage n g).f x n = v % 2 ^ (x.hi + 1 - x.lo) := by
  rw [State.programImage, State.setPart_f]
  exact State.f_setFs_of_mem _ n .trlStat (by simp [F.TRL_STAT_STATE, F.TRL_STAT_RESULT, F.TRL_STAT_TILES, F.TRL_STAT_PRESS,
    F.TRL_STAT_MAX_LIVE]) rfl m

end

/-- Settles O46: the checks of VERIFY, what holds DRAIN and the image of PROGRAM decide, and each outcome gives its fields last. -/
theorem imagesAreLoaded : Obligations.ImagesAreLoaded := by
  unfold Obligations.ImagesAreLoaded
  intro s k r hl n run
  refine ⟨fun verify => ?_, fun drain => ⟨fun ended => ?_, fun holds early => ?_⟩, fun u load => ?_, fun g program img => ?_⟩
  · have decided := exec_verifyDone_verify hl run verify (Prod.eta _).symm
    intro res b g d v
    have vrun : (v.part n).run = some r := by rw [State.noteBytes_part, run]
    refine ⟨fun bad => ⟨?_, State.failLoad_trlState vrun res k.isLt, ?_, ?_, ?_⟩, fun good room same => ⟨?_, ?_, ?_⟩⟩
    · rw [decided, if_pos bad]
    · rw [State.failLoad_mem vrun, State.noteBytes_mem]
    · rw [State.failLoad_part vrun, State.noteBytes_part]
    · rw [State.failLoad_part vrun]
    · rw [decided, if_neg (not_not.2 good), if_neg (by rw [room]; decide), if_neg (not_not.2 same)]
    · exact State.holdImage_mem _ n r g
    · exact State.holdImage_trlState _ n r g
  · rw [exec_drainEnd_drain hl run drain, if_neg]
    rintro ⟨holds, early⟩
    rcases ended with idle | due
    · exact absurd holds (ne_true_of_eq_false idle)
    · exact absurd due (by simpa using early)
  · rw [exec_drainEnd_drain hl run drain, if_pos ⟨holds, by rw [early]; rfl⟩]
  · rw [u.leaveDrain_load n load]
    exact ⟨u.trlState_setF_self n (by decide), u.setF_mem _ _ _⟩
  · obtain ⟨written, done⟩ := s.programImage_part n g
    exact ⟨exec_programEnd_program hl run program img, s.programImage_f n g List.mem_cons_self, written, done,
      s.programImage_f n g (List.mem_cons_of_mem _ List.mem_cons_self), s.programImage_mem n g⟩

end Sys2Proof.Machine
end

section
/-! PROOFS. Completions written: the bytes at the tail of the ring, the slot freed, and what the interrupt and a context left without
requests add (R342, R344, R424, R427). -/
namespace Sys2Proof.Machine

section
variable (s : State)

/-! The interrupt and the end of a context leave memory and its check codes -/

/-- A context's interrupt changes the Nahel ports alone (R427). -/
@[simp] theorem State.ctxIntr_mem (c : Nat) : (s.ctxIntr c).mem = s.mem := by
  unfold State.ctxIntr
  split
  · exact State.raiseIntr_mem ..
  · rfl
@[simp] theorem State.ctxIntr_ecc (c : Nat) : (s.ctxIntr c).ecc = s.ecc := by
  unfold State.ctxIntr
  split
  · exact State.raiseIntr_ecc ..
  · rfl

theorem State.emptyRings_mem (c : Nat) : (s.emptyRings c).mem = s.mem := by
  rw [State.emptyRings, State.setCtx_mem, State.setFs_mem]
theorem State.emptyRings_ecc (c : Nat) : (s.emptyRings c).ecc = s.ecc := by
  rw [State.emptyRings, State.setCtx_ecc, State.setFs_ecc]

theorem State.resetDue_mem (c : Nat) : (s.resetDue c).mem = s.mem := by
  unfold State.resetDue
  split
  · rw [State.setF_mem, State.setF_mem, State.emptyRings_mem]
  · rfl
theorem State.resetDue_ecc (c : Nat) : (s.resetDue c).ecc = s.ecc := by
  unfold State.resetDue
  split
  · rw [State.setF_ecc, State.setF_ecc, State.emptyRings_ecc]
  · rfl

@[simp] theorem State.ctxIdle_mem (c : Nat) : (s.ctxIdle c).mem = s.mem := by
  unfold State.ctxIdle
  dsimp only
  split
  · rw [State.setCtx_mem, State.setF_mem, State.setF_mem, State.setTaken_mem]
  · rw [State.resetDue_mem, State.setTaken_mem]
@[simp] theorem State.ctxIdle_ecc (c : Nat) : (s.ctxIdle c).ecc = s.ecc := by
  unfold State.ctxIdle
  dsimp only
  split
  · rw [State.setCtx_ecc, State.setF_ecc, State.setF_ecc, State.setTaken_ecc]
  · rw [State.resetDue_ecc, State.setTaken_ecc]

/-! The completion of the oldest request (R344, R424) -/

/-- The tail of a completion ring after one more completion. -/
def State.nextTail (c : Nat) : Nat := (s.f F.CTX_STAT_CQ_TAIL c + 1) % s.cqDepth c

/-- A context whose oldest request has been completed: the others stay, the ring holds one more, and the phase turns with the tail. -/
def CtxSt.complete (x : CtxSt) (rest : List Req) (next now : Nat) : CtxSt :=
  { x with reqs := rest, cqUsed := x.cqUsed + 1, phase := if next = 0 then !x.phase else x.phase, progress := now }

/-- The state in which the completion of the oldest request stands in the ring, and the request is gone. -/
def State.complete (c : Nat) (r : Req) (rest : List Req) (k : Compl) : State :=
  ((s.store (s.fAddr F.CTX_CQ_ADDR c + 32 * s.f F.CTX_STAT_CQ_TAIL c) (complBytes r c (s.ctx c).phase k)).setF
    F.CTX_STAT_CQ_TAIL c (s.nextTail c)).setCtx c fun x => x.complete rest (s.nextTail c) s.now

/-- What follows the completion: the interrupt that the descriptor asks for, and the end of a context that has no request left. -/
def State.completed (c : Nat) (r : Req) (rest : List Req) (k : Compl) : State :=
  (if bit (byteAt r.desc 6) 0 then (s.complete c r rest k).ctxIntr c else s.complete c r rest k).ctxIdle c

/-- The completion of a request that has ended is written where the ring has room and no SUSPENDED context holds it back (R470). -/
theorem State.writeCompletion_writes {c : Nat} {r : Req} {rest : List Req} {k : Compl} (oldest : (s.ctx c).reqs = r :: rest)
    (ended : r.work = .finished k) (released : s.ctxState c ≠ ctxSuspended ∨ (s.ctx c).release = true)
    (room : (s.ctx c).cqUsed < s.cqDepth c) : s.writeCompletion c = s.completed c r rest k := by
  have writes : ¬ ((s.ctxState c = ctxSuspended ∧ !(s.ctx c).release) ∨ s.cqDepth c ≤ (s.ctx c).cqUsed) := by
    rintro (⟨suspended, held⟩ | full)
    · rcases released with running | free
      · exact running suspended
      · rw [free] at held
        cases held
    · exact Nat.not_le.2 room full
  have depth : ∀ a d, (s.store a d).cqDepth c = s.cqDepth c := fun a d => by rw [State.cqDepth, State.store_f, State.cqDepth]
  have now : ∀ a d, (s.store a d).now = s.now := fun a d => s.store_f a d _ _
  unfold State.writeCompletion
  simp only [oldest, ended, if_neg writes, depth, now]
  rfl

/-- Of what completes a request, only the store of the completion reaches memory. -/
theorem State.completed_memory (c : Nat) (r : Req) (rest : List Req) (k : Compl) :
    let a := s.fAddr F.CTX_CQ_ADDR c + 32 * s.f F.CTX_STAT_CQ_TAIL c
    let d := complBytes r c (s.ctx c).phase k
    (s.completed c r rest k).mem = (s.store a d).mem ∧ (s.completed c r rest k).ecc = (s.store a d).ecc := by
  intro a d
  rw [State.completed, State.ctxIdle_mem, State.ctxIdle_ecc]
  split
  · rw [State.ctxIntr_mem, State.ctxIntr_ecc, State.complete, State.setCtx_mem, State.setCtx_ecc, State.setF_mem, State.setF_ecc]
    exact ⟨rfl, rfl⟩
  · rw [State.complete, State.setCtx_mem, State.setCtx_ecc, State.setF_mem, State.setF_ecc]
    exact ⟨rfl, rfl⟩

end

/-- Settles O26: the store of the completion is all that reaches memory, and the slot, the tail, the interrupt and the end of the
context follow it. -/
theorem completionIsWritten : Obligations.CompletionIsWritten := by
  unfold Obligations.CompletionIsWritten
  intro s c r rest k hl oldest ended released room tail a d next u t
  have done : s.completed c.toNat r rest k = t := rfl
  obtain ⟨mem, ecc⟩ := s.completed_memory c.toNat r rest k
  refine ⟨?_, ?_, ?_, fun b inside => ?_⟩
  · rw [exec_writeCompletion, execWriteCompletion, gated_live _ _ hl, s.writeCompletion_writes oldest ended released room, done]
  · rw [← done, mem]
  · rw [← done, ecc]
  · obtain ⟨-, frame, -⟩ := memoryReadsBack s a d inside
    exact frame b

end Sys2Proof.Machine
end

section
/-! PROOFS. Contexts enabled, disabled, pre-empted, resumed, aborted and reset, their doorbells and their translations, all by register
writes (R341, R342, R347, R348, R350, R352, R354, R366, R367). -/
namespace Sys2Proof.Machine

section
variable (s : State) {src : Src} {c : Nat}

/-! A write of CTX_CFG that changes ENABLE (R341, R348) -/

theorem State.ctxWritten_enables {old : Nat} (on : s.on F.CTX_CFG_ENABLE c = true) (was : old.testBit 0 = false)
    (may : s.mayEnable c = true) : s.ctxWritten src c old = s.enableCtx c := by
  simp only [State.ctxWritten, on, was, may, if_true, Bool.false_eq_true, if_false]

theorem State.ctxWritten_disables {old : Nat} (off : s.on F.CTX_CFG_ENABLE c = false) (was : old.testBit 0 = true) :
    s.ctxWritten src c old = s.disableCtx c := by
  simp only [State.ctxWritten, off, was, if_true, Bool.false_eq_true, if_false]

theorem State.enableCtx_ctxState : (s.enableCtx c).ctxState c = ctxEnabled := by
  rw [State.enableCtx, State.ctxState, State.setCtx_f]
  exact State.f_setFs_of_mem _ c .ctxStat (by simp [F.CTX_STAT_STATE, F.CTX_STAT_TAKEN]) rfl List.mem_cons_self

theorem State.enableCtx_reqs : ((s.enableCtx c).ctx c).reqs = [] := congrArg CtxSt.reqs (State.setCtx_ctx_self ..)

theorem State.enableCtx_mem : (s.enableCtx c).mem = s.mem := by
  rw [State.enableCtx, State.setCtx_mem, State.setFs_mem, State.emptyRings_mem]

/-! The bits of CTX_CTL, each written alone (R367) -/

theorem State.ctxCtl_preempt : s.ctxCtl src c (1 % 2 ^ 64) = s.preempt src c := by
  simp [State.ctxCtl, bit, Nat.testBit_eq_decide_div_mod_eq]
theorem State.ctxCtl_resume : s.ctxCtl src c (2 % 2 ^ 64) = s.resume src c := by
  simp [State.ctxCtl, bit, Nat.testBit_eq_decide_div_mod_eq]
theorem State.ctxCtl_abort : s.ctxCtl src c (4 % 2 ^ 64) = (s.setF F.CTX_CTL_ABORT c 0).abortCtx c := by
  simp [State.ctxCtl, bit, Nat.testBit_eq_decide_div_mod_eq]
theorem State.ctxCtl_reset : s.ctxCtl src c (8 % 2 ^ 64) = s.ctxReset c := by
  simp [State.ctxCtl, bit, Nat.testBit_eq_decide_div_mod_eq]

/-! Pre-emption and its end (R350, R352) -/

/-- CTX_STAT of a context and another of its registers. -/
theorem addr_ne_ctxStat {r : Reg} (other : r ≠ .ctxStat) {i : Nat} (hi : i < r.count) (hc : c < 4096) :
    r.addr i ≠ Reg.ctxStat.addr c := Reg.addr_ne other hi hc

theorem State.partOf_lt : s.partOf c < 8 := bits_lt_field ..

/-- What a save area must hold depends on no field of CTX_STAT. -/
theorem State.saveLen_setF_noSpace (hc : c < 4096) (v : Nat) : (s.setF F.CTX_STAT_NO_SPACE c v).saveLen c = s.saveLen c := by
  have part : (s.setF F.CTX_STAT_NO_SPACE c v).partOf c = s.partOf c :=
    s.f_setF_of_ne v (addr_ne_ctxStat (by decide) hc hc)
  have stat : ∀ x : Fld, x.reg = .trlStat → (s.setF F.CTX_STAT_NO_SPACE c v).f x (s.partOf c) = s.f x (s.partOf c) := fun x hx =>
    s.f_setF_of_ne v (by rw [hx]; exact addr_ne_ctxStat (by decide) s.partOf_lt hc)
  rw [State.saveLen, part, stat _ rfl, stat _ rfl, State.saveLen]

theorem State.preempt_suspends (hc : c < 4096) (enabled : s.ctxState c = ctxEnabled) (stays : (s.ctx c).closing = false)
    (room : s.saveLen c ≤ s.f F.CTX_SAVE_SIZE_MIB c * 2 ^ 20) : s.preempt src c =
      (s.setF F.CTX_STAT_NO_SPACE c 0).setFs c [(F.CTX_STAT_STATE, ctxSuspending), (F.CTX_CTL_PREEMPT, 1)] := by
  have size : (s.setF F.CTX_STAT_NO_SPACE c 0).f F.CTX_SAVE_SIZE_MIB c = s.f F.CTX_SAVE_SIZE_MIB c :=
    s.f_setF_of_ne 0 (addr_ne_ctxStat (by decide) hc hc)
  have ready : ¬ (s.ctxState c ≠ ctxEnabled ∨ (s.ctx c).closing = true) := by
    rw [stays, not_or]
    exact ⟨not_not.2 enabled, Bool.false_ne_true⟩
  rw [State.preempt, if_neg ready]
  dsimp only
  rw [size, s.saveLen_setF_noSpace hc, if_neg (Nat.not_lt.2 room)]

/-- A context just told to suspend. -/
theorem State.ctxState_suspending (hc : c < 4096) :
    (s.setFs c [(F.CTX_STAT_STATE, ctxSuspending), (F.CTX_CTL_PREEMPT, 1)]).ctxState c = ctxSuspending := by
  rw [State.setFs_cons, State.setFs_cons, State.setFs_nil, State.ctxState,
    State.f_setF_of_ne _ _ (addr_ne_ctxStat (r := .ctxCtl) (by decide) hc hc).symm]
  exact s.f_setF_self F.CTX_STAT_STATE c _ (by decide) (by decide)

/-- A SUSPENDED context of which nothing is saved is ENABLED again without a read of its save area. -/
theorem State.resume_enables (hc : c < 4096) (suspended : s.ctxState c = ctxSuspended)
    (unsaved : (s.ctx c).reqs.filter (·.saved) = []) : s.resume src c =
      ((s.setF F.CTX_CTL_RESUME c 0).setF F.CTX_STAT_STATE c ctxEnabled).setCtx c fun x =>
        { x with release := false, progress := s.now, reqs := x.reqs.map fun r => { r with saved := false } } := by
  have state : (s.setF F.CTX_CTL_RESUME c 0).ctxState c = ctxSuspended :=
    (s.f_setF_of_ne 0 (addr_ne_ctxStat (r := .ctxCtl) (by decide) hc hc).symm).trans suspended
  have now : (s.setF F.CTX_CTL_RESUME c 0).now = s.now :=
    s.f_setF_of_ne 0 (Reg.addr_ne (r := .clkTime) (by decide) (by decide) hc)
  unfold State.resume
  simp only [state, ne_eq, not_true, if_false, State.setF_ctx, unsaved, if_true, now]
  rfl

theorem State.ctxReset_begins (faulted : s.ctxState c = ctxFaulted) :
    s.ctxReset c = ((s.setF F.CTX_CTL_RESET c 1).abandonOwned c).resetDue c := if_pos faulted

/-! Translations dropped (R347, R366) -/

theorem State.tlbInval_mem (v : Nat) : (s.tlbInval v).mem = s.mem := rfl
theorem State.tlbInval_tlb (v : Nat) :
    (s.tlbInval v).tlb = if bit v 12 then [] else s.tlb.filter fun x => x.ctx != bits v 11 0 := rfl

/-! A doorbell in order (R343, R366) -/

/-- The slots of the completion ring that a doorbell's head gives back. -/
def State.givenBack (c v : Nat) : Nat := (bits v 31 16 + s.cqDepth c - (s.ctx c).cqHead) % s.cqDepth c

/-- The rings of a context after a doorbell that is in order. -/
def CtxSt.ring (x : CtxSt) (v given : Nat) : CtxSt :=
  { x with sqTail := if bit v 32 then bits v 15 0 else x.sqTail
           cqHead := if bit v 33 then bits v 31 16 else x.cqHead
           cqUsed := if bit v 33 then x.cqUsed - given else x.cqUsed }

theorem State.doorbell_rings {v : Nat} (notDisabled : s.ctxState c ≠ ctxDisabled) (notFaulted : s.ctxState c ≠ ctxFaulted)
    (tail : bit v 32 = true → bits v 15 0 < s.sqDepth c)
    (head : bit v 33 = true → bits v 31 16 < s.cqDepth c ∧ s.givenBack c v ≤ (s.ctx c).cqUsed) :
    s.doorbell src c v = s.setCtx c fun x => x.ring v (s.givenBack c v) := by
  have inRange : ¬ ((bit v 32 = true ∧ s.sqDepth c ≤ bits v 15 0) ∨
      (bit v 33 = true ∧ (s.cqDepth c ≤ bits v 31 16 ∨ (s.ctx c).cqUsed < s.givenBack c v))) := by
    rintro (⟨set, past⟩ | ⟨set, past⟩)
    · exact Nat.not_le.2 (tail set) past
    · obtain ⟨inRing, used⟩ := head set
      omega
  rw [State.doorbell, if_neg (not_or.2 ⟨notDisabled, notFaulted⟩)]
  exact if_neg inRange

end

/-- Settles O19: each row writes its one register, and the state of the context lets the action that it starts go through. -/
theorem contextRowsTakeEffect : Obligations.ContextRowsTakeEffect := by
  unfold Obligations.ContextRowsTakeEffect
  intro s src c v
  have hc : c.toNat < 4096 := c.isLt
  refine ⟨fun h => ⟨fun on was may => ?_, fun off was => ?_⟩, fun h => ?_, fun h => ?_, fun h => ?_, fun h faulted => ?_, fun h => ?_,
    fun h => ?_⟩
  · refine ⟨?_, State.enableCtx_ctxState _, State.enableCtx_reqs _, ?_⟩
    · rw [exec_contextEnable, execContextEnable, row_takes s h hc rfl, written_ctxCfg, State.ctxWritten_enables _ on was may]
    · rw [State.enableCtx_mem, State.rowWrite_mem]
  · rw [exec_contextDisable, execContextDisable, row_takes s h hc rfl, written_ctxCfg, State.ctxWritten_disables _ off was]
  · intro u enabled stays room
    refine ⟨_, ?_, State.ctxState_suspending (u.setF F.CTX_STAT_NO_SPACE c.toNat 0) hc, ?_, ?_⟩
    · rw [exec_preempt, execPreempt, row_takes s h hc rfl, written_ctxCtl, State.ctxCtl_preempt,
        State.preempt_suspends _ hc enabled stays room]
    · rw [State.setFs_mem, State.setF_mem, State.rowWrite_mem]
    · rw [State.setFs_ctxs, State.setF_ctxs, State.rowWrite_ctxs]
  · intro u suspended unsaved
    have resumed := u.resume_enables (src := src) hc suspended unsaved
    refine ⟨u.resume src c.toNat, ?_, ?_, ?_⟩
    · rw [exec_resume, execResume, row_takes s h hc rfl, written_ctxCtl, State.ctxCtl_resume]
    · rw [resumed, State.ctxState, State.setCtx_f]
      exact State.f_setF_self _ F.CTX_STAT_STATE _ _ (by decide) (by decide)
    · rw [resumed, State.setCtx_mem, State.setF_mem, State.setF_mem, State.rowWrite_mem]
  · rw [exec_abort, execAbort, row_takes s h hc rfl, written_ctxCtl, State.ctxCtl_abort]
  · rw [exec_contextReset, execContextReset, row_takes s h hc rfl, written_ctxCtl, State.ctxCtl_reset,
      State.ctxReset_begins _ faulted]
  · intro u notDisabled notFaulted tail given head
    refine ⟨u.setCtx c.toNat fun x => x.ring v.toNat given, ?_, ?_, ?_⟩
    · rw [exec_doorbell, execDoorbell, row_takes s h hc rfl, written_ctxDb, Nat.mod_eq_of_lt v.isLt,
        State.doorbell_rings _ notDisabled notFaulted tail head]
      rfl
    · rw [State.setCtx_mem, State.rowWrite_mem]
    · rw [State.setCtx_ctx_self]
      exact ⟨rfl, rfl, rfl, rfl⟩
  · refine ⟨(s.rowWrite .ctxTlbInval 0 v.toNat).tlbInval v.toNat, ?_, ?_, ?_⟩
    · rw [exec_ctxTlbInval, execCtxTlbInval, row_takes s h (by decide) rfl, written_ctxTlbInval, if_pos rfl, Nat.mod_eq_of_lt v.isLt]
    · rw [State.tlbInval_mem, State.rowWrite_mem]
    · rw [State.tlbInval_tlb, State.rowWrite_tlb]

end Sys2Proof.Machine
end

section
/-! PROOFS. Barrier objects: SYNC commands past their checks, an object just armed, and an episode completed for nobody (R357 to R359,
R361, R362, R423). -/
namespace Sys2Proof.Machine

/-! The registers of an object lie apart (R370) -/

theorem syncCnt_addr_ne_syncObj (i : Nat) : Reg.syncCnt.addr i ≠ Reg.syncObj.addr i := by
  simp [Reg.addr, Reg.place]

theorem syncObj_addr_ne_syncStat (i : Nat) : Reg.syncObj.addr i ≠ Reg.syncStat.addr (i / 1024) := by
  simp only [Reg.addr, Reg.place]
  omega

theorem syncCnt_addr_ne_syncStat (i : Nat) : Reg.syncCnt.addr i ≠ Reg.syncStat.addr (i / 1024) := by
  simp only [Reg.addr, Reg.place]
  omega

section
variable (s : State)

/-- Fields of another register read as before when several fields are set. -/
theorem State.f_setFs_of_ne {i j : Nat} {l : List (Fld × Nat)} {y : Fld} (h : ∀ x ∈ l, y.reg.addr j ≠ x.1.reg.addr i) :
    (s.setFs i l).f y j = s.f y j := by
  unfold State.f
  rw [State.reg_setFs_of_ne s _ _ _ _ h]

/-! The number of an episode (R359) -/

@[simp] theorem State.setEpisode_mem (i e : Nat) : (s.setEpisode i e).mem = s.mem := rfl
@[simp] theorem State.setEpisode_f (i e : Nat) (x : Fld) (j : Nat) : (s.setEpisode i e).f x j = s.f x j := State.f_of_regs rfl x j
@[simp] theorem State.setEpisode_episode (i e : Nat) : (s.setEpisode i e).episode i = e := SMap.get_put_self ..

theorem State.episode_of_episodes {t : State} (h : t.episodes = s.episodes) (i : Nat) : t.episode i = s.episode i := by
  rw [State.episode, h, State.episode]

/-- The release of an object's waiters ends requests, and no episode. -/
theorem State.dropWaiters_episodes (i : Nat) (k : Code) : (s.dropWaiters i k).episodes = s.episodes := by
  have released : ∀ l : List (Nat × Nat × Nat × SyncKind),
      (l.foldl (fun s (_, c, q, _) => State.finishCode s c q k) s).episodes = s.episodes := by
    intro l
    induction l generalizing s with
    | nil => rfl
    | cons w l ih => rw [List.foldl_cons, ih, State.finishCode_episodes]
  exact released _

/-! An object just armed (R358, R362) -/

/-- The fields of SYNC_OBJ of an object armed for n arrivals by a context. -/
def State.armedFields (c n : Nat) : List (Fld × Nat) :=
  [(F.SYNC_OBJ_STATE, syncArmed), (F.SYNC_OBJ_COUNT, n), (F.SYNC_OBJ_ARRIVED, 0), (F.SYNC_OBJ_OWNER, c), (F.SYNC_OBJ_TENANT, s.tenant c)]

/-- The registers of an object just armed. -/
def State.armed (i c n : Nat) : State :=
  (s.setFs i (s.armedFields c n)).setFs i [(F.SYNC_CNT_PRODUCED, 0), (F.SYNC_CNT_CONSUMED, 0)]

theorem State.armed_episode (i c n : Nat) : (s.armed i c n).episode i = s.episode i :=
  s.episode_of_episodes (by rw [State.armed, State.setFs_episodes, State.setFs_episodes]) i

/-- An abandoned object that is armed again goes on with the next episode. -/
theorem State.armSync_eq (i c n : Nat) : s.armSync i c n =
    if s.f F.SYNC_OBJ_STATE i = syncAbandoned then (s.armed i c n).setEpisode i (s.episode i + 1) else s.armed i c n := by
  rw [← s.armed_episode i c n]
  unfold State.armSync
  simp only [decide_eq_true_eq]
  rfl

theorem State.armSync_f (i c n : Nat) (x : Fld) : (s.armSync i c n).f x i = (s.armed i c n).f x i := by
  rw [State.armSync_eq]
  split
  · exact State.setEpisode_f ..
  · rfl

theorem State.armSync_mem (i c n : Nat) : (s.armSync i c n).mem = s.mem := by
  have armed : (s.armed i c n).mem = s.mem := by rw [State.armed, State.setFs_mem, State.setFs_mem]
  rw [State.armSync_eq]
  split
  · rw [State.setEpisode_mem, armed]
  · exact armed

theorem State.armSync_episode (i c n : Nat) : (s.armSync i c n).episode i =
    if s.f F.SYNC_OBJ_STATE i = syncAbandoned then s.episode i + 1 else s.episode i := by
  rw [State.armSync_eq]
  split
  · exact State.setEpisode_episode ..
  · exact s.armed_episode i c n

theorem State.armSync_obj {i c n : Nat} {x : Fld} {v : Nat} (m : (x, v) ∈ s.armedFields c n) :
    (s.armSync i c n).f x i = v % 2 ^ (x.hi + 1 - x.lo) := by
  have regs : ∀ y ∈ s.armedFields c n, y.1.reg = .syncObj := by
    simp [State.armedFields, F.SYNC_OBJ_STATE, F.SYNC_OBJ_COUNT, F.SYNC_OBJ_ARRIVED, F.SYNC_OBJ_OWNER, F.SYNC_OBJ_TENANT]
  rw [State.armSync_f, State.armed, State.f_setFs_of_ne]
  · exact s.f_setFs_of_mem i .syncObj regs rfl m
  · rw [regs _ m]
    simpa [F.SYNC_CNT_PRODUCED, F.SYNC_CNT_CONSUMED] using (syncCnt_addr_ne_syncObj i).symm

theorem State.armSync_cnt {i c n : Nat} {x : Fld} (m : (x, 0) ∈ [(F.SYNC_CNT_PRODUCED, 0), (F.SYNC_CNT_CONSUMED, 0)]) :
    (s.armSync i c n).f x i = 0 := by
  rw [State.armSync_f, State.armed,
    State.f_setFs_of_mem _ i .syncCnt (by simp [F.SYNC_CNT_PRODUCED, F.SYNC_CNT_CONSUMED]) rfl m, Nat.zero_mod]

/-! An episode completed for nobody (R359, R361) -/

theorem State.completeEpisode_quiet {i : Nat} (quiet : s.waiters i = []) : s.completeEpisode i =
    (((s.setF F.SYNC_OBJ_ARRIVED i 0).setFs i [(F.SYNC_CNT_PRODUCED, s.syncDiff i), (F.SYNC_CNT_CONSUMED, 0)]).setEpisode i
      (s.episode i + 1)).addF F.SYNC_STAT_EPISODES (i / 1024) 1 := by
  unfold State.completeEpisode
  simp only [quiet]
  rfl

/-- The count of episodes lies apart from the fields of an object. -/
theorem State.completeEpisode_f {i : Nat} (quiet : s.waiters i = []) {x : Fld} (apart : x.reg.addr i ≠ Reg.syncStat.addr (i / 1024)) :
    (s.completeEpisode i).f x i =
      ((s.setF F.SYNC_OBJ_ARRIVED i 0).setFs i [(F.SYNC_CNT_PRODUCED, s.syncDiff i), (F.SYNC_CNT_CONSUMED, 0)]).f x i := by
  rw [s.completeEpisode_quiet quiet, State.addF, State.f_setF_of_ne _ _ apart, State.setEpisode_f]

theorem State.completeEpisode_arrived {i : Nat} (quiet : s.waiters i = []) : (s.completeEpisode i).f F.SYNC_OBJ_ARRIVED i = 0 := by
  rw [s.completeEpisode_f quiet (syncObj_addr_ne_syncStat i), State.f_setFs_of_ne _ (by
    simpa [F.SYNC_OBJ_ARRIVED, F.SYNC_CNT_PRODUCED, F.SYNC_CNT_CONSUMED] using (syncCnt_addr_ne_syncObj i).symm)]
  exact s.f_setF_self F.SYNC_OBJ_ARRIVED i 0 (by decide) (by decide)

theorem State.completeEpisode_consumed {i : Nat} (quiet : s.waiters i = []) : (s.completeEpisode i).f F.SYNC_CNT_CONSUMED i = 0 := by
  rw [s.completeEpisode_f quiet (syncCnt_addr_ne_syncStat i)]
  exact State.f_setFs_of_mem _ i .syncCnt (by simp [F.SYNC_CNT_PRODUCED, F.SYNC_CNT_CONSUMED]) rfl
    (List.mem_cons_of_mem _ List.mem_cons_self)

theorem State.completeEpisode_episode {i : Nat} (quiet : s.waiters i = []) : (s.completeEpisode i).episode i = s.episode i + 1 := by
  rw [s.completeEpisode_quiet quiet, State.episode_of_episodes _ (State.addF_episodes ..), State.setEpisode_episode]

theorem State.completeEpisode_mem {i : Nat} (quiet : s.waiters i = []) : (s.completeEpisode i).mem = s.mem := by
  rw [s.completeEpisode_quiet quiet, State.addF_mem, State.setEpisode_mem, State.setFs_mem, State.setF_mem]

/-! The checks of a SYNC command (R358, R362) -/

theorem State.syncCheck_unarmed {c i : Nat} (unarmed : s.f F.SYNC_OBJ_STATE i = syncUnarmed) :
    s.syncCheck c i = some .invalidArg := if_pos unarmed

/-- Each code with which a check of the object ends a command is an error. -/
theorem State.syncCheck_bad {c i : Nat} {k : Code} (check : s.syncCheck c i = some k) : Code.ok.worst k = k ∧ k.bad = true := by
  unfold State.syncCheck at check
  dsimp only at check
  split at check
  · cases check; decide
  · split at check
    · cases check; decide
    · split at check
      · cases check; decide
      · cases check

/-- The object on which a SYNC command of a context acts. -/
def State.syncObject (c : Nat) (r : Req) : Nat := 1024 * s.partOf c + opN r.desc 2 2 % 1024

section
variable {c q op : Nat} {r : Req} {f : State → Nat → Nat → Nat → Req → State}

/-- A command that the check of its object refuses ends with the code of the check. -/
theorem syncRun_refused {k : Code} (runs : Runs s c q op r) (fields : syncFieldsOk (s.accept c r).desc op = true)
    (check : (s.begin c q r).syncCheck c ((s.begin c q r).syncObject c (s.accept c r)) = some k) :
    syncRun op f c q s = (s.begin c q r).finishCode c q k := by
  obtain ⟨worst, bad⟩ := State.syncCheck_bad _ check
  refine runCmd_gives s runs ?_ (runs.finishCode_needs s k)
  unfold State.syncObject at check
  simp only [fields, check, if_true, Option.getD_some, worst, bad]

/-- A command that passes its checks has its own effect. -/
theorem syncRun_acts {t : State} (runs : Runs s c q op r) (fields : syncFieldsOk (s.accept c r).desc op = true)
    (check : (s.begin c q r).syncCheck c ((s.begin c q r).syncObject c (s.accept c r)) = none)
    (effect : f (s.begin c q r) ((s.begin c q r).syncObject c (s.accept c r)) c q (s.accept c r) = t) (needs : t.pool.needs = []) :
    syncRun op f c q s = t := by
  refine runCmd_gives s runs ?_ needs
  unfold State.syncObject at check effect
  simp only [fields, check, if_true, Option.getD_none, Code.worst_self, Code.ok_bad, Bool.false_eq_true, if_false, effect]

/-- A command that passes its checks runs, up to the effect that has been worked out. -/
theorem exec_syncRun {cmd : Instr} {t : State} (shape : exec cmd s = gated s (syncRun op f c q)) (runs : Runs s c q op r)
    (fields : syncFieldsOk (s.accept c r).desc op = true)
    (check : (s.begin c q r).syncCheck c ((s.begin c q r).syncObject c (s.accept c r)) = none)
    (effect : f (s.begin c q r) ((s.begin c q r).syncObject c (s.accept c r)) c q (s.accept c r) = t) (needs : t.pool.needs = []) :
    exec cmd s = .next (s.after t) := by
  rw [shape, gated_live _ _ runs.live, syncRun_acts s runs fields check effect needs]

/-- A command whose own effect is to end with a code. -/
theorem exec_syncRun_ends {cmd : Instr} {k : Code} (shape : exec cmd s = gated s (syncRun op f c q)) (runs : Runs s c q op r)
    (fields : syncFieldsOk (s.accept c r).desc op = true)
    (check : (s.begin c q r).syncCheck c ((s.begin c q r).syncObject c (s.accept c r)) = none)
    (ends : f (s.begin c q r) ((s.begin c q r).syncObject c (s.accept c r)) c q (s.accept c r) = (s.begin c q r).finishCode c q k) :
    exec cmd s = .next (s.after ((s.begin c q r).finishCode c q k)) :=
  exec_syncRun s shape runs fields check ends (runs.finishCode_needs s k)

end

/-! The own effects of SYNC_WAIT, SYNC_DISARM, SYNC_POST and SYNC_TAKE on an ARMED object of the tenant (R358, R359, R361) -/

/-- The episode for which a SYNC_WAIT asks: the current one where it names none. -/
def State.askedEpisode (i : Nat) (r : Req) : Nat := if opN r.desc 8 8 = 0 then s.episode i else opN r.desc 8 8

def syncWaitEffect (s : State) (i c q : Nat) (r : Req) : State :=
  if s.askedEpisode i r < s.episode i then s.endSync i c q (s.f F.SYNC_OBJ_COUNT i) (s.askedEpisode i r)
  else match s.syncTreeCheck c i with
    | some code => s.finishCode c q code
    | none => (s.bindSync i c q).syncWait i c q (.wait (s.askedEpisode i r))

def syncDisarmEffect (s : State) (i c q : Nat) (_ : Req) : State :=
  if s.f F.SYNC_OBJ_OWNER i ≠ c then s.finishCode c q .denied
  else ((s.dropWaiters i .aborted).setF F.SYNC_OBJ_STATE i syncUnarmed).endSync i c q (s.f F.SYNC_OBJ_ARRIVED i) (s.episode i)

/-- An object with more produced, after the command that produced it has ended. -/
def State.posted (i c q p : Nat) : State :=
  (s.setF F.SYNC_CNT_PRODUCED i p).endSync i c q (s.f F.SYNC_OBJ_ARRIVED i) (s.episode i)

def syncPostEffect (s : State) (i c q : Nat) (r : Req) : State :=
  if 2 ^ 32 ≤ s.f F.SYNC_CNT_PRODUCED i + opN r.desc 4 4 then s.finishCode c q .quota
  else
    let u := s.posted i c q (s.f F.SYNC_CNT_PRODUCED i + opN r.desc 4 4)
    u.serveTakes i (u.waiters i)

def syncTakeEffect (s : State) (i c q : Nat) (r : Req) : State :=
  if opN r.desc 4 4 = 0 then s.endSync i c q (s.f F.SYNC_OBJ_ARRIVED i) (s.episode i)
  else
    let u := s.syncWait i c q (.take (opN r.desc 4 4))
    u.serveTakes i (u.waiters i)

section
variable {c : BitVec 12} {q : BitVec 16}

theorem syncArrive_effect : exec (.syncArrive c q) s = gated s (syncRun 0x51 syncArrive c.toNat q.toNat) := rfl
theorem syncWait_effect : exec (.syncWait c q) s = gated s (syncRun 0x52 syncWaitEffect c.toNat q.toNat) := rfl
theorem syncDisarm_effect : exec (.syncDisarm c q) s = gated s (syncRun 0x53 syncDisarmEffect c.toNat q.toNat) := rfl
theorem syncPost_effect : exec (.syncPost c q) s = gated s (syncRun 0x54 syncPostEffect c.toNat q.toNat) := rfl
theorem syncTake_effect : exec (.syncTake c q) s = gated s (syncRun 0x55 syncTakeEffect c.toNat q.toNat) := rfl

/-- The five commands on an object that is armed already differ in their effects alone. -/
theorem syncRun_of_mem {cmd : Instr} {op : Nat} (m : (cmd, op) ∈ [(Instr.syncArrive c q, 0x51), (.syncWait c q, 0x52),
    (.syncDisarm c q, 0x53), (.syncPost c q, 0x54), (.syncTake c q, 0x55)]) :
    ∃ f, exec cmd s = gated s (syncRun op f c.toNat q.toNat) := by
  simp only [List.mem_cons, Prod.mk.injEq, List.not_mem_nil, or_false] at m
  rcases m with ⟨rfl, rfl⟩ | ⟨rfl, rfl⟩ | ⟨rfl, rfl⟩ | ⟨rfl, rfl⟩ | ⟨rfl, rfl⟩
  · exact ⟨_, syncArrive_effect s⟩
  · exact ⟨_, syncWait_effect s⟩
  · exact ⟨_, syncDisarm_effect s⟩
  · exact ⟨_, syncPost_effect s⟩
  · exact ⟨_, syncTake_effect s⟩

end

section
variable {i c q : Nat} {r : Req}

/-- A wait for an earlier episode needs no tree; one for the current or a later episode waits where the tree reaches the root. -/
theorem syncWaitEffect_waits (way : s.askedEpisode i r < s.episode i ∨ s.syncTreeCheck c i = none) :
    syncWaitEffect s i c q r =
      if s.askedEpisode i r < s.episode i then s.endSync i c q (s.f F.SYNC_OBJ_COUNT i) (s.askedEpisode i r)
      else (s.bindSync i c q).syncWait i c q (.wait (s.askedEpisode i r)) := by
  unfold syncWaitEffect
  split
  · rfl
  · next later => rw [way.resolve_left later]

theorem syncWaitEffect_refused {k : Code} (later : s.episode i ≤ s.askedEpisode i r) (tree : s.syncTreeCheck c i = some k) :
    syncWaitEffect s i c q r = s.finishCode c q k := by
  rw [syncWaitEffect, if_neg (Nat.not_lt.2 later), tree]

theorem syncDisarmEffect_denied (other : s.f F.SYNC_OBJ_OWNER i ≠ c) : syncDisarmEffect s i c q r = s.finishCode c q .denied :=
  if_pos other

theorem syncDisarmEffect_disarms (own : s.f F.SYNC_OBJ_OWNER i = c) : syncDisarmEffect s i c q r =
    (let t := (s.dropWaiters i .aborted).setF F.SYNC_OBJ_STATE i syncUnarmed
     t.endSync i c q (s.f F.SYNC_OBJ_ARRIVED i) (t.episode i)) := by
  have episode : ((s.dropWaiters i .aborted).setF F.SYNC_OBJ_STATE i syncUnarmed).episode i = s.episode i :=
    s.episode_of_episodes (by rw [State.setF_episodes, State.dropWaiters_episodes]) i
  rw [syncDisarmEffect, if_neg (not_not.2 own)]
  dsimp only
  rw [episode]

theorem syncPostEffect_quota (past : 2 ^ 32 ≤ s.f F.SYNC_CNT_PRODUCED i + opN r.desc 4 4) :
    syncPostEffect s i c q r = s.finishCode c q .quota := if_pos past

/-- The count of what is produced lies apart from the arrivals and the episode of its object. -/
theorem State.posted_eq (p : Nat) : s.posted i c q p =
    (let t := s.setF F.SYNC_CNT_PRODUCED i p
     t.endSync i c q (t.f F.SYNC_OBJ_ARRIVED i) (t.episode i)) := by
  dsimp only
  have arrived : (s.setF F.SYNC_CNT_PRODUCED i p).f F.SYNC_OBJ_ARRIVED i = s.f F.SYNC_OBJ_ARRIVED i :=
    s.f_setF_of_ne p (syncCnt_addr_ne_syncObj i).symm
  rw [arrived, s.episode_of_episodes (s.setF_episodes ..), State.posted]

theorem syncPostEffect_posts (fits : s.f F.SYNC_CNT_PRODUCED i + opN r.desc 4 4 < 2 ^ 32) : syncPostEffect s i c q r =
    (let u := s.posted i c q (s.f F.SYNC_CNT_PRODUCED i + opN r.desc 4 4)
     u.serveTakes i (u.waiters i)) := if_neg (Nat.not_le.2 fits)

theorem syncTakeEffect_takes (nonzero : opN r.desc 4 4 ≠ 0) : syncTakeEffect s i c q r =
    (let u := s.syncWait i c q (.take (opN r.desc 4 4))
     u.serveTakes i (u.waiters i)) := if_neg nonzero

end

end

/-- SYNC_ARM of an object that its tenant may arm, for no more arrivals than its image allows. -/
theorem exec_syncArm_arms {s : State} {c : BitVec 12} {q : BitVec 16} {r₀ : Req} (runs : Runs s c.toNat q.toNat 0x50 r₀) :
    let u := s.begin c.toNat q.toNat r₀
    let r := s.accept c.toNat r₀
    let i := u.syncObject c.toNat r
    let t := u.armSync i c.toNat (opN r.desc 4 4)
    let w := t.endSync i c.toNat q.toNat 0 (t.episode i)
    syncFieldsOk r.desc 0x50 = true → opN r.desc 4 4 ≠ 0 → (∃ b, u.barrier i = some b ∧ opN r.desc 4 4 ≤ b.count) →
    u.f F.SYNC_OBJ_STATE i ≠ syncArmed → (u.f F.SYNC_OBJ_STATE i = syncUnarmed ∨ u.f F.SYNC_OBJ_TENANT i = u.tenant c.toNat) →
    u.syncTreeCheck c.toNat i = none → w.pool.needs = [] → exec (.syncArm c q) s = .next (s.after w) := by
  intro u r i t w fields nonzero ⟨b, image, most⟩ notArmed own tree needs
  have free : ¬ (u.f F.SYNC_OBJ_STATE i ≠ syncUnarmed ∧ u.f F.SYNC_OBJ_TENANT i ≠ u.tenant c.toNat) := by
    rintro ⟨armed, other⟩
    exact own.elim armed other
  have args : (!syncFieldsOk r.desc 0x50 || opN r.desc 4 4 == 0 || decide (b.count < opN r.desc 4 4) ||
      u.f F.SYNC_OBJ_STATE i == syncArmed) = false := by
    simp [fields, nonzero, most, notArmed]
  rw [exec_syncArm, execSyncArm, gated_live _ _ runs.live, runCmd_gives s runs ?_ needs]
  dsimp only [i, State.syncObject, u, r] at args free image tree
  simp only [image, args, if_neg free, tree, Option.getD_none, Code.worst_self, Code.ok_bad, Bool.false_eq_true, if_false]
  rfl

/-- Settles O47: each command passes its checks, or ends with the code of the check that it fails, and what it makes of its object
is read from the fields that it sets. -/
theorem syncCommandsRun : Obligations.SyncCommandsRun := by
  unfold Obligations.SyncCommandsRun
  intro s₀ c q r₀ c' q' s r i n
  refine ⟨fun runs => exec_syncArm_arms runs, ?_, fun check => ⟨?_, ?_, ?_, ?_, ?_⟩, s.syncCheck_unarmed, ?_, fun quiet => ?_⟩
  · intro cmd op m runs fields k check
    obtain ⟨f, shape⟩ := syncRun_of_mem s₀ m
    rw [shape, gated_live _ _ runs.live, syncRun_refused s₀ runs fields check]
  · intro runs fields tree needs
    exact exec_syncRun s₀ (syncArrive_effect s₀) runs fields check rfl needs
  · intro runs fields ep w
    refine ⟨fun way needs => ?_, fun k later tree => ?_⟩
    · exact exec_syncRun s₀ (syncWait_effect s₀) runs fields check (syncWaitEffect_waits s way) needs
    · exact exec_syncRun_ends s₀ (syncWait_effect s₀) runs fields check (syncWaitEffect_refused s later tree)
  · intro runs fields
    refine ⟨fun other => ?_, fun own => ?_⟩
    · exact exec_syncRun_ends s₀ (syncDisarm_effect s₀) runs fields check (syncDisarmEffect_denied s other)
    · intro t w needs
      exact exec_syncRun s₀ (syncDisarm_effect s₀) runs fields check (syncDisarmEffect_disarms s own) needs
  · intro runs fields p
    refine ⟨fun past => ?_, fun fits => ?_⟩
    · exact exec_syncRun_ends s₀ (syncPost_effect s₀) runs fields check (syncPostEffect_quota s past)
    · intro t u w needs
      have posted : s.posted i c' q' p = u := s.posted_eq p
      refine ⟨exec_syncRun s₀ (syncPost_effect s₀) runs fields check ((syncPostEffect_posts s fits).trans ?_) needs, ?_⟩
      · dsimp only
        rw [posted]
      · exact (s.f_setF_self F.SYNC_CNT_PRODUCED i p (by decide) (by decide)).trans (Nat.mod_eq_of_lt fits)
  · intro runs fields nonzero t w needs
    exact exec_syncRun s₀ (syncTake_effect s₀) runs fields check (syncTakeEffect_takes s nonzero) needs
  · have obj {x : Fld} {v : Nat} (m : (x, v) ∈ s.armedFields c' n) := s.armSync_obj (i := i) m
    refine ⟨obj (x := F.SYNC_OBJ_STATE) (v := syncArmed) ?_, obj (x := F.SYNC_OBJ_COUNT) (v := n) ?_,
      obj (x := F.SYNC_OBJ_ARRIVED) (v := 0) ?_, obj (x := F.SYNC_OBJ_OWNER) (v := c') ?_, s.armSync_cnt ?_, s.armSync_cnt ?_,
      s.armSync_mem i c' n, s.armSync_episode i c' n⟩ <;> simp [State.armedFields]
  · exact ⟨s.completeEpisode_arrived quiet, s.completeEpisode_consumed quiet, s.completeEpisode_episode quiet,
      s.completeEpisode_mem quiet⟩

end Sys2Proof.Machine
end

section
/-! PROOFS. Peers, ports, queues, shapers, policers and compositions of the fabric, by register writes (R371, R379, R383 to R385, R389,
R393, R397, R401, R403, R409). -/
namespace Sys2Proof.Machine

section
variable (s : State) {src : Src}

/-! FAB_PEER_CTL (R403): NODE with ADMIT or with LOST -/

theorem State.peerCtl_admits {n : Nat} (hn : n < 2 ^ 16) : s.peerCtl ((n + 2 ^ 16) % 2 ^ 64) = s.startAdmit n := by
  have node : bits ((n + 2 ^ 16) % 2 ^ 64) 15 0 = n := by simp only [bits]; omega
  have lost : bit ((n + 2 ^ 16) % 2 ^ 64) 17 = false := by
    simp only [bit, Nat.testBit_eq_decide_div_mod_eq, decide_eq_false_iff_not]; omega
  have asked : bit ((n + 2 ^ 16) % 2 ^ 64) 16 = true := by
    simp only [bit, Nat.testBit_eq_decide_div_mod_eq, decide_eq_true_eq]; omega
  simp only [State.peerCtl, node, lost, asked, Bool.false_eq_true, if_false, if_true]

theorem State.peerCtl_loses {n : Nat} (hn : n < 2 ^ 16) (valid : s.peerValid n = true) :
    s.peerCtl ((n + 2 ^ 17) % 2 ^ 64) = s.losePeer n := by
  have node : bits ((n + 2 ^ 17) % 2 ^ 64) 15 0 = n := by simp only [bits]; omega
  have lost : bit ((n + 2 ^ 17) % 2 ^ 64) 17 = true := by
    simp only [bit, Nat.testBit_eq_decide_div_mod_eq, decide_eq_true_eq]; omega
  simp only [State.peerCtl, node, lost, valid, if_true]

theorem State.silentPeer_lost {n : Nat} (heard : SMap.get 0 s.fab.heard n ≠ 0) (late : SMap.get 0 s.fab.heard n ≤ s.now)
    (other : n ≠ s.self) (admitted : s.peerOk n = true) : s.silentPeer n = s.losePeer n :=
  if_pos ⟨heard, late, other, admitted⟩

/-! FAB_PORT_CFG (R401) -/

theorem State.fabPortWritten_enables {p old : Nat} (on : s.on F.FAB_PORT_CFG_ENABLE p = true) (was : old.testBit 0 = false) :
    s.fabPortWritten src p old = (s.startPort src p).fabRefCheck p := by
  simp only [State.fabPortWritten, on, was, if_true, Bool.false_eq_true, if_false]

/-! FAB_COMP_CTL (R409) -/

/-- No bit of a slot reads 1. -/
theorem bit_of_bits_zero {old b : Nat} (idle : bits old 2 0 = 0) (hb : b < 3) : bit old b = false := by
  have := congrArg (Nat.testBit · b) idle
  simpa [testBit_bits, bit, hb] using this

/-- A write of one bit of a slot that no command runs on sets that bit. -/
theorem State.compCtl_sets {n old w b : Nat} (idle : bits old 2 0 = 0) (one : bits w 2 0 ≠ 0) (hb : b < 3)
    (lowest : (if bit w 0 then 0 else if bit w 1 then 1 else 2) = b) :
    s.compCtl src n old w =
      (let s := s.setReg .fabCompCtl n (2 ^ b)
       if b = 0 then s.install n else if b = 1 then s.removeComp n else s.compReset n) := by
  subst lowest
  rw [State.compCtl]
  simp only [idle, bit_of_bits_zero idle hb, if_neg one, ne_eq, not_true, false_and, if_false, Bool.false_eq_true, Nat.zero_or]

end

/-- Settles O20: each row writes its one register, and the bits that it carries name what starts. -/
theorem fabricRowsTakeEffect : Obligations.FabricRowsTakeEffect := by
  unfold Obligations.FabricRowsTakeEffect
  intro s src n p q k m v
  refine ⟨fun h => ?_, fun h valid => ?_, fun live heard late other admitted => ?_, fun h => ?_, fun h => ?_, fun h => ?_, fun h => ?_,
    fun idle => ⟨fun h => ?_, fun h => ?_, fun h => ?_⟩⟩
  · rw [exec_admitPeer, execAdmitPeer, row_takes s h (by decide) rfl, written_fabPeerCtl, if_pos rfl, State.peerCtl_admits _ n.isLt]
  · rw [exec_lost, execLost]
    dsimp only
    rw [row_takes s h (by decide) rfl, written_fabPeerCtl, if_pos rfl, State.peerCtl_loses _ n.isLt valid]
  · rw [exec_lost, execLost, gated_live _ _ live]
    dsimp only
    rw [s.silentPeer_lost heard late other admitted]
  · intro u on was
    rw [exec_fabricPortEnable, execFabricPortEnable, row_takes s h p.isLt rfl, written_fabPortCfg, State.fabPortWritten_enables _ on was]
  · rw [exec_fabQueueWrite, execFabQueueWrite, row_takes s h q.isLt rfl, written_fabQueue]
  · rw [exec_fabShapeWrite, execFabShapeWrite, row_takes s h k.isLt rfl, written_fabShape]
  · rw [exec_fabPoliceWrite, execFabPoliceWrite, row_takes s h k.isLt rfl, written_fabPolice]
  · rw [exec_install, execInstall, row_takes s h m.isLt rfl, written_fabCompCtl,
      State.compCtl_sets (b := 0) _ idle (by decide) (by decide) (by decide)]
    rfl
  · rw [exec_remove, execRemove, row_takes s h m.isLt rfl, written_fabCompCtl,
      State.compCtl_sets (b := 1) _ idle (by decide) (by decide) (by decide)]
    rfl
  · rw [exec_compositionReset, execCompositionReset, row_takes s h m.isLt rfl, written_fabCompCtl,
      State.compCtl_sets (b := 2) _ idle (by decide) (by decide) (by decide)]
    rfl

end Sys2Proof.Machine
end

section
/-! PROOFS. Messages of compositions: where their epoch and rank send them, the answers that end or repeat a sub-request, and global
operations on the tree (R377, R390, R391, R395 to R398). -/
namespace Sys2Proof.Machine

section
variable (s : State)

/-! Routing (R390) -/

section
variable {comp e r k : Nat} {m : CompMap}

theorem State.routeMsg_unplaced (empty : s.slotOfComp comp = none) : s.routeMsg comp e r = .hold := by
  rw [State.routeMsg, empty]

theorem State.routeMsg_placed (slot : s.slotOfComp comp = some k) (map : (s.comp k).map = some m) :
    s.routeMsg comp e r =
      if e = m.epoch ∨ (e + 1 = m.epoch ∧ (s.comp k).prev.isSome) then
        if r = 0xFFFF ∨ m.rank = r then .serve k (if e = m.epoch then m else (s.comp k).prev.getD m)
        else if m.members.length ≤ r then .stale
        else if (s.comp k).down.contains r then .fenced
        else .moved (m.node r) m.epoch
      else if e = m.epoch + 1 then .hold
      else .stale := by
  simp only [State.routeMsg, slot, map]

section
variable (slot : s.slotOfComp comp = some k) (map : (s.comp k).map = some m)
include slot map

theorem State.routeMsg_current (now : e = m.epoch) (mine : r = m.rank) : s.routeMsg comp e r = .serve k m := by
  rw [s.routeMsg_placed slot map, if_pos (.inl now), if_pos (.inr mine.symm), if_pos now]

theorem State.routeMsg_draining {m' : CompMap} (before : e + 1 = m.epoch) (drains : (s.comp k).prev = some m') (mine : r = m.rank) :
    s.routeMsg comp e r = .serve k m' := by
  rw [s.routeMsg_placed slot map, drains, if_pos (.inr ⟨before, rfl⟩), if_pos (.inr mine.symm), if_neg (by omega), Option.getD_some]

/-- Under the current epoch, a rank that is not this node's is answered with its node, or with FENCED where it is down. -/
theorem State.routeMsg_other (now : e = m.epoch) (named : r ≠ 0xFFFF) (other : r ≠ m.rank) (member : r < m.members.length) :
    s.routeMsg comp e r = if (s.comp k).down.contains r then .fenced else .moved (m.node r) m.epoch := by
  rw [s.routeMsg_placed slot map, if_pos (.inl now), if_neg (not_or.2 ⟨named, other.symm⟩), if_neg (Nat.not_le.2 member)]

theorem State.routeMsg_next (next : e = m.epoch + 1) : s.routeMsg comp e r = .hold := by
  rw [s.routeMsg_placed slot map, if_neg (by omega), if_pos next]

/-- An epoch that is neither served nor the next one. -/
theorem State.routeMsg_stale (notNow : e ≠ m.epoch) (notNext : e ≠ m.epoch + 1) (notBefore : e + 1 = m.epoch → (s.comp k).prev = none) :
    s.routeMsg comp e r = .stale := by
  rw [s.routeMsg_placed slot map, if_neg ?_, if_neg notNext]
  rintro (now | ⟨before, drains⟩)
  · exact notNow now
  · rw [notBefore before] at drains
    cases drains

end
end

/-! A message by its type (R375), where the chip is not fenced -/

section
variable {p : Nat} {f : Frame} {a : Arrival}

theorem State.takeMsg_chipFenced (fenced : s.chipFenced = true) : s.takeMsg 1 p f a = s.replyTo f .fenced [] := if_pos fenced

theorem State.takeMsg_global_serves {k : Nat} {m : CompMap} (route : s.routeMsg f.comp.toNat f.epoch.toNat f.rank.toNat = .serve k m) :
    s.takeMsg 5 p f a = s.serveGlobal f k m := by
  simp only [State.takeMsg, State.takeGlobal, route]

section
variable (up : s.chipFenced = false) (placed : f.comp.toNat ≠ 0)
include up placed

theorem State.takeMsg_subreq_serves {k : Nat} {m : CompMap} (route : s.routeMsg f.comp.toNat f.epoch.toNat f.rank.toNat = .serve k m)
    (loaded : s.loadingPart (slice f.payload 32 128) = none) : s.takeMsg 1 p f a = s.serveSub p f k m a := by
  simp only [State.takeMsg, State.takeSubreq, up, Bool.false_eq_true, if_neg placed, if_false, route, loaded]

theorem State.takeMsg_coherence_serves {k : Nat} {m : CompMap} (route : s.routeMsg f.comp.toNat f.epoch.toNat f.rank.toNat = .serve k m)
    (request : (LineOp.ofCode (byteAt f.payload 0)).isSome = true) : s.takeMsg 4 p f a = s.serveCoherence f := by
  have noAnswer : (LineOp.ofCode (byteAt f.payload 0)).isNone = false := by rw [Option.isNone_eq_false_iff, request]
  simp only [State.takeMsg, State.takeCoherence, up, noAnswer, placed, Bool.false_eq_true, false_and, or_self, if_false, route]

theorem State.takeMsg_moved {node e : Nat} (route : s.routeMsg f.comp.toNat f.epoch.toNat f.rank.toNat = .moved node e) :
    s.takeMsg 1 p f a = s.answerMoved f node e ∧ s.takeMsg 5 p f a = s.answerMoved f node e := by
  constructor
  · simp only [State.takeMsg, State.takeSubreq, up, Bool.false_eq_true, if_neg placed, if_false, route]
  · simp only [State.takeMsg, State.takeGlobal, route]

theorem State.takeMsg_held (route : s.routeMsg f.comp.toNat f.epoch.toNat f.rank.toNat = .hold) :
    s.takeMsg 1 p f a = s.holdMsg 1 p f a ∧ s.takeMsg 5 p f a = s.holdMsg 5 p f (s.arrival f) := by
  constructor
  · simp only [State.takeMsg, State.takeSubreq, up, Bool.false_eq_true, if_neg placed, if_false, route]
  · simp only [State.takeMsg, State.takeGlobal, route]

theorem State.takeMsg_stale (route : s.routeMsg f.comp.toNat f.epoch.toNat f.rank.toNat = .stale) :
    s.takeMsg 1 p f a = s.refuseStale 1 f ∧ s.takeMsg 5 p f a = s.refuseStale 5 f := by
  constructor
  · simp only [State.takeMsg, State.takeSubreq, up, Bool.false_eq_true, if_neg placed, if_false, route]
  · simp only [State.takeMsg, State.takeGlobal, route]

theorem State.takeMsg_rankDown (route : s.routeMsg f.comp.toNat f.epoch.toNat f.rank.toNat = .fenced) :
    s.takeMsg 1 p f a = s.replyTo f .fenced [] := by
  simp only [State.takeMsg, State.takeSubreq, up, Bool.false_eq_true, if_neg placed, if_false, route]
  exact if_neg (by decide)

end

/-! Answers (R377, R391) -/

/-- An answer that no sub-request waits for. -/
theorem State.takeMsg_late (nobody : s.openSub f.tag.toNat f.src.toNat = none) :
    (f.tag.toNat ≠ globalTag → s.takeMsg 2 p f a = s.addF F.FAB_GLB_STAT_LATE 0 1) ∧
      s.takeMsg 3 p f a = s.addF F.FAB_GLB_STAT_LATE 0 1 := by
  refine ⟨fun sub => ?_, ?_⟩
  · simp only [State.takeMsg, State.takeReply, if_neg sub, nobody]
  · simp only [State.takeMsg, State.takeMoved, nobody]

section
variable {o : OutSub} (waits : s.openSub f.tag.toNat f.src.toNat = some o)
include waits

theorem State.takeMsg_reply (sub : f.tag.toNat ≠ globalTag) :
    s.takeMsg 2 p f a = s.endSub o (Code.ofNum (byteAt f.payload 0)) (f.payload.drop 64) := by
  simp only [State.takeMsg, State.takeReply, if_neg sub, waits]

theorem State.takeMsg_movedTwice (again : o.retried = true) : s.takeMsg 3 p f a = s.endSub o .routeStale [] := by
  simp only [State.takeMsg, State.takeMoved, waits, again, if_true]

section
variable (first : o.retried = false)
include first

theorem State.takeMsg_movedAway (unknown : s.peerOk (leAt f.payload 0 2) = false) : s.takeMsg 3 p f a = s.endSub o .fenced [] := by
  simp only [State.takeMsg, State.takeMoved, waits, first, unknown, Bool.false_eq_true, if_false, Bool.not_false, if_true]

/-- A first MOVED sends the sub-request to the node that it names; only a job counts the retry. -/
theorem State.takeMsg_movedOnce (known : s.peerOk (leAt f.payload 0 2) = true) (noJob : ∀ id n, o.owner ≠ .job id n) :
    let o' := { o with node := leAt f.payload 0 2, epoch := leAt f.payload 4 4, retried := true, due := s.subDue }
    s.takeMsg 3 p f a = (s.setFab fun x => { x with subs := x.subs.map fun y => if y.tag = o.tag then o' else y }).sendMsg
      (leAt f.payload 0 2) o.comp (leAt f.payload 4 4) o.queue 1 o.tag o.rank 0 o.payload := by
  simp only [State.takeMsg, State.takeMoved, waits, first, known, Bool.false_eq_true, if_false, Bool.not_true]

end
end
end

/-! The tree (R395) -/

theorem treeChildren_mem {n r x : Nat} (h : x ∈ treeChildren n r) : r < x ∧ x < n := by
  have level {w : Nat} (h : x ∈ ((List.range 16).map fun k => r + k * w).filter fun x => decide (r < x ∧ x < n)) : r < x ∧ x < n := by
    simpa using (List.mem_filter.1 h).2
  have levelOf {w : Nat} {c : Prop} [Decidable c]
      (h : x ∈ if c then ((List.range 16).map fun k => r + k * w).filter fun x => decide (r < x ∧ x < n) else []) : r < x ∧ x < n := by
    split at h
    · exact level h
    · cases h
  obtain ⟨h, -⟩ := List.mem_filter.1 h
  rcases List.mem_append.1 h with h | high
  · rcases List.mem_append.1 h with low | middle
    · exact level low
    · exact levelOf middle
  · exact levelOf high

/-- A composition of one member has nobody to send to. -/
theorem State.sendChildren_alone {k op num v : Nat} {m : CompMap} {d : Bytes} (alone : m.members.length = 1) :
    s.sendChildren k m op num v d = s := by
  have childless : treeChildren m.members.length m.rank = [] := by
    refine List.eq_nil_iff_forall_not_mem.2 fun x h => ?_
    have := treeChildren_mem h
    omega
  rw [State.sendChildren, childless, List.filter_nil, List.foldl_nil]

/-! Global operations (R396), each by its number -/

section
variable {f : Frame} {k : Nat} {m : CompMap}

theorem State.serveGlobal_arrive_below (op : byteAt f.payload 0 = 1) (below : m.rank ≠ 0) :
    s.serveGlobal f k m = s.sendGlobal m (treeParent m.rank) opArrive (leAt f.payload 4 4) (leAt f.payload 8 8) [] := by
  simp only [State.serveGlobal, op, if_pos below]

theorem State.serveGlobal_arrive_root (op : byteAt f.payload 0 = 1) (root : m.rank = 0) (object : leAt f.payload 4 4 < 8192)
    (armed : s.f F.SYNC_OBJ_STATE (leAt f.payload 4 4) = syncArmed) : s.serveGlobal f k m = s.countArrival (leAt f.payload 4 4) := by
  simp [State.serveGlobal, op, root, object, armed]

theorem State.serveGlobal_release_idle (op : byteAt f.payload 0 = 2)
    (idle : ¬ (leAt f.payload 4 4 < 8192 ∧ s.f F.SYNC_OBJ_STATE (leAt f.payload 4 4) = syncArmed)) :
    s.serveGlobal f k m = s.sendChildren k m opRelease (leAt f.payload 4 4) (leAt f.payload 8 8) [] := by
  have : (decide (leAt f.payload 4 4 < 8192) && s.f F.SYNC_OBJ_STATE (leAt f.payload 4 4) == syncArmed) = false := by
    simpa [Bool.eq_false_iff] using idle
  simp only [State.serveGlobal, op, this, Bool.false_and, Bool.false_eq_true, if_false]

theorem State.serveGlobal_release_alone (op : byteAt f.payload 0 = 2) (object : leAt f.payload 4 4 < 8192)
    (armed : s.f F.SYNC_OBJ_STATE (leAt f.payload 4 4) = syncArmed) (episode : s.episode (leAt f.payload 4 4) = leAt f.payload 8 8)
    (alone : m.members.length = 1) : s.serveGlobal f k m = s.completeEpisode (leAt f.payload 4 4) := by
  simp [State.serveGlobal, op, object, armed, s.sendChildren_alone alone, episode]

theorem State.serveGlobal_closeTrigger (op : byteAt f.payload 0 = 3) : s.serveGlobal f k m = s.triggerClose (leAt f.payload 4 4 % 4096) := by
  simp only [State.serveGlobal, op]

theorem State.serveGlobal_prepare_off (op : byteAt f.payload 0 = 4) (off : s.idxOn (leAt f.payload 4 4 % 4096) = false) :
    s.serveGlobal f k m = s.sendChildren k m opPrepare (leAt f.payload 4 4) (leAt f.payload 8 8) [] := by
  simp only [State.serveGlobal, op, off, Bool.not_false, if_true]

/-- PREPARE of a vintage that is closed here already: it goes on down, and this part reports. -/
theorem State.serveGlobal_prepare_closed (op : byteAt f.payload 0 = 4) (on : s.idxOn (leAt f.payload 4 4 % 4096) = true)
    (closed : leAt f.payload 8 8 < (s.idx (leAt f.payload 4 4 % 4096)).openV) : s.serveGlobal f k m =
      (s.sendChildren k m opPrepare (leAt f.payload 4 4) (leAt f.payload 8 8) []).reportPrepared (leAt f.payload 4 4 % 4096) := by
  simp only [State.serveGlobal, op, on, closed, Bool.not_true, Bool.false_eq_true, if_false, if_true]

theorem State.serveGlobal_prepare_open (op : byteAt f.payload 0 = 4) (on : s.idxOn (leAt f.payload 4 4 % 4096) = true)
    (still : (s.idx (leAt f.payload 4 4 % 4096)).openV ≤ leAt f.payload 8 8) :
    s.serveGlobal f k m = s.takeClose (leAt f.payload 4 4 % 4096) (leAt f.payload 8 8) := by
  simp only [State.serveGlobal, op, on, Nat.not_lt.2 still, Bool.not_true, Bool.false_eq_true, if_false]

theorem State.serveGlobal_prepared (op : byteAt f.payload 0 = 5) : s.serveGlobal f k m =
    (s.notePrepared k (leAt f.payload 4 4 % 4096) (leAt f.payload 8 8) m.epoch (m.rankOf f.src.toNat)).reportPrepared
      (leAt f.payload 4 4 % 4096) := by
  simp only [State.serveGlobal, op]

theorem State.serveGlobal_commit (op : byteAt f.payload 0 = 6) : s.serveGlobal f k m =
    (s.sendChildren k m opCommit (leAt f.payload 4 4) (leAt f.payload 8 8) []).takeCommit k (leAt f.payload 4 4 % 4096)
      (leAt f.payload 8 8) := by
  simp only [State.serveGlobal, op]

theorem State.takeCommit_published {i v : Nat} (done : v ≤ s.published i) : s.takeCommit k i v = s := if_pos (.inr (.inl done))

theorem State.serveGlobal_reset (op : byteAt f.payload 0 = 7) : s.serveGlobal f k m = s.takeReset k m := by
  simp only [State.serveGlobal, op]

theorem State.serveGlobal_resetDone_above (op : byteAt f.payload 0 = 8) (below : m.rank ≠ 0)
    (above : m.rankOf f.src.toNat = treeParent m.rank) : s.serveGlobal f k m = s.endCompReset k m := by
  simp only [State.serveGlobal, op, if_pos (And.intro below above)]

theorem State.serveGlobal_resetDone_root (op : byteAt f.payload 0 = 8) (root : m.rank = 0) : s.serveGlobal f k m =
    (s.setComp k fun x => { x with answered := leAt f.payload 8 8 :: x.answered }).settleReset k m := by
  simp only [State.serveGlobal, op, root, ne_eq, not_true, false_and, if_false]

theorem State.serveGlobal_bcastData (op : byteAt f.payload 0 = 9) : s.serveGlobal f k m =
    s.bcastHere k m (leAt f.payload 4 4) (leAt f.payload 8 8) (f.payload.drop 16) := by
  simp only [State.serveGlobal, op]

theorem State.serveGlobal_bcastDone_above (op : byteAt f.payload 0 = 10) (above : m.rankOf f.src.toNat = 0) (below : m.rank ≠ 0) :
    s.serveGlobal f k m = s.endBcastReq k (leAt f.payload 4 4) (Code.ofNum (leAt f.payload 8 8)) := by
  simp only [State.serveGlobal, op, if_pos (And.intro above below)]

theorem State.serveGlobal_bcastDone_root (op : byteAt f.payload 0 = 10) (root : m.rank = 0) : s.serveGlobal f k m =
    (s.hearBcast k (leAt f.payload 4 4) (m.rankOf f.src.toNat) (Code.ofNum (leAt f.payload 8 8))).settleBcast k (leAt f.payload 4 4) := by
  simp only [State.serveGlobal, op, root, ne_eq, not_true, and_false, if_false]

end

end

/-- Settles O51: the epoch and the rank route a message, and its type and operation say what serving it comes to. -/
theorem messagesAreServedByTheirEpoch : Obligations.MessagesAreServedByTheirEpoch := by
  unfold Obligations.MessagesAreServedByTheirEpoch
  intro s p f a e r pl num v
  refine ⟨fun k m slot map => ⟨s.routeMsg_current slot map, fun m' => s.routeMsg_draining slot map, fun now named other member up => ?_,
    fun now named other member down => ?_, s.routeMsg_next slot map, fun later => ?_, fun earlier => ?_, fun before drained => ?_⟩,
    s.routeMsg_unplaced, fun up placed => ⟨fun k m => s.takeMsg_subreq_serves up placed, fun k m => s.takeMsg_coherence_serves up placed,
      fun x y => s.takeMsg_moved up placed, s.takeMsg_held up placed, s.takeMsg_stale up placed, s.takeMsg_rankDown up placed⟩,
    s.takeMsg_chipFenced, s.takeMsg_late, fun o waits => ⟨s.takeMsg_reply waits, s.takeMsg_movedTwice waits, s.takeMsg_movedAway waits,
      s.takeMsg_movedOnce waits⟩, fun k m route => ?_⟩
  · rw [s.routeMsg_other slot map now named other member, if_neg (by simpa using up)]
  · rw [s.routeMsg_other slot map now named other member, if_pos (by simpa using down)]
  · exact s.routeMsg_stale slot map (by omega) (by omega) (by omega)
  · exact s.routeMsg_stale slot map (by omega) (by omega) (by omega)
  · exact s.routeMsg_stale slot map (by omega) (by omega) fun _ => drained
  · exact ⟨s.takeMsg_global_serves route, s.serveGlobal_arrive_below, s.serveGlobal_arrive_root, s.serveGlobal_release_idle,
      s.serveGlobal_release_alone, s.serveGlobal_closeTrigger, s.serveGlobal_prepare_off, s.serveGlobal_prepare_closed,
      s.serveGlobal_prepare_open, s.serveGlobal_prepared, s.serveGlobal_commit, fun _ => s.takeCommit_published, s.serveGlobal_reset,
      s.serveGlobal_resetDone_above, s.serveGlobal_resetDone_root, s.serveGlobal_bcastData, s.serveGlobal_bcastDone_above,
      s.serveGlobal_bcastDone_root⟩

end Sys2Proof.Machine
end

section
/-! PROOFS. The door of a fabric port: its checks in their order (R380, R381, R385). -/
namespace Sys2Proof.Machine

section
variable (s : State) {p type : Nat} {f : Frame} {go : State → State}

theorem State.throughDoor_down (down : s.portIsUp p = false) : s.throughDoor p type f go = s := by
  simp only [State.throughDoor, down, Bool.not_false, if_true]

section
variable (up : s.portIsUp p = true) (whole : s.flt.forceBad.contains (0x100 + p) = false)
include up whole

theorem State.throughDoor_headers (foreign : s.headersOk p f = false) :
    s.throughDoor p type f go = s.addF F.FAB_DROP_UNKNOWN p 1 := by
  simp only [State.throughDoor, up, whole, foreign, Bool.not_true, Bool.not_false, Bool.false_eq_true, if_false, if_true]

section
variable (headers : s.headersOk p f = true)
include headers

theorem State.throughDoor_macsec (unsealed : s.macsecTake p f = none) :
    s.throughDoor p type f go = s.addF F.FAB_DROP_MACSEC p 1 := by
  simp only [State.throughDoor, up, whole, headers, unsealed, Bool.not_true, Bool.false_eq_true, if_false]

section
variable {t : State} (sealed : s.macsecTake p f = some t)
include sealed

theorem State.throughDoor_malformed (malformed : t.drivoOk p f = false) :
    s.throughDoor p type f go = t.addF F.FAB_DROP_MALFORMED p 1 := by
  simp only [State.throughDoor, up, whole, headers, sealed, malformed, Bool.not_true, Bool.not_false, Bool.false_eq_true, if_false, if_true]

theorem State.throughDoor_sender (formed : t.drivoOk p f = true) (stranger : t.senderOk p type f = false) :
    s.throughDoor p type f go = t.addF F.FAB_DROP_UNKNOWN p 1 := by
  simp only [State.throughDoor, up, whole, headers, sealed, formed, stranger, Bool.not_true, Bool.not_false, Bool.false_eq_true, if_false,
    if_true]

theorem State.throughDoor_policed (formed : t.drivoOk p f = true) (sender : t.senderOk p type f = true)
    (past : t.policeTake p type f = none) : s.throughDoor p type f go = t.addF F.FAB_DROP_POLICED p 1 := by
  simp only [State.throughDoor, up, whole, headers, sealed, formed, sender, past, Bool.not_true, Bool.false_eq_true, if_false]

/-- A frame that passes every check goes on. -/
theorem State.throughDoor_passes {u : State} (formed : t.drivoOk p f = true) (sender : t.senderOk p type f = true)
    (within : t.policeTake p type f = some u) : s.throughDoor p type f go = go u := by
  simp only [State.throughDoor, up, whole, headers, sealed, formed, sender, within, Bool.not_true, Bool.false_eq_true, if_false]

end
end
end

/-- R385: a policer takes data frames alone. -/
theorem State.policeTake_control (control : 6 ≤ type) : s.policeTake p type f = some s := if_pos (.inl control)

end

end Sys2Proof.Machine
end

section
/-! PROOFS. Data frames past the door: delivered in their turn, owed an ACK, or kept ahead of a gap (R375, R376). -/
namespace Sys2Proof.Machine

section
variable (s : State) {n q : Nat}

/-! Flows -/

@[simp] theorem State.flow_setFlow_self (g : Flow → Flow) : (s.setFlow n q g).flow n q = g (s.flow n q) := SMap.get_put_self _ _ _ _

/-- Where no frame of the node is out, an ACK acknowledges nothing. -/
theorem State.ackFlow_nothing {a : Nat} (out : (s.flow n q).unacked = []) : s.ackFlow n q a = s := by
  simp only [State.ackFlow, out]

/-- A flow that owes an ACK for one frame more. -/
def Flow.owes (fl : Flow) (now : Nat) : Flow := { fl with owed := fl.owed + 1, owedAt := if fl.owed = 0 then now else fl.owedAt }

/-- A flow after the last frame of a message, in its turn. -/
def Flow.received (fl : Flow) (now : Nat) : Flow :=
  { fl.owes now with rxNext := (fl.rxNext + 1) % 2 ^ 32, nakSent := false, partial_ := [] }

section
variable {p type : Nat} {f : Frame}

/-- A message in one frame is handled as it is. -/
theorem State.deliver_whole (fresh : (s.flow f.src.toNat f.queue.toNat).partial_ = []) (last : f.more = false) :
    s.deliver p type f =
      (let v := s.setFlow f.src.toNat f.queue.toNat fun fl => fl.received s.now
       v.takeMsg type p f (v.arrival f)) := by
  simp only [State.deliver, fresh, if_neg (ne_true_of_eq_false last), List.nil_append]
  rfl

/-! A frame by its place in the flow, where no frame of this node is out (R376) -/

/-- The distance of a frame from the next one of its flow. -/
def State.aheadOf (s : State) (f : Frame) : Nat :=
  (f.seq.toNat + 2 ^ 32 - (s.flow f.src.toNat f.queue.toNat).rxNext) % 2 ^ 32

section
variable (out : ((s.hear f.src.toNat).flow f.src.toNat f.queue.toNat).unacked = [])
include out

theorem State.takeFrame_inTurn (turn : ((s.hear f.src.toNat).flow f.src.toNat f.queue.toNat).rxNext = f.seq.toNat) :
    s.takeFrame p type f = State.deliverAhead 65 ((s.hear f.src.toNat).deliver p type f) p f.src.toNat f.queue.toNat := by
  have seq : f.seq.toNat < 2 ^ 32 := f.seq.isLt
  have now : (f.seq.toNat + 2 ^ 32 - f.seq.toNat) % 2 ^ 32 = 0 := by omega
  simp only [State.takeFrame, State.ackFlow_nothing _ out, turn, now, if_true]

theorem State.takeFrame_repeated (behind : 2 ^ 31 ≤ (s.hear f.src.toNat).aheadOf f) :
    s.takeFrame p type f =
      (s.hear f.src.toNat).setFlow f.src.toNat f.queue.toNat fun fl => fl.owes (s.hear f.src.toNat).now := by
  have ahead : (s.hear f.src.toNat).aheadOf f ≠ 0 := by omega
  unfold State.aheadOf at ahead behind
  simp only [State.takeFrame, State.ackFlow_nothing _ out, if_neg ahead, if_pos behind]
  rfl

/-- A frame ahead of a gap is kept; a NAK for the gap goes out once. -/
theorem State.takeFrame_ahead (ahead : (s.hear f.src.toNat).aheadOf f ≠ 0) (near : (s.hear f.src.toNat).aheadOf f ≤ 64)
    (room : ((s.hear f.src.toNat).flow f.src.toNat f.queue.toNat).ahead.length < 64)
    (new : (((s.hear f.src.toNat).flow f.src.toNat f.queue.toNat).ahead.any fun x => x.2.seq == f.seq) = false) :
    s.takeFrame p type f =
      (let h := s.hear f.src.toNat
       let k := h.setFlow f.src.toNat f.queue.toNat fun fl => { fl with ahead := fl.ahead ++ [(type, f)] }
       if (h.flow f.src.toNat f.queue.toNat).nakSent then k
       else (k.setFlow f.src.toNat f.queue.toNat fun fl => { fl with nakSent := true }).sendFlowControl f.src.toNat f.queue.toNat 7
         (leBytes 4 (h.flow f.src.toNat f.queue.toNat).rxNext)) := by
  have notBehind : ¬ 2 ^ 31 ≤ (s.hear f.src.toNat).aheadOf f := by omega
  unfold State.aheadOf at ahead near notBehind
  simp only [State.takeFrame, State.ackFlow_nothing _ out, if_neg ahead, if_neg notBehind, new, Bool.false_eq_true, if_false,
    if_pos (And.intro room near), State.flow_setFlow_self]

end

/-! The rows of data frames -/

/-- A frame that begins a global message of another operation than its row's (log entry 218). -/
theorem State.dataFrame_otherRow {o : Nat} (other : byteAt f.payload 0 ≠ o)
    (fresh : (s.flow f.src.toNat f.queue.toNat).partial_ = []) (turn : (s.flow f.src.toNat f.queue.toNat).rxNext = f.seq.toNat) :
    s.dataFrame p type (some o) f = s := by
  simp [State.dataFrame, other, fresh, turn]

theorem State.dataFrame_ownRow {op : Option Nat} (own : ∀ o, op = some o → byteAt f.payload 0 = o) :
    s.dataFrame p type op f = s.throughDoor p type f fun t => t.takeFrame p type f := by
  cases op with
  | none => rfl
  | some o => simp [State.dataFrame, own o rfl]

end
end

/-- The rows of data frames on a port: the command, the type of its frames, and the operation of its global messages. -/
def dataRows (p : BitVec 4) (f : Frame) : List (Instr × Nat × Option Nat) :=
  [(.subreq p f, 1, none), (.reply p f, 2, none), (.moved p f, 3, none), (.coherenceFrame p f, 4, none), (.globalArrive p f, 5, some 1),
    (.globalRelease p f, 5, some 2), (.closeTrigger p f, 5, some 3), (.prepare p f, 5, some 4), (.prepared p f, 5, some 5),
    (.commit p f, 5, some 6), (.globalReset p f, 5, some 7), (.resetDone p f, 5, some 8), (.bcastData p f, 5, some 9),
    (.bcastDone p f, 5, some 10)]

theorem exec_dataRow {s : State} {p : BitVec 4} {f : Frame} {cmd : Instr} {type : Nat} {op : Option Nat}
    (row : (cmd, type, op) ∈ dataRows p f) (live : s.live = true) :
    exec cmd s = .next (s.after (s.dataFrame p.toNat type op f)) := by
  have effect : exec cmd s = gated s fun s => s.dataFrame p.toNat type op f := by
    fin_cases row <;> rfl
  rw [effect, gated_live _ _ live]

/-- Settles O50: a frame that passes the door is placed in its flow, and each check that it fails drops it with its own count. -/
theorem framesPassTheDoorInOrder : Obligations.FramesPassTheDoorInOrder := by
  unfold Obligations.FramesPassTheDoorInOrder
  intro s p f live p' n q
  refine ⟨fun cmd type op row => ⟨fun o begins other fresh turn => ?_, fun own => ?_⟩, fun type go => ⟨s.throughDoor_down,
    fun up whole => ⟨s.throughDoor_headers up whole, s.throughDoor_macsec up whole, fun t headers sealed =>
      ⟨s.throughDoor_malformed up whole headers sealed, s.throughDoor_sender up whole headers sealed,
        s.throughDoor_policed up whole headers sealed⟩⟩⟩⟩
  · subst begins
    rw [exec_dataRow row live, s.dataFrame_otherRow other fresh turn]
  · rw [exec_dataRow row live, s.dataFrame_ownRow own]
    refine ⟨rfl, ?_⟩
    intro t u up whole headers sealed formed sender within h fl v out
    rw [s.throughDoor_passes up whole headers sealed formed sender within]
    refine ⟨fun turn fresh last => ?_, fun behind => ?_, fun ahead near room new nak => ?_, fun ahead near room new nak => ?_⟩
    · rw [u.takeFrame_inTurn out turn, State.deliver_whole _ fresh last]
      rfl
    · rw [u.takeFrame_repeated out behind]
      rfl
    · rw [u.takeFrame_ahead out ahead near room new]
      dsimp only
      rw [if_pos nak]
    · rw [u.takeFrame_ahead out ahead near room new]
      dsimp only
      rw [if_neg (ne_true_of_eq_false nak)]

end Sys2Proof.Machine
end

section
/-! PROOFS. Control frames past the door: acknowledgements, the keepalive, and the admission of a peer (R376, R377, R379). -/
namespace Sys2Proof.Machine

/-- R380: a frame on a port passes every check of the door but its policer, and MACsec leaves t. -/
structure PassesDoor (s : State) (p type : Nat) (f : Frame) (t : State) : Prop where
  up : s.portIsUp p = true
  whole : s.flt.forceBad.contains (0x100 + p) = false
  headers : s.headersOk p f = true
  sealed : s.macsecTake p f = some t
  formed : t.drivoOk p f = true
  sender : t.senderOk p type f = true

/-! What every control frame has in common (R382) -/

section
variable {s t : State} {p type : Nat} {f : Frame} {go : State → State}

/-- A control frame meets no policer (R385). -/
theorem PassesDoor.control (door : PassesDoor s p type f t) (control : 6 ≤ type) : s.throughDoor p type f go = go t :=
  s.throughDoor_passes door.up door.whole door.headers door.sealed door.formed door.sender (t.policeTake_control control)

/-- ACK and NAK name their flow by TAG (log entry 33). -/
theorem PassesDoor.acks (door : PassesDoor s p type f t) (acks : type = 6 ∨ type = 7) :
    s.controlFrame p type f go = go ((t.hear f.src.toNat).ackFlow f.src.toNat (f.tag.toNat % 32) f.ack.toNat) := by
  have peer : ¬ 0x10 ≤ type := by omega
  rw [State.controlFrame, door.control (by omega)]
  simp only [if_pos acks, if_neg peer]

theorem PassesDoor.keepalive (door : PassesDoor s p 8 f t) :
    s.controlFrame p 8 f go = go ((t.hear f.src.toNat).ackFlow f.src.toNat f.queue.toNat f.ack.toNat) := by
  rw [State.controlFrame, door.control (by decide)]
  rfl

/-- A frame of an admission is not heard of an admitted peer and acknowledges nothing. -/
theorem PassesDoor.admission (door : PassesDoor s p type f t) (admission : 0x10 ≤ type) : s.controlFrame p type f go = go t := by
  have noAck : ¬ (type = 6 ∨ type = 7) := by omega
  rw [State.controlFrame, door.control (by omega)]
  simp only [if_pos admission, if_neg noAck]

end

/-! What each control frame does past the door -/

/-- R376: a NAK acknowledges the frames before the first missing one; the rest of a flow that holds none go again. -/
def State.takeNak (s : State) (n q first : Nat) : State :=
  let s := s.ackFlow n q first
  if (s.flow n q).held then s else (s.setFlow n q fun fl => { fl with rtoDue := s.rto }).resendFlow n q

/-- R379: the peer's nonce, taken once. -/
def State.takeHello (s : State) (f : Frame) : State :=
  let n := f.src.toNat
  match s.admission n with
  | some a => if a.hello then s else (s.setAdmission n fun a => { a with theirs := slice f.payload 0 32, hello := true }).sendCert n
  | none => s

/-- R379: the peer's chain verifies, and its leaf's key is the one that the peer table names. -/
def State.chainOk (s : State) (n : Nat) (chain : Bytes) : Bool :=
  Config.chainVerifies chain s.sec.fuses.root && sha256 (Config.leafKey chain) == s.peek (s.peerAddr n + 32) 32

/-- R379: the peer's chain, collected and then verified. -/
def State.takeCert (s : State) (f : Frame) : State :=
  let n := f.src.toNat
  match s.admission n with
  | none => s
  | some a =>
    if a.cert then s
    else
      let chain := a.chain ++ f.payload
      if 8192 < chain.length then s.refusePeer n
      else if f.more then s.setAdmission n fun a => { a with chain := chain }
      else if s.chainOk n chain then
        (s.setAdmission n fun a => { a with chain := chain, cert := true }).sendFlowControl n 0 0x12
          (slice (Config.deviceSign (proofMsg a.mine a.theirs s.self n)) 0 384)
      else s.refusePeer n

/-- R379: a proof that the key of the peer's leaf has signed over both nonces and both nodes. -/
def State.proofOk (s : State) (f : Frame) (a : Admission) : Bool :=
  a.hello && a.cert && rsaVerify (Config.leafModulus a.chain) (Config.leafExponent a.chain) 384
    (sha256 (proofMsg a.theirs a.mine f.src.toNat s.self)) (slice f.payload 0 384)

/-- R379: the peer's proof. -/
def State.takeProof (s : State) (f : Frame) : State :=
  match s.admission f.src.toNat with
  | none => s
  | some a => if s.proofOk f a then s.admitPeer f.src.toNat else s.refusePeer f.src.toNat

section
variable {s t : State} {p : BitVec 4} {f : Frame} (live : s.live = true)
include live

theorem exec_ack_acks (door : PassesDoor s p.toNat 6 f t) :
    exec (.ack p f) s = .next (s.after ((t.hear f.src.toNat).ackFlow f.src.toNat (f.tag.toNat % 32) f.ack.toNat)) := by
  rw [exec_ack, execAck, gated_live _ _ live, door.acks (.inl rfl)]

theorem exec_nak_acks (door : PassesDoor s p.toNat 7 f t) :
    exec (.nak p f) s = .next (s.after
      (((t.hear f.src.toNat).ackFlow f.src.toNat (f.tag.toNat % 32) f.ack.toNat).takeNak f.src.toNat (f.tag.toNat % 32)
        (leAt f.payload 0 4))) := by
  rw [exec_nak, execNak, gated_live _ _ live, door.acks (.inr rfl)]
  rfl

theorem exec_keepalive_acks (door : PassesDoor s p.toNat 8 f t) :
    exec (.keepalive p f) s = .next (s.after ((t.hear f.src.toNat).ackFlow f.src.toNat f.queue.toNat f.ack.toNat)) := by
  rw [exec_keepalive, execKeepalive, gated_live _ _ live, door.keepalive]

theorem exec_admitHello_takes (door : PassesDoor s p.toNat 0x10 f t) : exec (.admitHello p f) s = .next (s.after (t.takeHello f)) := by
  rw [exec_admitHello, execAdmitHello, gated_live _ _ live, door.admission (by decide)]
  rfl

theorem exec_admitCert_takes (door : PassesDoor s p.toNat 0x11 f t) : exec (.admitCert p f) s = .next (s.after (t.takeCert f)) := by
  rw [exec_admitCert, execAdmitCert, gated_live _ _ live, door.admission (by decide)]
  rfl

theorem exec_admitProof_takes (door : PassesDoor s p.toNat 0x12 f t) : exec (.admitProof p f) s = .next (s.after (t.takeProof f)) := by
  rw [exec_admitProof, execAdmitProof, gated_live _ _ live, door.admission (by decide)]
  rfl

end

section
variable (s : State) {f : Frame}

theorem State.takeNak_held {n q first : Nat} (held : ((s.ackFlow n q first).flow n q).held = true) :
    s.takeNak n q first = s.ackFlow n q first := if_pos held

theorem State.takeNak_resends {n q first : Nat} (free : ((s.ackFlow n q first).flow n q).held = false) :
    s.takeNak n q first =
      ((s.ackFlow n q first).setFlow n q fun fl => { fl with rtoDue := (s.ackFlow n q first).rto }).resendFlow n q :=
  if_neg (ne_true_of_eq_false free)

/-- Frames of an admission that this node has not begun, or has ended, change nothing. -/
theorem State.admission_none (ended : s.admission f.src.toNat = none) : s.takeHello f = s ∧ s.takeCert f = s ∧ s.takeProof f = s := by
  simp only [State.takeHello, State.takeCert, State.takeProof, ended, and_self]

section
variable {a : Admission} (begun : s.admission f.src.toNat = some a)
include begun

theorem State.takeHello_again (hello : a.hello = true) : s.takeHello f = s := by
  simp only [State.takeHello, begun, hello, if_true]

theorem State.takeHello_first (hello : a.hello = false) : s.takeHello f =
    (s.setAdmission f.src.toNat fun a => { a with theirs := slice f.payload 0 32, hello := true }).sendCert f.src.toNat := by
  simp only [State.takeHello, begun, hello, Bool.false_eq_true, if_false]

section
variable (uncertified : a.cert = false)
include uncertified

theorem State.takeCert_long (long : 8192 < (a.chain ++ f.payload).length) : s.takeCert f = s.refusePeer f.src.toNat := by
  simp only [State.takeCert, begun, uncertified, Bool.false_eq_true, if_false, if_pos long]

theorem State.takeCert_part (fits : (a.chain ++ f.payload).length ≤ 8192) (more : f.more = true) :
    s.takeCert f = s.setAdmission f.src.toNat fun b => { b with chain := a.chain ++ f.payload } := by
  simp only [State.takeCert, begun, uncertified, Bool.false_eq_true, if_false, if_neg (Nat.not_lt.2 fits), more, if_true]

theorem State.takeCert_verified (fits : (a.chain ++ f.payload).length ≤ 8192) (last : f.more = false)
    (good : s.chainOk f.src.toNat (a.chain ++ f.payload) = true) :
    s.takeCert f = (s.setAdmission f.src.toNat fun b => { b with chain := a.chain ++ f.payload, cert := true }).sendFlowControl
      f.src.toNat 0 0x12 (slice (Config.deviceSign (proofMsg a.mine a.theirs s.self f.src.toNat)) 0 384) := by
  simp only [State.takeCert, begun, uncertified, Bool.false_eq_true, if_false, if_neg (Nat.not_lt.2 fits), last, good, if_true]

theorem State.takeCert_refused (fits : (a.chain ++ f.payload).length ≤ 8192) (last : f.more = false)
    (bad : s.chainOk f.src.toNat (a.chain ++ f.payload) = false) : s.takeCert f = s.refusePeer f.src.toNat := by
  simp only [State.takeCert, begun, uncertified, Bool.false_eq_true, if_false, if_neg (Nat.not_lt.2 fits), last, bad]

end

theorem State.takeProof_admits (good : s.proofOk f a = true) : s.takeProof f = s.admitPeer f.src.toNat := by
  simp only [State.takeProof, begun, good, if_true]

theorem State.takeProof_refused (bad : s.proofOk f a = false) : s.takeProof f = s.refusePeer f.src.toNat := by
  simp only [State.takeProof, begun, bad, Bool.false_eq_true, if_false]

end

theorem State.chainOk_iff {n : Nat} {chain : Bytes} : s.chainOk n chain = true ↔
    Config.chainVerifies chain s.sec.fuses.root = true ∧ sha256 (Config.leafKey chain) = s.peek (s.peerAddr n + 32) 32 := by
  rw [State.chainOk, Bool.and_eq_true, beq_iff_eq]

theorem State.proofOk_iff {a : Admission} : s.proofOk f a = true ↔ a.hello = true ∧ a.cert = true ∧
    rsaVerify (Config.leafModulus a.chain) (Config.leafExponent a.chain) 384
      (sha256 (proofMsg a.theirs a.mine f.src.toNat s.self)) (slice f.payload 0 384) = true := by
  rw [State.proofOk, Bool.and_eq_true, Bool.and_eq_true, and_assoc]

end

end Sys2Proof.Machine
end

section
/-! PROOFS. The timers of the fabric, what a port sends next, and a port that fails (R372, R376, R377, R379, R382, R383, R407). -/
namespace Sys2Proof.Machine

section
variable {s : State} (live : s.live = true)
include live

section
variable {peer : BitVec 16} {a : Admission} (begun : s.admission peer.toNat = some a)
include begun

theorem exec_admitTimeout_refuses (late : s.due a.started 100000 = true) :
    exec (.admitTimeout peer) s = .next (s.after (s.refusePeer peer.toNat)) := by
  rw [exec_admitTimeout, execAdmitTimeout, gated_live _ _ live]
  simp only [begun, late, if_true]

theorem exec_admitTimeout_early (early : s.due a.started 100000 = false) : exec (.admitTimeout peer) s = .next (s.after s) := by
  rw [exec_admitTimeout, execAdmitTimeout, gated_live _ _ live]
  simp only [begun, early, Bool.false_eq_true, if_false]

end

/-! RETRANSMIT_TIMEOUT (R376, R407) -/

section
variable {peer : BitVec 16} {queue : BitVec 5}

theorem exec_retransmitTimeout_early
    (early : (s.flow peer.toNat queue.toNat).unacked = [] ∨ (s.flow peer.toNat queue.toNat).held = true ∨
      s.now < (s.flow peer.toNat queue.toNat).rtoDue) : exec (.retransmitTimeout peer queue) s = .next (s.after s) := by
  rw [exec_retransmitTimeout, execRetransmitTimeout, gated_live _ _ live]
  simp only [if_pos early]

section
variable (out : (s.flow peer.toNat queue.toNat).unacked ≠ []) (free : (s.flow peer.toNat queue.toNat).held = false)
  (due : (s.flow peer.toNat queue.toNat).rtoDue ≤ s.now)
include out free due

theorem exec_retransmitTimeout_resends (left : (s.flow peer.toNat queue.toNat).resends < s.f F.FAB_TIMERS_RETRIES 0) :
    exec (.retransmitTimeout peer queue) s = .next (s.after ((s.setFlow peer.toNat queue.toNat
      fun fl => { fl with resends := fl.resends + 1, rtoDue := s.rto }).resendFlow peer.toNat queue.toNat)) := by
  rw [exec_retransmitTimeout, execRetransmitTimeout, gated_live _ _ live]
  simp only [out, free, Nat.not_lt.2 due, Bool.false_eq_true, or_self, if_false, if_pos left]

section
variable (used : s.f F.FAB_TIMERS_RETRIES 0 ≤ (s.flow peer.toNat queue.toNat).resends)
include used

theorem exec_retransmitTimeout_holds (last : (s.upPorts peer.toNat).length ≤ (s.flow peer.toNat queue.toNat).tried + 1) :
    exec (.retransmitTimeout peer queue) s = .next (s.after ((s.setFlow peer.toNat queue.toNat
      fun fl => { fl with held := true, moves := fl.moves + 1 }).event F.TOP_INT_STAT_FAB_FLOW)) := by
  rw [exec_retransmitTimeout, execRetransmitTimeout, gated_live _ _ live]
  simp only [out, free, Nat.not_lt.2 due, Bool.false_eq_true, or_self, if_false, Nat.not_lt.2 used, if_pos last]

theorem exec_retransmitTimeout_moves (another : (s.flow peer.toNat queue.toNat).tried + 1 < (s.upPorts peer.toNat).length) :
    exec (.retransmitTimeout peer queue) s = .next (s.after ((s.setFlow peer.toNat queue.toNat
      fun fl => { fl with moves := fl.moves + 1, tried := fl.tried + 1, resends := 1, rtoDue := s.rto }).resendFlow peer.toNat
        queue.toNat)) := by
  rw [exec_retransmitTimeout, execRetransmitTimeout, gated_live _ _ live]
  simp only [out, free, Nat.not_lt.2 due, Bool.false_eq_true, or_self, if_false, Nat.not_lt.2 used, Nat.not_le.2 another]

end
end

/-! The other timers (R376, R377) -/

theorem exec_ackTimer_sends
    (owes : 8 ≤ (s.flow peer.toNat queue.toNat).owed ∨
      ((s.flow peer.toNat queue.toNat).owed ≠ 0 ∧ s.due (s.flow peer.toNat queue.toNat).owedAt 10 = true)) :
    exec (.ackTimer peer queue) s = .next (s.after
      ((s.setFlow peer.toNat queue.toNat fun fl => { fl with owed := 0 }).sendFlowControl peer.toNat queue.toNat 6 [])) := by
  rw [exec_ackTimer, execAckTimer, gated_live _ _ live]
  simp only [if_pos owes]

theorem exec_ackTimer_early (few : (s.flow peer.toNat queue.toNat).owed < 8)
    (young : (s.flow peer.toNat queue.toNat).owed = 0 ∨ s.due (s.flow peer.toNat queue.toNat).owedAt 10 = false) :
    exec (.ackTimer peer queue) s = .next (s.after s) := by
  have notYet : ¬ (8 ≤ (s.flow peer.toNat queue.toNat).owed ∨
      ((s.flow peer.toNat queue.toNat).owed ≠ 0 ∧ s.due (s.flow peer.toNat queue.toNat).owedAt 10 = true)) := by
    rintro (many | ⟨owes, old⟩)
    · exact Nat.not_le.2 few many
    · exact young.elim owes fun y => Bool.false_ne_true (y.symm.trans old)
  rw [exec_ackTimer, execAckTimer, gated_live _ _ live]
  simp only [if_neg notYet]

end

theorem exec_keepaliveTimer_cases {peer : BitVec 16} {p : BitVec 4} : exec (.keepaliveTimer peer p) s = .next (s.after
    (if peer.toNat ≠ s.self ∧ s.peerOk peer.toNat = true ∧ p.toNat ∈ s.upPorts peer.toNat ∧
        SMap.get 0 s.fab.spoke (peer.toNat * 16 + p.toNat) ≤ s.now then
      (s.sendControl p.toNat peer.toNat 8 0 []).spoken peer.toNat p.toNat
    else s)) := by
  rw [exec_keepaliveTimer, execKeepaliveTimer, gated_live _ _ live]
  simp only [List.contains_iff_mem]

theorem exec_subreqTimeout_ends {tag : BitVec 32} {o : OutSub}
    (overdue : (s.fab.subs.find? fun o => o.tag == tag.toNat && o.answer.isNone && o.due != 0 && decide (o.due ≤ s.now)) = some o) :
    exec (.subreqTimeout tag) s = .next (s.after (s.endSub o .timeout [])) := by
  rw [exec_subreqTimeout, execSubreqTimeout, gated_live _ _ live]
  simp only [overdue]

/-! FRAME_TRANSMIT (R381 to R384) -/

section
variable {p : BitVec 4}

theorem exec_frameTransmit_shut (shut : s.mayTransmit p.toNat = false) : exec (.frameTransmit p) s = .next (s.after s) := by
  rw [exec_frameTransmit, execFrameTransmit, gated_live _ _ live]
  simp only [shut, Bool.not_false, if_true]

section
variable (may : s.mayTransmit p.toNat = true)
include may

theorem exec_frameTransmit_control {g : TxFrame} {rest : List TxFrame} (control : SMap.get [] s.fab.control p.toNat = g :: rest) :
    exec (.frameTransmit p) s = .next (s.after
      ((s.setFab fun x => { x with control := SMap.put [] x.control p.toNat rest }).putOnWire p.toNat g)) := by
  rw [exec_frameTransmit, execFrameTransmit, gated_live _ _ live]
  simp only [may, control, Bool.not_true, Bool.false_eq_true, if_false]

section
variable (noControl : SMap.get [] s.fab.control p.toNat = [])
include noControl

theorem exec_frameTransmit_queue {q : Nat} (next : s.nextQueue p.toNat = some q) :
    exec (.frameTransmit p) s = .next (s.after (s.sendHead p.toNat q)) := by
  rw [exec_frameTransmit, execFrameTransmit, gated_live _ _ live]
  simp only [may, noControl, next, Bool.not_true, Bool.false_eq_true, if_false]

theorem exec_frameTransmit_idle (idle : s.nextQueue p.toNat = none) : exec (.frameTransmit p) s = .next (s.after s) := by
  rw [exec_frameTransmit, execFrameTransmit, gated_live _ _ live]
  simp only [may, noControl, idle, Bool.not_true, Bool.false_eq_true, if_false]

end
end

theorem exec_fabricPortFailed_fails (on : s.on F.FAB_PORT_CFG_ENABLE p.toNat = true) :
    exec (.fabricPortFailed p) s = .next (s.after ((s.stopPort p.toNat portFailed).linkLost (0x100 + p.toNat))) := by
  rw [exec_fabricPortFailed, execFabricPortFailed, gated_live _ _ live]
  simp only [on, if_true]

theorem exec_fabricPortFailed_off (off : s.on F.FAB_PORT_CFG_ENABLE p.toNat = false) :
    exec (.fabricPortFailed p) s = .next (s.after s) := by
  rw [exec_fabricPortFailed, execFabricPortFailed, gated_live _ _ live]
  simp only [off, Bool.false_eq_true, if_false]

end
end

/-- Settles O52: each control frame does past the door what its row says, and each timer asks whether its time has passed. -/
theorem controlFramesAndFabricTimers : Obligations.ControlFramesAndFabricTimers := by
  unfold Obligations.ControlFramesAndFabricTimers
  intro s p f peer queue tag live p' n
  refine ⟨fun type _ t up whole headers sealed formed sender => ?_,
    fun a begun => ⟨exec_admitTimeout_refuses live begun, exec_admitTimeout_early live begun⟩,
    ⟨exec_retransmitTimeout_early live, fun out free due => ⟨exec_retransmitTimeout_resends live out free due,
      exec_retransmitTimeout_holds live out free due, exec_retransmitTimeout_moves live out free due⟩,
      exec_ackTimer_sends live, exec_ackTimer_early live⟩, ?_, fun o => exec_subreqTimeout_ends live, exec_frameTransmit_shut live,
    fun may => ⟨fun g rest => exec_frameTransmit_control live may, fun noControl => ⟨fun q => exec_frameTransmit_queue live may noControl,
      exec_frameTransmit_idle live may noControl⟩⟩, exec_fabricPortFailed_fails live, exec_fabricPortFailed_off live⟩
  · have door : PassesDoor s p' type f t := ⟨up, whole, headers, sealed, formed, sender⟩
    refine ⟨?_, ?_, ?_, fun unasked => ?_, fun a begun => ⟨?_, ?_, ?_⟩⟩
    · rintro rfl
      exact exec_ack_acks live door
    · rintro rfl k rfl
      refine ⟨fun held => ?_, fun free => ?_⟩
      · rw [exec_nak_acks live door, State.takeNak_held _ held]
      · rw [exec_nak_acks live door, State.takeNak_resends _ free]
    · rintro rfl
      exact exec_keepalive_acks live door
    · obtain ⟨hello, cert, proof⟩ := t.admission_none unasked
      refine ⟨?_, ?_, ?_⟩
      · rintro rfl
        rw [exec_admitHello_takes live door, hello]
      · rintro rfl
        rw [exec_admitCert_takes live door, cert]
      · rintro rfl
        rw [exec_admitProof_takes live door, proof]
    · rintro rfl
      rw [exec_admitHello_takes live door]
      refine ⟨fun again => ?_, fun first => ?_⟩
      · rw [t.takeHello_again begun again]
      · rw [t.takeHello_first begun first]
    · rintro chain good rfl uncertified
      rw [exec_admitCert_takes live door]
      refine ⟨fun long => ?_, fun fits more => ?_, fun fits last verified => ?_, fun fits last bad => ?_⟩
      · rw [t.takeCert_long begun uncertified long]
      · rw [t.takeCert_part begun uncertified fits more]
      · rw [t.takeCert_verified begun uncertified fits last (t.chainOk_iff.2 verified)]
      · rw [t.takeCert_refused begun uncertified fits last (Bool.eq_false_iff.2 (mt t.chainOk_iff.1 bad))]
    · rintro good rfl
      rw [exec_admitProof_takes live door]
      refine ⟨fun verified => ?_, fun bad => ?_⟩
      · rw [t.takeProof_admits begun (t.proofOk_iff.2 verified)]
      · rw [t.takeProof_refused begun (Bool.eq_false_iff.2 (mt t.proofOk_iff.1 bad))]
  · intro due
    rw [exec_keepaliveTimer_cases live]
    exact ⟨fun now => by rw [if_pos now], fun early => by rw [if_neg early]⟩

end Sys2Proof.Machine
end

section
/-! PROOFS. BROADCAST: its fields, its tree, and what it comes to (R386, R389, R395, R398); a node's part of a broadcast. -/
namespace Sys2Proof.Machine

/-! The effect of the command -/

/-- R398: the fields of a BROADCAST are in order. -/
def bcastFieldsOk (d : Bytes) : Bool :=
  opZero d 1 7 && decide (opN d 8 8 < 2 ^ 52) && decide (opN d 16 8 < 2 ^ 32) && decide (opN d 24 8 < 2 ^ 40) && opZero d 32 64

theorem bcastFieldsOk_iff {d : Bytes} : bcastFieldsOk d = true ↔
    opZero d 1 7 = true ∧ opN d 8 8 < 2 ^ 52 ∧ opN d 16 8 < 2 ^ 32 ∧ opN d 24 8 < 2 ^ 40 ∧ opZero d 32 64 = true := by
  simp only [bcastFieldsOk, Bool.and_eq_true, decide_eq_true_eq, and_assoc]

/-- R389, R395: the code that the tree of a slot gives a broadcast. -/
def State.bcastTree (s : State) (n : Nat) : Code :=
  if (s.comp n).removing then .routeStale else if (s.comp n).down.contains 0 then .fenced else .ok

/-- A BROADCAST under way: its request waits for the number that it has taken. -/
def State.bcastWaits (s : State) (c q n : Nat) (m : CompMap) : State :=
  s.draw.1.setReq c q fun r => { r with work := .global (m.rank * 65536 + s.draw.2 % 65536), comp := some n, epoch := m.epoch }

/-- What a BROADCAST of a descriptor does. -/
def broadcastEffect (c q : Nat) (d : Bytes) (s : State) : State :=
  let args : Code := if bcastFieldsOk d then .ok else .invalidArg
  match s.ctxComp c with
  | none => s.finishCode c q (args.worst .denied)
  | some (n, m) =>
    let x := if bcastFieldsOk d then s.ctxLoad c (opN d 8 8) (opN d 16 8) else (s, [], .ok)
    let code := (args.worst (x.1.bcastTree n)).worst x.2.2
    if code.bad then x.1.finishCode c q code
    else if opN d 16 8 = 0 then x.1.finishCode c q .ok
    else
      let num := m.rank * 65536 + x.1.draw.2 % 65536
      if m.rank = 0 then (x.1.bcastWaits c q n m).bcastHere n m num (opN d 24 8) x.2.1
      else (x.1.bcastWaits c q n m).sendGlobal m 0 opBcastData num (opN d 24 8) x.2.1

theorem exec_broadcast_effect {c : BitVec 12} {q : BitVec 16} (s : State) : exec (.broadcast c q) s =
    gated s fun s => s.runCmd c.toNat q.toNat 0x60 fun s r => broadcastEffect c.toNat q.toNat r.desc s := rfl

theorem Code.ok_worst (k : Code) : Code.ok.worst k = k := by cases k <;> rfl

/-- The codes of the tree are smaller than that of fields that are not in order (R28, R30). -/
theorem State.invalidArg_worst_bcastTree (s : State) (n : Nat) : Code.invalidArg.worst (s.bcastTree n) = .invalidArg := by
  unfold State.bcastTree
  split
  · rfl
  · split <;> rfl

section
variable (s : State) {c q n : Nat} {m : CompMap} {d : Bytes}

theorem broadcastEffect_unbound (unbound : s.ctxComp c = none) : broadcastEffect c q d s = s.finishCode c q .denied := by
  have worst (ok : Bool) : Code.worst (if ok then .ok else .invalidArg) .denied = .denied := by cases ok <;> rfl
  simp only [broadcastEffect, unbound, worst]

section
variable (bound : s.ctxComp c = some (n, m))
include bound

theorem broadcastEffect_disorderly (disorder : bcastFieldsOk d = false) : broadcastEffect c q d s = s.finishCode c q .invalidArg := by
  have worst : (Code.invalidArg.worst (s.bcastTree n)).worst .ok = .invalidArg := by rw [s.invalidArg_worst_bcastTree]; rfl
  have bad : Code.invalidArg.bad = true := rfl
  simp only [broadcastEffect, bound, disorder, Bool.false_eq_true, if_false, worst, bad, if_true]

section
variable {t : State} {bytes : Bytes} {code : Code} (order : bcastFieldsOk d = true)
  (load : s.ctxLoad c (opN d 8 8) (opN d 16 8) = (t, bytes, code))
include order load

theorem broadcastEffect_refused (bad : ((t.bcastTree n).worst code).bad = true) :
    broadcastEffect c q d s = t.finishCode c q ((t.bcastTree n).worst code) := by
  simp only [broadcastEffect, bound, order, load, if_true, Code.ok_worst, bad]

section
variable (good : ((t.bcastTree n).worst code).bad = false)
include good

theorem broadcastEffect_empty (empty : opN d 16 8 = 0) : broadcastEffect c q d s = t.finishCode c q .ok := by
  simp only [broadcastEffect, bound, order, load, if_true, Code.ok_worst, good, Bool.false_eq_true, if_false, if_pos empty]

theorem broadcastEffect_root (bytesLeft : opN d 16 8 ≠ 0) (root : m.rank = 0) : broadcastEffect c q d s =
    (t.bcastWaits c q n m).bcastHere n m (m.rank * 65536 + t.draw.2 % 65536) (opN d 24 8) bytes := by
  simp only [broadcastEffect, bound, order, load, if_true, Code.ok_worst, good, Bool.false_eq_true, if_false, if_neg bytesLeft, if_pos root]

theorem broadcastEffect_below (bytesLeft : opN d 16 8 ≠ 0) (below : m.rank ≠ 0) : broadcastEffect c q d s =
    (t.bcastWaits c q n m).sendGlobal m 0 opBcastData (m.rank * 65536 + t.draw.2 % 65536) (opN d 24 8) bytes := by
  simp only [broadcastEffect, bound, order, load, if_true, Code.ok_worst, good, Bool.false_eq_true, if_false, if_neg bytesLeft, if_neg below]

end
end
end
end

/-- A BROADCAST that its context may run, up to the effect that has been worked out. -/
theorem exec_broadcast_gives {s : State} {c : BitVec 12} {q : BitVec 16} {r : Req} {t : State} (runs : Runs s c.toNat q.toNat 0x60 r)
    (effect : broadcastEffect c.toNat q.toNat r.desc (s.begin c.toNat q.toNat r) = t) (needs : t.pool.needs = []) :
    exec (.broadcast c q) s = .next (s.after t) := by
  rw [exec_broadcast_effect, gated_live _ _ runs.live, runCmd_gives s runs ?_ needs]
  rw [State.accept_desc, effect]

/-! A node's part (R398) -/

/-- Data that the region of a slot holds is written and goes down, and this node waits for the ranks below. -/
theorem State.bcastHere_holds (s : State) {n : Nat} {m : CompMap} {num off : Nat} {b : Bytes}
    (fits : off + b.length ≤ s.f F.FAB_COMP_BCAST_SIZE_MIB n * 2 ^ 20)
    (inside : inHbm (s.fAddr F.FAB_COMP_BCAST_ADDR n + off) b.length = true) :
    s.bcastHere n m num off b =
      (((s.store (s.fAddr F.FAB_COMP_BCAST_ADDR n + off) b).sendChildren n m opBcastData num off b).setFab fun x =>
        { x with collects := x.collects ++ [⟨opBcastDone, n, 0, num, m.epoch, [], .ok⟩] }).settleBcast n num := by
  simp only [State.bcastHere, fits, inside, decide_true, Bool.and_self, if_true]

end Sys2Proof.Machine
end

section
/-! PROOFS. The timers of compositions: the drain of an epoch, held messages and held hand-offs (R389, R390, R456). -/
namespace Sys2Proof.Machine

section
variable (s : State) {n : Nat}

/-! The end of a drain, and of a removal (R389, R390) -/

theorem State.comp_of_fab {a b : State} (h : a.fab = b.fab) (n : Nat) : a.comp n = b.comp n := by rw [State.comp, h, State.comp]

@[simp] theorem State.showComp_comp (k : Nat) : (s.showComp k).comp n = s.comp n := State.comp_of_fab (s.setFs_fab ..) n

theorem State.endPrev_prev : ((s.endPrev n).comp n).prev = none := by
  unfold State.endPrev
  split
  · assumption
  · rw [State.showComp_comp, State.setComp_comp_self]

theorem State.endRemove_map : ((s.endRemove n).comp n).map = none := by
  rw [State.endRemove, State.comp_of_fab (State.setF_fab ..), State.showComp_comp, State.setComp_comp_self]
  rfl

theorem State.endRemove_remove : (s.endRemove n).f F.FAB_COMP_CTL_REMOVE n = 0 :=
  State.f_setF_self _ F.FAB_COMP_CTL_REMOVE n 0 (by decide) (by decide)

end

section
variable {s : State} (live : s.live = true)
include live

section
variable {k : BitVec 6}

theorem exec_epochDrainEnd_early (drains : ¬ ((s.comp k.toNat).prev.isSome = true ∧ (s.comp k.toNat).drainAt ≤ s.now))
    (stays : ¬ ((s.comp k.toNat).removing = true ∧ (s.comp k.toNat).removeAt ≤ s.now)) :
    exec (.epochDrainEnd k) s = .next (s.after s) := by
  rw [exec_epochDrainEnd, execEpochDrainEnd, gated_live _ _ live]
  simp only [if_neg drains, if_neg stays]

theorem exec_epochDrainEnd_ends (ended : (s.comp k.toNat).prev.isSome = true ∧ (s.comp k.toNat).drainAt ≤ s.now)
    (stays : (s.comp k.toNat).removing = false) : exec (.epochDrainEnd k) s = .next (s.after (s.endPrev k.toNat)) := by
  rw [exec_epochDrainEnd, execEpochDrainEnd, gated_live _ _ live]
  simp only [if_pos ended, stays, Bool.false_eq_true, false_and, if_false]

theorem exec_epochDrainEnd_removes (drains : ¬ ((s.comp k.toNat).prev.isSome = true ∧ (s.comp k.toNat).drainAt ≤ s.now))
    (removed : (s.comp k.toNat).removing = true) (late : (s.comp k.toNat).removeAt ≤ s.now) :
    exec (.epochDrainEnd k) s = .next (s.after (s.endRemove k.toNat)) := by
  rw [exec_epochDrainEnd, execEpochDrainEnd, gated_live _ _ live]
  simp only [if_neg drains, if_pos (And.intro removed late)]

end

/-! Held messages (R390) -/

section
variable {id : Nat}

theorem exec_heldMessageTimeout_stale {h : Held} (late : (s.fab.held.find? fun h => h.id == id && decide (h.due ≤ s.now)) = some h) :
    exec (.heldMessageTimeout id) s = .next (s.after
      ((s.setFab fun x => { x with held := x.held.filter fun y => y.id != id }).refuseStale h.type h.frame)) := by
  rw [exec_heldMessageTimeout, execHeldMessageTimeout, gated_live _ _ live]
  simp only [late]

theorem exec_heldMessageTimeout_early (early : (s.fab.held.find? fun h => h.id == id && decide (h.due ≤ s.now)) = none) :
    exec (.heldMessageTimeout id) s = .next (s.after s) := by
  rw [exec_heldMessageTimeout, execHeldMessageTimeout, gated_live _ _ live]
  simp only [early]

/-! Held hand-offs (R456) -/

/-- A state in which a hand-off is held no longer. -/
def State.dropHold (s : State) (id : Nat) : State := s.setFab fun x => { x with holds := x.holds.filter fun y => y.id != id }

section
variable {h : Handoff} (held : (s.fab.holds.find? fun h => h.id == id) = some h)
include held

section
variable (hold : s.on F.FLT_ADMIT_HOLD h.slot = true)
include hold

theorem exec_holdTimeout_quota (late : s.due h.since 100000 = true) :
    exec (.holdTimeout id) s = .next (s.after ((s.replyTo h.frame .quota []).dropHold id)) := by
  rw [exec_holdTimeout, execHoldTimeout, gated_live _ _ live]
  simp only [held, hold, late, if_true]
  rfl

theorem exec_holdTimeout_early (early : s.due h.since 100000 = false) : exec (.holdTimeout id) s = .next (s.after s) := by
  rw [exec_holdTimeout, execHoldTimeout, gated_live _ _ live]
  simp only [held, hold, early, if_true, Bool.false_eq_true, if_false]

end

theorem exec_holdTimeout_stages {t : State} (free : s.on F.FLT_ADMIT_HOLD h.slot = false) (staged : s.stageHandoff h.frame = some t) :
    exec (.holdTimeout id) s = .next (s.after (t.dropHold id)) := by
  rw [exec_holdTimeout, execHoldTimeout, gated_live _ _ live]
  simp only [held, free, staged, Bool.false_eq_true, if_false]
  rfl

end
end
end

/-- Settles O53: the fields, the binding, the tree and the bytes of a BROADCAST decide what it comes to, and each timer of a
composition finds what it ends. -/
theorem broadcastsAndCompositionTimers : Obligations.BroadcastsAndCompositionTimers := by
  unfold Obligations.BroadcastsAndCompositionTimers
  intro s₀ c q r₀ k id c' q' s d len off fieldsOk
  refine ⟨fun runs unbound => ?_, fun n m runs disorder bound => ?_, fun n m t bytes code runs fields bound load needs => ?_,
    fun s => ⟨fun live => ?_, fun n m num off b fits room => s.bcastHere_holds fits room⟩⟩
  · exact exec_broadcast_gives runs (broadcastEffect_unbound s unbound) (runs.finishCode_needs s₀ .denied)
  · have disorderly : bcastFieldsOk d = false := Bool.eq_false_iff.2 (mt bcastFieldsOk_iff.1 disorder)
    exact exec_broadcast_gives runs (broadcastEffect_disorderly s bound disorderly) (runs.finishCode_needs s₀ .invalidArg)
  · intro tree all
    have order : bcastFieldsOk d = true := bcastFieldsOk_iff.2 fields
    have finished (k : Code) : (t.finishCode c' q' k).pool.needs = [] := by rw [State.finishCode_pool, needs]
    refine ⟨fun bad => ?_, fun good empty => ?_, fun good bytesLeft => ⟨fun root still => ?_, fun below still => ?_⟩⟩
    · exact exec_broadcast_gives runs (broadcastEffect_refused s bound order load bad) (finished all)
    · exact exec_broadcast_gives runs (broadcastEffect_empty s bound order load good empty) (finished .ok)
    · exact exec_broadcast_gives runs (broadcastEffect_root s bound order load good bytesLeft root) still
    · exact exec_broadcast_gives runs (broadcastEffect_below s bound order load good bytesLeft below) still
  · exact ⟨exec_epochDrainEnd_early live, fun ended stays => ⟨exec_epochDrainEnd_ends live ended stays, s.endPrev_prev⟩,
      fun drains removed late => ⟨exec_epochDrainEnd_removes live drains removed late, s.endRemove_map, s.endRemove_remove⟩,
      fun h late => exec_heldMessageTimeout_stale live late, exec_heldMessageTimeout_early live,
      fun h held => ⟨exec_holdTimeout_quota live held, exec_holdTimeout_early live held,
        fun t free staged => exec_holdTimeout_stages live held free staged⟩⟩

end Sys2Proof.Machine
end

section
/-! PROOFS. Steps and commands as a whole: the queue, the one refusal, the stopped node, and the device summary (R511, R525 to R529, R543,
R548). -/
namespace Sys2Proof.Machine

/-! Every command, from its shape -/

/-- A command that answers a next state leaves the queue, and keeps the summary in agreement with its sources. -/
theorem exec_keeps {c : Instr} {s t : State} (h : exec c s = .next t) : t.pending = s.pending ∧ (Inv s → Inv t) := by
  rcases exec_shape c with live | running | ⟨ir, rfl⟩
  · obtain ⟨f, hf⟩ := live s
    rw [hf] at h
    exact ⟨gated_pending s h, fun i => gated_inv s i h⟩
  · obtain ⟨f, hf⟩ := running s
    rw [hf] at h
    exact ⟨always_pending s h, fun _ => always_inv s h⟩
  · rcases jtagInstruction_cases ir s with ⟨f, hf⟩ | ⟨-, refused⟩
    · rw [hf] at h
      exact ⟨always_pending s h, fun _ => always_inv s h⟩
    · rw [refused] at h
      cases h

/-- A command answers a next state, or is an instruction of the TAP that the manual does not name, where DEBUG_OFF is 0. -/
theorem exec_answers (c : Instr) (s : State) : (∃ t, exec c s = .next t) ∨
    ∃ ir, c = .jtagInstruction ir ∧ s.sec.fuses.debugOff = false ∧ exec c s = .refused .jtagPrivate := by
  rcases exec_shape c with live | running | ⟨ir, rfl⟩
  · obtain ⟨f, hf⟩ := live s
    exact .inl ⟨_, hf⟩
  · obtain ⟨f, hf⟩ := running s
    exact .inl ⟨_, hf⟩
  · rcases jtagInstruction_cases ir s with ⟨f, hf⟩ | refused
    · exact .inl ⟨_, hf⟩
    · exact .inr ⟨ir, rfl, refused⟩

/-- A step that answers a next state found an empty queue and changed nothing, or ran the command at its front. -/
theorem step_cases {s t : State} (h : step s = .next t) :
    (s.pending = [] ∧ t = s) ∨ ∃ c l, s.pending = c :: l ∧ exec c (s.withPending l) = .next t := by
  unfold step at h
  cases e : s.pending with
  | nil =>
    rw [e] at h
    cases h
    exact .inl ⟨rfl, rfl⟩
  | cons c l =>
    rw [e] at h
    exact .inr ⟨c, l, rfl, h⟩

/-- The queue bears on no part of the summary. -/
theorem Inv.withPending {s : State} (h : Inv s) (l : List Instr) : Inv (s.withPending l) := h

/-- Settles O4: a command that acts ends by making the summary follow its sources, and any other leaves the state. -/
theorem summaryFollowsItsSources : Obligations.SummaryFollowsItsSources := by
  unfold Obligations.SummaryFollowsItsSources
  intro s t i h
  rcases step_cases h with ⟨-, rfl⟩ | ⟨c, l, -, run⟩
  · exact i
  · exact (exec_keeps run).2 (i.withPending l)

/-- Settles O2: no command touches the queue, and a step runs its command on the state without it. -/
theorem commandsLeaveTheQueue : Obligations.CommandsLeaveTheQueue := by
  unfold Obligations.CommandsLeaveTheQueue
  refine ⟨fun c s t h => (exec_keeps h).1, fun s t h => ?_⟩
  rcases step_cases h with ⟨empty, rfl⟩ | ⟨c, l, front, run⟩
  · rw [empty, List.tail_nil]
  · rw [(exec_keeps run).1, front, List.tail_cons, State.withPending_pending]

/-- Settles O1: the step finds the queue that the state was given. -/
theorem stepRunsTheFrontCommand : Obligations.StepRunsTheFrontCommand := by
  unfold Obligations.StepRunsTheFrontCommand
  exact fun s c l => ⟨rfl, rfl⟩

/-- Settles O7: a command that is no event of a pin, a supply or a clock is gated by the node's clocks. -/
theorem stoppedNodeIgnoresCommands : Obligations.StoppedNodeIgnoresCommands := by
  unfold Obligations.StoppedNodeIgnoresCommands
  intro c s stopped gatedCmd
  obtain ⟨f, hf⟩ := actsLive_of_not_actsStopped c gatedCmd s
  rw [hf, gated_stopped s f stopped]

/-! The instruction of the TAP (R548) -/

theorem publicTap_iff (i : Nat) : i ∈ [tapExtest, tapSample, tapIdcode, tapBypass] ↔
    (i = tapExtest ∨ i = tapSample ∨ i = tapIdcode ∨ i = tapBypass) := by
  simp only [List.mem_cons, List.not_mem_nil, or_false]

theorem exec_jtag_public {ir : BitVec 8} (s : State) (h : ir.toNat ∈ [tapExtest, tapSample, tapIdcode, tapBypass]) :
    exec (.jtagInstruction ir) s = .next (s.after (s.setPins fun p => { p with tap := ir.toNat })) := by
  rw [exec_jtagInstruction, execJtagInstruction, if_pos ((publicTap_iff _).1 h)]
  rfl

theorem exec_jtag_bypass {ir : BitVec 8} (s : State) (h : ir.toNat ∉ [tapExtest, tapSample, tapIdcode, tapBypass])
    (off : s.sec.fuses.debugOff = true) :
    exec (.jtagInstruction ir) s = .next (s.after (s.setPins fun p => { p with tap := tapBypass })) := by
  rw [exec_jtagInstruction, execJtagInstruction, if_neg (mt (publicTap_iff _).2 h), if_pos off]
  rfl

theorem exec_jtag_private {ir : BitVec 8} (s : State) (h : ir.toNat ∉ [tapExtest, tapSample, tapIdcode, tapBypass])
    (on : s.sec.fuses.debugOff = false) : exec (.jtagInstruction ir) s = .refused .jtagPrivate := by
  rw [exec_jtagInstruction, execJtagInstruction, if_neg (mt (publicTap_iff _).2 h), if_neg (by rw [on]; exact Bool.false_ne_true)]

/-- Settles O3: every other command has a shape that answers a next state; the TAP's has three cases. -/
theorem onlyPrivateJtagIsRefused : Obligations.OnlyPrivateJtagIsRefused := by
  unfold Obligations.OnlyPrivateJtagIsRefused
  exact ⟨exec_answers, fun _ s => ⟨exec_jtag_public s, exec_jtag_bypass s, exec_jtag_private s⟩⟩

/-! The end of a command (R525, R526) -/

@[simp] theorem State.setIntP_nl0 (s : State) (b : Bool) : (s.setIntP b).nl0 = s.nl0 := rfl
@[simp] theorem State.setIntP_nl1 (s : State) (b : Bool) : (s.setIntP b).nl1 = s.nl1 := rfl
@[simp] theorem State.queueOf_nl0 (s t : State) : (t.queueOf s).nl0 = t.nl0 := rfl
@[simp] theorem State.queueOf_nl1 (s t : State) : (t.queueOf s).nl1 = t.nl1 := rfl

/-- Where P is 0 or was known to be nonzero, the end of a command sends no interrupt, so that the Nahel ports stay. -/
theorem State.after_nl {s t : State} (h : (s.after t).intP = false ∨ t.intP = true) :
    (s.after t).nl0 = t.nl0 ∧ (s.after t).nl1 = t.nl1 := by
  have silent : (t.queueOf s).follow.tellP = (t.queueOf s).follow := by
    unfold State.tellP
    apply if_neg
    rcases h with zero | known
    · rw [State.after, State.settle_intP] at zero
      rw [zero]
      exact Bool.false_ne_true
    · rw [State.follow, State.setFs_intP, State.queueOf_intP, known, Bool.not_true, Bool.and_false]
      exact Bool.false_ne_true
  constructor
  · rw [State.after, State.settle, silent, State.setIntP_nl0, State.follow, State.setFs_nl0, State.queueOf_nl0]
  · rw [State.after, State.settle, silent, State.setIntP_nl1, State.follow, State.setFs_nl1, State.queueOf_nl1]

/-- Settles O8: the end of a command sets two bits of TOP_INT_STAT, and the interrupt touches the Nahel ports alone. -/
theorem endOfCommandChangesTheSummaryAlone : Obligations.EndOfCommandChangesTheSummaryAlone := by
  unfold Obligations.EndOfCommandChangesTheSummaryAlone
  intro s t u
  refine ⟨State.after_pending s t, State.after_mem s t, State.after_ecc s t, State.after_ctxs s t, State.after_tlb s t,
    State.after_jobs s t, State.after_idxs s t, State.after_press s t, State.after_pressOut s t, State.after_toFree s t,
    State.after_cellar s t, State.after_pool s t, State.after_parts s t, State.after_prefetch s t, State.after_episodes s t,
    State.after_slow s t, State.after_fab s t, State.after_flt s t, State.after_sec s t, State.after_pwr s t, State.after_pins s t,
    State.after_free s t, State.after_reg s t, fun x m hi he => State.after_f_intStat s t m hi he, State.after_inv s t, State.after_nl⟩

theorem Reg.topIdxPend_resetVal (j : Nat) : Reg.topIdxPend.resetVal j = 0 := rfl

theorem State.reset_index : State.reset.f F.TOP_INT_STAT_INDEX 0 =
    b2n ((List.range 64).any fun j => decide (State.reset.reg .topIdxPend j ≠ 0)) := by
  have quiet : ((List.range 64).any fun j => decide (State.reset.reg .topIdxPend j ≠ 0)) = false :=
    List.any_eq_false.2 fun j _ => by rw [State.reg_reset, Reg.topIdxPend_resetVal]; exact Bool.false_ne_true
  rw [quiet, State.f_reset]
  decide

theorem State.reset_error : State.reset.f F.TOP_INT_STAT_ERROR 0 = b2n (decide (State.reset.reg .topErrSum 0 ≠ 0)) := by
  rw [State.f_reset, State.reg_reset]
  decide

theorem State.reset_intP : State.reset.intP = decide (State.reset.intPending ≠ 0) := by
  rw [State.intPending, State.reg_reset, State.reg_reset]
  decide

theorem State.reset_needs : State.reset.pool.needs = [] := rfl

theorem State.reset_inv : Inv State.reset := ⟨State.reset_index, State.reset_error, State.reset_intP, State.reset_needs⟩

/-- Settles O5: at reset every source of the summary is 0, and no byte of memory is listed. -/
theorem resetMeetsTheInvariants : Obligations.ResetMeetsTheInvariants := by
  unfold Obligations.ResetMeetsTheInvariants
  exact ⟨State.reset_inv, rfl⟩

/-! Accesses to no register (R9, R521) -/

section
variable (s : State) {src : Src} {a : Nat} {wide : Bool} (ha : s.mayAccess src = true) (window : a < 2 ^ 26)
  (unassigned : a % (if wide then 8 else 4) ≠ 0 ∨ Reg.find (a - a % 8) = none)
include ha window unassigned

theorem regWrite_unassigned (v : Nat) : s.regWrite src a wide v = s.recordErr .access src a true := by
  unfold State.regWrite
  rw [mayAccess_eq s ha, show decide (2 ^ 26 ≤ a) = false by simpa using window]
  rcases unassigned with misaligned | nowhere
  · have : accessAligned a wide = false := by simpa [accessAligned] using misaligned
    simp only [this, Bool.or_self, Bool.not_false, Bool.false_eq_true, if_true, if_false]
  · rw [nowhere]
    simp only [Bool.or_self, Bool.false_eq_true, if_false, ite_self]

theorem regRead_unassigned : s.regRead src a wide = (s.recordErr .access src a false, 0) := by
  unfold State.regRead
  rw [mayAccess_eq s ha, show decide (2 ^ 26 ≤ a) = false by simpa using window]
  rcases unassigned with misaligned | nowhere
  · have : accessAligned a wide = false := by simpa [accessAligned] using misaligned
    simp only [this, Bool.or_self, Bool.not_false, Bool.false_eq_true, if_true, if_false]
  · rw [nowhere]
    simp only [Bool.or_self, Bool.false_eq_true, if_false, ite_self]

end

/-- Settles O12: such an access comes to a recorded event, in a write and in a read. -/
theorem refusedAccessIsRecorded : Obligations.RefusedAccessIsRecorded := by
  unfold Obligations.RefusedAccessIsRecorded
  intro s src a wide v live ha window unassigned
  refine ⟨?_, ?_, ?_, fun w => ⟨?_, State.recordErr_mem s _ _ _ _, fun q j => State.recordErr_reg s _ _ _ _ q j⟩⟩
  · rw [exec_registerWrite, execRegisterWrite, gated_live _ _ live, regWrite_unassigned s ha window unassigned]
  · rw [exec_rcRead, execRcRead, gated_live _ _ live, regRead_unassigned s ha window unassigned]
  · rw [regRead_unassigned s ha window unassigned]
  · exact (State.f_recordErr_count s src _ w (by decide)).trans (State.f_countErr_bit s .access)

/-! Writes of the device summary (R525 to R527) -/

theorem State.sumWritten_mem (s : State) : s.sumWritten.mem = s.mem := by
  unfold State.sumWritten
  split
  · rw [State.setIntP_mem, State.devIntr_mem, State.follow_mem]
  · rw [State.follow_mem]

/-- A write of the device summary starts what only lets INDEX and ERROR follow and may send the interrupt. -/
theorem State.sumWritten_regs (s : State) : s.sumWritten.regs = s.follow.regs := by
  unfold State.sumWritten
  split
  · rw [State.setIntP_regs, State.devIntr_regs]
  · rfl

/-- The three registers of the device summary. -/
def isSummary : Reg → Bool
  | .topIntStat | .topIntEn | .topIdxPend => true
  | _ => false

theorem takes_summary {s : State} {src : Src} {r : Reg} (h : isSummary r = true) (live : s.live = true) (ha : s.mayAccess src = true)
    (i v : Nat) : Takes s src r i v := by
  cases r <;> simp [isSummary] at h <;> exact ⟨live, ha, rfl, rfl⟩

/-- A row that writes a register of the device summary: its fields, and then the summary's own action. -/
theorem summaryRow_takes (s : State) {src : Src} {r : Reg} {i v : Nat} (h : isSummary r = true) (live : s.live = true)
    (ha : s.mayAccess src = true) (hi : i < r.count) :
    gated s (fun s => s.writeReg src r i v) = .next (s.after (s.rowWrite r i v).sumWritten) := by
  rw [row_takes s (takes_summary h live ha i v) hi (by cases r <;> simp [isSummary] at h <;> rfl)]
  cases r <;> simp [isSummary] at h <;> rfl

theorem State.after_sumWritten_mem (s : State) (r : Reg) (i v : Nat) : (s.after (s.rowWrite r i v).sumWritten).mem = s.mem := by
  rw [State.after_mem, State.sumWritten_mem, State.rowWrite_mem]

/-- INDEX and ERROR alone follow a source: every register but TOP_INT_STAT stays. -/
theorem State.follow_reg (s : State) {q : Reg} {j : Nat} (h : q.addr j ≠ Reg.topIntStat.addr 0) : s.follow.reg q j = s.reg q j := by
  rw [State.follow]
  refine State.reg_setFs_of_ne s q 0 j _ fun x m => ?_
  simp only [List.mem_cons, List.not_mem_nil, or_false] at m
  rcases m with rfl | rfl <;> exact h

/-- A register of the summary other than TOP_INT_STAT holds after the row what the write made of it. -/
theorem State.after_sumWritten_reg (s : State) {r : Reg} {i : Nat} (hi : i < r.count) (h : r ≠ .topIntStat) (v : Nat) :
    (s.after (s.rowWrite r i v).sumWritten).reg r i = r.merged i (s.reg r i) (v % 2 ^ 64) (2 ^ 64 - 1) := by
  have apart : r.addr i ≠ Reg.topIntStat.addr 0 := Reg.addr_ne h hi (by decide)
  rw [State.after_reg s _ r i apart, State.reg_of_regs (State.sumWritten_regs _), State.follow_reg _ apart,
    State.rowWrite_reg_self s (Reg.merged_lt (s.reg_lt _ _) _ _)]

/-- A field of TOP_INT_STAT that follows no source holds after the row what the write made of it. -/
theorem State.after_sumWritten_f (s : State) (v : Nat) {x : Fld} (m : x ∈ Reg.topIntStat.fields 0) (hi : x ≠ F.TOP_INT_STAT_INDEX)
    (he : x ≠ F.TOP_INT_STAT_ERROR) : (s.after (s.rowWrite .topIntStat 0 v).sumWritten).f x 0 =
      bits (Reg.topIntStat.merged 0 (s.reg .topIntStat 0) (v % 2 ^ 64) (2 ^ 64 - 1)) x.hi x.lo := by
  rw [State.after_f_intStat s _ m hi he, State.f_of_regs (State.sumWritten_regs _), ← State.rowWrite_reg_self s (Reg.merged_lt (s.reg_lt _ _) _ _),
    State.follow, State.f_setFs_of_apart]
  · rw [State.f, Reg.fields_reg .topIntStat 0 x m]
  · intro y k
    rw [Reg.fields_reg .topIntStat 0 x m]
    simp only [List.mem_cons, List.not_mem_nil, or_false] at k
    rcases k with rfl | rfl <;> rfl
  · rfl
  · intro y k
    simp only [List.mem_cons, List.not_mem_nil, or_false] at k
    have beside : ∀ y ∈ Reg.topIntStat.fields 0, x ≠ y → x.hi < y.lo ∨ y.hi < x.lo :=
      fun _ => fieldsApart_of_ne (Reg.fields_apart .topIntStat 0) m
    rcases k with rfl | rfl
    · exact beside F.TOP_INT_STAT_INDEX (by decide) hi
    · exact beside F.TOP_INT_STAT_ERROR (by decide) he

theorem bits_whole {w : Nat} (h : w < 2 ^ 64) : bits w 63 0 = w := by
  rw [bits, Nat.pow_zero, Nat.div_one, Nat.mod_eq_of_lt h]

/-- TOP_IDX_PEND is one W1C field of 64 bits (R527). -/
theorem Reg.merged_topIdxPend {j old v : Nat} (h : old < 2 ^ 64) (hv : v < 2 ^ 64) :
    Reg.topIdxPend.merged j old v (2 ^ 64 - 1) = clearBits old v := by
  have field := Reg.bits_merged (r := .topIdxPend) (i := j) (f := F.TOP_IDX_PEND_PEND) (List.mem_singleton.2 rfl) old v (2 ^ 64 - 1)
  simp only [F.TOP_IDX_PEND_PEND] at field
  rwa [bits_whole (Reg.merged_lt h _ _), bits_whole h, Nat.and_two_pow_sub_one_eq_mod, Nat.mod_eq_of_lt hv, bits_whole hv] at field

/-- Settles O15: each form is a row that writes a register of the summary. -/
theorem summaryRegistersAreWritten : Obligations.SummaryRegistersAreWritten := by
  unfold Obligations.SummaryRegistersAreWritten
  intro s src v live ha
  have whole : v.toNat % 2 ^ 64 = v.toNat := Nat.mod_eq_of_lt v.isLt
  refine ⟨⟨_, summaryRow_takes s (v := v.toNat) rfl live ha (i := 0) (by decide), State.after_inv s _,
      State.after_sumWritten_mem s .topIntStat 0 _, fun x m w1c => ?_⟩,
    ⟨_, summaryRow_takes s (v := v.toNat) rfl live ha (i := 0) (by decide), State.after_inv s _, State.after_sumWritten_mem s .topIntEn 0 _, ?_⟩,
    fun j => ⟨_, summaryRow_takes s (v := v.toNat) rfl live ha j.isLt, State.after_inv s _, State.after_sumWritten_mem s .topIdxPend _ _, ?_⟩⟩
  · rw [State.after_sumWritten_f s v.toNat m (by rintro rfl; cases w1c) (by rintro rfl; cases w1c), Reg.bits_merged m, w1c, and_mask, whole,
      State.f, Reg.fields_reg .topIntStat 0 x m]
  · rw [State.after_sumWritten_reg s (by decide) (by decide), whole]
  · rw [State.after_sumWritten_reg s j.isLt (by decide), whole, Reg.merged_topIdxPend (s.reg_lt _ _) v.isLt]

end Sys2Proof.Machine
end

section
/-! PROOFS. The rollback count, and the register that shows it (R481, R495). -/
namespace Sys2Proof.Machine

/-- The rollback count is the place of the first 0 among the 64 bits. -/
theorem rollbackCount_eq_findIdx (w : Nat) : rollbackCount w = (List.range 64).findIdx fun i => !w.testBit i := by
  rw [rollbackCount, List.takeWhile_eq_take_findIdx_not, List.length_take, Nat.min_eq_left List.findIdx_le_length]

theorem rollbackCount_le (w : Nat) : rollbackCount w ≤ 64 := by
  simpa [rollbackCount_eq_findIdx] using List.findIdx_le_length (xs := List.range 64) (p := fun i => !w.testBit i)

theorem testBit_of_lt_rollbackCount {w i : Nat} (h : i < rollbackCount w) : w.testBit i = true := by
  rw [rollbackCount_eq_findIdx] at h
  simpa using List.not_of_lt_findIdx h

theorem testBit_rollbackCount {w : Nat} (h : rollbackCount w < 64) : w.testBit (rollbackCount w) = false := by
  rw [rollbackCount_eq_findIdx] at h ⊢
  have first := List.findIdx_getElem (xs := List.range 64) (p := fun i => !w.testBit i) (w := by simpa using h)
  rw [List.getElem_range, Bool.not_eq_true'] at first
  exact first

/-- Where the bits of another value agree as far as the first 0, that 0 is its first as well. -/
theorem rollbackCount_congr {w x : Nat} (same : ∀ i, i ≤ rollbackCount w → x.testBit i = w.testBit i) : rollbackCount x = rollbackCount w := by
  rcases Nat.lt_trichotomy (rollbackCount x) (rollbackCount w) with less | equal | more
  · have zero := testBit_rollbackCount (Nat.lt_of_lt_of_le less (rollbackCount_le w))
    rw [same _ less.le, testBit_of_lt_rollbackCount less] at zero
    cases zero
  · exact equal
  · have one := testBit_of_lt_rollbackCount more
    rw [same _ le_rfl, testBit_rollbackCount (Nat.lt_of_lt_of_le more (rollbackCount_le x))] at one
    cases one

theorem b2n_le (b : Bool) : b2n b ≤ 1 := by cases b <;> decide

/-- The fields of SEC_FUSE_CFG below the rollback count take 10 bits (R495). -/
theorem State.bits_fuseCfg (s : State) : bits s.fuseCfg 16 10 = rollbackCount s.sec.fuses.rollback.toNat := by
  have count := rollbackCount_le s.sec.fuses.rollback.toNat
  have grade := Bool.toNat_le s.sec.fuses.grade
  have debug := Bool.toNat_le s.sec.fuses.debugOff
  have revoke := s.sec.fuses.revoke.isLt
  have slot (k : Nat) := b2n_le (s.sec.fuses.present k)
  have slots : (List.range 4).foldl (fun a k => a + b2n (s.sec.fuses.present k) * 2 ^ k) 0 ≤ 15 := by
    have s0 := slot 0; have s1 := slot 1; have s2 := slot 2; have s3 := slot 3
    simp only [List.range_succ, List.range_zero, List.nil_append, List.cons_append, List.foldl_cons, List.foldl_nil]
    omega
  simp only [bits, State.fuseCfg]
  omega

/-- Settles O60: the count is the place of the first 0 bit, and lies above the other fields of SEC_FUSE_CFG. -/
theorem rollbackCountStopsAtTheFirstZero : Obligations.RollbackCountStopsAtTheFirstZero := by
  unfold Obligations.RollbackCountStopsAtTheFirstZero
  exact ⟨fun w => ⟨rollbackCount_le w, fun _ => testBit_of_lt_rollbackCount, testBit_rollbackCount, fun _ => rollbackCount_congr⟩,
    State.bits_fuseCfg⟩

end Sys2Proof.Machine
end

section
/-! PROOFS. Nahel ports enabled and disabled, resets, self-tests, checkpoint runs and holds started by register writes, and the resets
that no register starts (R413, R414, R428, R433, R436, R438 to R440, R444, R445, R452, R454, R456, R459, R464). -/
namespace Sys2Proof.Machine

section
variable (s : State) {src : Src}

/-! NL_PORT_CFG (R428) -/

theorem State.nlPortWritten_enables {p old : Nat} (on : s.on F.NL_PORT_CFG_ENABLE p = true) (was : old.testBit 0 = false) :
    s.nlPortWritten p old = (s.nlTrain p).nlRefCheck p := by
  simp only [State.nlPortWritten, State.nlEnableWritten, on, was, beq_iff_eq, Bool.true_eq_false, if_false, if_true]

theorem State.nlPortWritten_disables {p old : Nat} (off : s.on F.NL_PORT_CFG_ENABLE p = false) (was : old.testBit 0 = true) :
    s.nlPortWritten p old = ((s.nlEnter p nlDown).nlDownNow p).nlRefCheck p := by
  simp only [State.nlPortWritten, State.nlEnableWritten, off, was, beq_iff_eq, Bool.false_eq_true, if_false]

/-! FLT_KICK and FLT_RESET (R459) -/

/-- A write of FLT_RESET with one of its bits 0 to 4 starts what they name. -/
theorem writeReg_fltReset {w : Nat} (h : Takes s src .fltReset 0 w) (starts : bits (w % 2 ^ 64) 4 0 ≠ 0) :
    s.writeReg src .fltReset 0 w = (s.rowWrite .fltReset 0 w).fltReset src (w % 2 ^ 64) := by
  rw [writeReg_takes s h (by decide), applyWrite_eq s 0 _ _ rfl, and_mask, written_fltReset, if_neg starts, State.rowWrite]

theorem exec_kick_takes (h : Takes s src .fltKick 0 1) : exec (.kick src) s = .next (s.after (s.rowWrite .fltKick 0 1).kick) := by
  rw [exec_kick, execKick, row_takes s h (by decide) rfl, written_fltKick, if_pos (by decide)]

/-! Resets that no register starts (R433, R444, R445) -/

/-- The operation that a tile works on for a request of the context ends, and the context is reset (R20, R353). -/
theorem State.stageFault_hangs {t c q : Nat} {r : Req} (slot : s.req c q = some r) (tile : t < 64) (runs : s.keeps r = false)
    (serves : ((s.reqPers r).any fun p => s.tileOf (s.reqPart c r) p == t) = true) :
    s.stageFault t c q = s.hangFault c causeStage (some q) r.slot .uncorrectable := by
  simp only [State.stageFault, slot, serves, runs, decide_eq_true tile, Bool.and_self, Bool.not_false, if_true]

/-! FLT_CKPT (R464) -/

theorem ckptWord_go (op i ns : Nat) : bit (ckptWord op i ns % 2 ^ 64) 0 = true := by
  simp only [bit, ckptWord, Nat.testBit_zero, decide_eq_true_eq]
  omega

/-- A row that writes FLT_CKPT with GO starts the run that the register then names. -/
theorem fltCkpt_row {op i ns : Nat} (h : Takes s src .fltCkpt 0 (ckptWord op i ns)) :
    gated s (fun s => s.writeReg src .fltCkpt 0 (ckptWord op i ns)) =
      .next (s.after ((s.rowWrite .fltCkpt 0 (ckptWord op i ns)).startCkpt src)) := by
  rw [row_takes s h (by decide) rfl, written_fltCkpt, if_pos (ckptWord_go op i ns)]

/-! FLT_ADMIT (R456) -/

theorem exec_hold_stores {n : BitVec 6} {v : Word} (h : Takes s src .fltAdmit n.toNat v.toNat)
    (keeps : (s.reg .fltAdmit n.toNat).testBit 0 = false ∨ (s.rowWrite .fltAdmit n.toNat v.toNat).on F.FLT_ADMIT_HOLD n.toNat = true) :
    exec (.hold src n v) s = .next (s.after (s.rowWrite .fltAdmit n.toNat v.toNat)) := by
  rw [exec_hold, execHold, row_takes s h n.isLt rfl, written_fltAdmit, if_neg]
  rcases keeps with was | on
  · rw [was, Bool.false_and]
    exact Bool.false_ne_true
  · rw [on, Bool.not_true, Bool.and_false]
    exact Bool.false_ne_true

theorem exec_hold_releases {n : BitVec 6} {v : Word} (h : Takes s src .fltAdmit n.toNat v.toNat)
    (was : (s.reg .fltAdmit n.toNat).testBit 0 = true) (off : (s.rowWrite .fltAdmit n.toNat v.toNat).on F.FLT_ADMIT_HOLD n.toNat = false) :
    exec (.hold src n v) s = .next (s.after ((s.rowWrite .fltAdmit n.toNat v.toNat).stageHolds n.toNat)) := by
  rw [exec_hold, execHold, row_takes s h n.isLt rfl, written_fltAdmit, was, off, Bool.not_false, Bool.and_self, if_pos rfl]

end

/-- Settles O21: the write stores the fields, and a change of ENABLE starts the training or takes the port down. -/
theorem nahelPortRowsTakeEffect : Obligations.NahelPortRowsTakeEffect := by
  unfold Obligations.NahelPortRowsTakeEffect
  intro s src p v h
  refine ⟨fun on was => ?_, fun off was => ?_⟩
  · rw [exec_nahelPortEnable, execNahelPortEnable, row_takes s h p.isLt rfl, written_nlPortCfg, State.nlPortWritten_enables _ on was]
  · rw [exec_nahelPortDisable, execNahelPortDisable, row_takes s h p.isLt rfl, written_nlPortCfg, State.nlPortWritten_disables _ off was]

/-- Settles O22: five rows write FLT_RESET, each with its bit; the other causes act without a register. -/
theorem faultRowsTakeEffect : Obligations.FaultRowsTakeEffect := by
  unfold Obligations.FaultRowsTakeEffect
  intro s src t n
  refine ⟨fun h => ⟨_, exec_kick_takes s h, ?_, ?_, ?_⟩, ?_, ?_, ?_, ?_, ?_, fun live from64 below72 => ?_, fun c q r live slot tile runs serves => ?_,
    fun live => ⟨?_, ?_⟩⟩
  · rw [State.kick, State.setFlt_flt]
  · rw [State.kick, State.setFlt_mem, State.rowWrite_mem]
  · rw [State.kick, State.setFlt_ctxs, State.rowWrite_ctxs]
  · intro w h starts
    rw [exec_engine, execEngine, gated_live _ _ h.1]
    dsimp only
    rw [writeReg_fltReset s h starts]
  · intro w h starts
    rw [exec_part, execPart, gated_live _ _ h.1]
    dsimp only
    rw [writeReg_fltReset s h starts]
  · intro w h starts
    rw [exec_chip, execChip, gated_live _ _ h.1]
    dsimp only
    rw [writeReg_fltReset s h starts]
  · intro w h starts
    rw [exec_pcyc, execPcyc, gated_live _ _ h.1, writeReg_fltReset s h starts]
  · intro w h starts
    rw [exec_selftest, execSelftest, gated_live _ _ h.1, writeReg_fltReset s h starts]
  · rw [exec_engine, execEngine, gated_live _ _ live]
    simp only [from64, below72, and_self, if_true]
  · rw [exec_engine, execEngine, gated_live _ _ live]
    simp only [State.stageFault_hangs s slot tile runs serves]
  · rw [exec_part, execPart, gated_live _ _ live]
  · rw [exec_chip, execChip, gated_live _ _ live]

/-- Settles O23: three rows write FLT_CKPT with GO, and HOLD writes FLT_ADMIT. -/
theorem checkpointAndHoldRowsTakeEffect : Obligations.CheckpointAndHoldRowsTakeEffect := by
  unfold Obligations.CheckpointAndHoldRowsTakeEffect
  intro s src i ns n v
  refine ⟨fun op => ⟨?_, ?_, ?_⟩, fun h => ⟨exec_hold_stores s h, exec_hold_releases s h⟩⟩
  · rintro rfl h
    exact fltCkpt_row s h
  · rintro rfl h
    exact fltCkpt_row s h
  · rintro rfl h
    exact fltCkpt_row s h

end Sys2Proof.Machine
end

section
/-! PROOFS. The link of a Nahel port: training, flits with acknowledgement and resending, and the moderation of interrupts (R413 to R416,
R427, R429). -/
namespace Sys2Proof.Machine

section
variable (s : State) {p : BitVec 1} (live : s.live = true)

theorem State.setNl_nl_self (q : Nat) (f : NlPort → NlPort) : (s.setNl q f).nl q = f (s.nl q) := by
  unfold State.setNl State.nl
  split <;> rfl

include live

/-! Training (R413, R429) -/

section
variable {rev : Bool} {pol : BitVec 4}

theorem exec_trainingStateEnd_detect (st : s.nlState p.toNat = nlDetect) :
    exec (.trainingStateEnd p rev pol) s = .next (s.after (s.nlEnter p.toNat nlEqualize)) := by
  rw [exec_trainingStateEnd, execTrainingStateEnd, gated_live _ _ live]
  simp only [st, if_true]

theorem exec_trainingStateEnd_equalize (st : s.nlState p.toNat = nlEqualize) :
    exec (.trainingStateEnd p rev pol) s = .next (s.after (s.nlEnter p.toNat nlAlign)) := by
  rw [exec_trainingStateEnd, execTrainingStateEnd, gated_live _ _ live]
  simp only [st, if_neg (show nlEqualize ≠ nlDetect by decide), if_true]

/-- What a port reports at the end of ALIGN and of RETRAIN (R429). -/
def State.nlReport (s : State) (p : BitVec 1) (rev : Bool) (pol : BitVec 4) : State :=
  s.setFs p.toNat [(F.NL_PORT_STAT_REVERSED, b2n rev), (F.NL_PORT_STAT_POLARITY, pol.toNat)]

theorem exec_trainingStateEnd_align (st : s.nlState p.toNat = nlAlign) :
    exec (.trainingStateEnd p rev pol) s = .next (s.after ((s.nlReport p rev pol).nlActivate p.toNat true)) := by
  rw [exec_trainingStateEnd, execTrainingStateEnd, gated_live _ _ live]
  simp only [st, if_neg (show nlAlign ≠ nlDetect by decide), if_neg (show nlAlign ≠ nlEqualize by decide), if_true]
  rfl

theorem exec_trainingStateEnd_retrain (st : s.nlState p.toNat = nlRetrain) :
    exec (.trainingStateEnd p rev pol) s = .next (s.after ((s.nlReport p rev pol).nlActivate p.toNat false)) := by
  rw [exec_trainingStateEnd, execTrainingStateEnd, gated_live _ _ live]
  simp only [st, if_neg (show nlRetrain ≠ nlDetect by decide), if_neg (show nlRetrain ≠ nlEqualize by decide),
    if_neg (show nlRetrain ≠ nlAlign by decide), if_true]
  rfl

theorem exec_trainingStateEnd_other (d : s.nlState p.toNat ≠ nlDetect) (e : s.nlState p.toNat ≠ nlEqualize) (a : s.nlState p.toNat ≠ nlAlign)
    (r : s.nlState p.toNat ≠ nlRetrain) : exec (.trainingStateEnd p rev pol) s = .next (s.after s) := by
  rw [exec_trainingStateEnd, execTrainingStateEnd, gated_live _ _ live]
  simp only [if_neg d, if_neg e, if_neg a, if_neg r]

end

theorem exec_trainingTimeout_idle (idle : s.nlState p.toNat = nlDown ∨ s.nlState p.toNat = nlActive ∨ s.nlState p.toNat = nlFailed ∨
    s.due (s.nl p.toNat).stateAt (nlBound (s.nlState p.toNat)) = false) : exec (.trainingTimeout p) s = .next (s.after s) := by
  rw [exec_trainingTimeout, execTrainingTimeout, gated_live _ _ live]
  simp only [Bool.not_eq_true', if_pos idle]

/-- A state of training past its bound: one failed attempt more, and the third fails the port. -/
theorem exec_trainingTimeout_late (down : s.nlState p.toNat ≠ nlDown) (active : s.nlState p.toNat ≠ nlActive)
    (failed : s.nlState p.toNat ≠ nlFailed) (late : s.due (s.nl p.toNat).stateAt (nlBound (s.nlState p.toNat)) = true) :
    exec (.trainingTimeout p) s = .next (s.after (
      let t := s.setNl p.toNat fun n => { n with attempts := n.attempts + 1 }
      if 2 ≤ (s.nl p.toNat).attempts then t.nlFail p.toNat
      else t.nlEnter p.toNat (if s.nlState p.toNat = nlRetrain then nlRetrain else nlDetect))) := by
  rw [exec_trainingTimeout, execTrainingTimeout, gated_live _ _ live]
  simp only [down, active, failed, late, Bool.not_true, Bool.false_eq_true, or_self, if_false, State.setNl_nl_self,
    show 3 ≤ (s.nl p.toNat).attempts + 1 ↔ 2 ≤ (s.nl p.toNat).attempts by omega]

theorem exec_alignmentBlock_kept {lane : BitVec 2} {num : Byte} (st : s.nlState p.toNat = nlAlign ∨ s.nlState p.toNat = nlRetrain) :
    exec (.alignmentBlock p lane num) s = .next (s.after (s.setNl p.toNat fun n =>
      { n with aligned := (n.aligned.filter fun x => x.1 != lane.toNat) ++ [(lane.toNat, num.toNat)] })) := by
  rw [exec_alignmentBlock, execAlignmentBlock, gated_live _ _ live]
  simp only [if_pos st]

theorem exec_alignmentBlock_other {lane : BitVec 2} {num : Byte} (a : s.nlState p.toNat ≠ nlAlign) (r : s.nlState p.toNat ≠ nlRetrain) :
    exec (.alignmentBlock p lane num) s = .next (s.after s) := by
  rw [exec_alignmentBlock, execAlignmentBlock, gated_live _ _ live]
  simp only [a, r, or_self, if_false]

/-! Flits (R415, R416) -/

/-- The three rows of a flit do the same: the flit's own TYPE says what it is. -/
theorem exec_flit {flit : Bytes} {cmd : Instr} (h : cmd ∈ [Instr.dataFlit p flit, .idleFlit p flit, .nakFlit p flit]) :
    exec cmd s = .next (s.after (s.takeFlit p.toNat flit (State.takePayload p.toNat))) := by
  simp only [List.mem_cons, List.not_mem_nil, or_false] at h
  rcases h with rfl | rfl | rfl
  · rw [exec_dataFlit, execDataFlit, gated_live _ _ live]
  · rw [exec_idleFlit, execIdleFlit, gated_live _ _ live]
  · rw [exec_nakFlit, execNakFlit, gated_live _ _ live]

omit live

/-- R416: how far ahead of the flit expected a flit is. -/
def State.flitAhead (s : State) (q : Nat) (g : Bytes) : Nat := (leAt g 2 2 % 4096 + 4096 - (s.nl q).rxSeq) % 4096

/-- R415, R416: a good flit once it has acknowledged: NAK resends, DATA in its turn hands over its payload, a gap gets a NAK. -/
def State.actOnFlit (s : State) (q : Nat) (g : Bytes) (take : State → Bytes → State) : State :=
  if byteAt g 0 = 2 then (s.nlAck q (leAt g 2 2 % 4096)).nlResend q (leAt g 2 2 % 4096)
  else if byteAt g 0 = 0 then (if s.flitAhead q g ≠ 0 ∧ s.flitAhead q g < 2048 then s.nlNak q else s)
  else if s.flitAhead q g = 0 then take (s.setNl q fun n => { n with rxSeq := (n.rxSeq + 1) % 4096, nakFor := none }) (slice g 8 228)
  else if s.flitAhead q g < 2048 then s.nlNak q else s

section
variable {q : Nat} {g : Bytes} {take : State → Bytes → State}

theorem actOnFlit_nak (h : byteAt g 0 = 2) : s.actOnFlit q g take = (s.nlAck q (leAt g 2 2 % 4096)).nlResend q (leAt g 2 2 % 4096) := if_pos h

theorem actOnFlit_idle (h : byteAt g 0 = 0) (place : s.flitAhead q g = 0 ∨ 2048 ≤ s.flitAhead q g) : s.actOnFlit q g take = s := by
  rw [State.actOnFlit, if_neg (by omega), if_pos h, if_neg (by omega)]

theorem actOnFlit_gap (h : byteAt g 0 ≤ 1) (gap : s.flitAhead q g ≠ 0) (place : s.flitAhead q g < 2048) :
    s.actOnFlit q g take = s.nlNak q := by
  rw [State.actOnFlit, if_neg (by omega), if_neg gap, if_pos (And.intro gap place), if_pos place, ite_self]

theorem actOnFlit_data (h : byteAt g 0 = 1) (place : s.flitAhead q g = 0) : s.actOnFlit q g take =
    take (s.setNl q fun n => { n with rxSeq := (n.rxSeq + 1) % 4096, nakFor := none }) (slice g 8 228) := by
  rw [State.actOnFlit, if_neg (by omega), if_neg (by omega), if_pos place]

theorem actOnFlit_behind (h : byteAt g 0 = 1) (place : 2048 ≤ s.flitAhead q g) : s.actOnFlit q g take = s := by
  rw [State.actOnFlit, if_neg (by omega), if_neg (by omega), if_neg (by omega), if_neg (by omega)]

end

section
variable {q : Nat} {flit : Bytes} {take : State → Bytes → State}

theorem takeFlit_inactive (st : s.nlState q ≠ nlActive) : s.takeFlit q flit take = s := by
  rw [State.takeFlit, if_pos st]

/-- The mark of a flit that an injection damages, taken away: it acts once (R448). -/
def State.clearForced (s : State) (q : Nat) : State := s.setFlt fun x => { x with forceBad := x.forceBad.filter (· != 0x110 + q) }

variable (st : s.nlState q = nlActive)
include st

/-- A flit whose checks fail (R415). -/
theorem takeFlit_bad (bad : s.flt.forceBad.contains (0x110 + q) = true ∨ openFlit flit = none) :
    s.takeFlit q flit take = ((s.clearForced q).addF F.NL_LINK_ERR_CRC_FAIL q 1).nlNak q := by
  have dropped : (if s.flt.forceBad.contains (0x110 + q) = true then none else openFlit flit) = none := by
    rcases bad with forced | damaged
    · rw [if_pos forced]
    · rw [damaged, ite_self]
  rw [State.takeFlit, if_neg (not_not.2 st)]
  simp only [dropped]
  rfl

/-- A good flit first acknowledges; what it does then is said by its TYPE and its place (R415, R416). -/
theorem takeFlit_good {g : Bytes} {fixed : Bool} (good : s.flt.forceBad.contains (0x110 + q) = false)
    (opened : openFlit flit = some (g, fixed)) (listed : byteAt g 0 < 3) :
    s.takeFlit q flit take =
      ((if fixed then (s.clearForced q).addF F.NL_LINK_ERR_FEC_CORR q 1 else s.clearForced q).nlAck q (leAt g 4 2 % 4096)).actOnFlit q g take := by
  rw [State.takeFlit, if_neg (not_not.2 st)]
  simp only [good, opened, Bool.false_eq_true, if_false, if_neg (Nat.not_le.2 listed)]
  rfl

end

include live

/-! Resending and moderation (R416, R427) -/

theorem exec_replayTimeout_late {x : Nat × Bytes} {rest : List (Nat × Bytes)} (kept : (s.nl p.toNat).replay = x :: rest)
    (st : s.nlState p.toNat = nlActive)
    (late : s.due (s.nl p.toNat).progress (ceilDiv (16 * max 1 (s.f F.NL_PORT_CFG_REPLAY_16NS p.toNat)) 1000) = true) :
    exec (.replayTimeout p) s = .next (s.after (s.nlResend p.toNat x.1)) := by
  rw [exec_replayTimeout, execReplayTimeout, gated_live _ _ live]
  simp only [kept, st, late, and_self, if_true]

theorem exec_replayTimeout_early {x : Nat × Bytes} {rest : List (Nat × Bytes)} (kept : (s.nl p.toNat).replay = x :: rest)
    (early : s.nlState p.toNat ≠ nlActive ∨
      s.due (s.nl p.toNat).progress (ceilDiv (16 * max 1 (s.f F.NL_PORT_CFG_REPLAY_16NS p.toNat)) 1000) = false) :
    exec (.replayTimeout p) s = .next (s.after s) := by
  rw [exec_replayTimeout, execReplayTimeout, gated_live _ _ live]
  simp only [kept]
  rw [if_neg]
  rintro ⟨st, late⟩
  rcases early with other | early
  · exact other st
  · rw [early] at late
    cases late

theorem exec_replayTimeout_empty (empty : (s.nl p.toNat).replay = []) : exec (.replayTimeout p) s = .next (s.after s) := by
  rw [exec_replayTimeout, execReplayTimeout, gated_live _ _ live]
  simp only [empty]

theorem exec_moderationTimer_open {vec : BitVec 16} (h : ((s.nl p.toNat).quiet.find? fun x => x.1 == vec.toNat) = none) :
    exec (.moderationTimer p vec) s = .next (s.after s) := by
  rw [exec_moderationTimer, execModerationTimer, gated_live _ _ live]
  simp only [h]

/-- The interval of a vector ends once its time has passed; an event that fell inside it leaves. -/
theorem exec_moderationTimer_found {vec : BitVec 16} {x : Nat × Nat} (h : ((s.nl p.toNat).quiet.find? fun x => x.1 == vec.toNat) = some x) :
    exec (.moderationTimer p vec) s = .next (s.after (
      let t := s.setNl p.toNat fun n =>
        { n with quiet := n.quiet.filter fun x => x.1 != vec.toNat, owed := n.owed.filter (· != vec.toNat) }
      if s.due x.2 (ceilDiv (s.f F.NL_PORT_CFG_MOD_100NS p.toNat) 10) = false then s
      else if (s.nl p.toNat).owed.contains vec.toNat then t.raiseIntr p.toNat vec.toNat else t)) := by
  rw [exec_moderationTimer, execModerationTimer, gated_live _ _ live]
  simp only [h, Bool.not_eq_true']

end

/-- Settles O54: each row of the link by the state of its port, and a flit by its checks, its TYPE and its place. -/
theorem nahelLinkRuns : Obligations.NahelLinkRuns := by
  unfold Obligations.NahelLinkRuns
  intro s p rev pol lane num flit vec live p' st told
  refine ⟨exec_trainingStateEnd_detect s live, exec_trainingStateEnd_equalize s live, exec_trainingStateEnd_align s live,
    exec_trainingStateEnd_retrain s live, exec_trainingStateEnd_other s live, exec_trainingTimeout_idle s live,
    fun down active failed late => ⟨fun third => ?_, fun earlier => ?_⟩, exec_alignmentBlock_kept s live, exec_alignmentBlock_other s live,
    fun cmd row => ⟨fun inactive => ?_, fun active => ⟨fun bad => ?_, fun g fixed good opened => ?_⟩⟩,
    fun x rest kept => ⟨exec_replayTimeout_late s live kept, exec_replayTimeout_early s live kept⟩, exec_replayTimeout_empty s live,
    exec_moderationTimer_open s live, fun x found => ⟨fun early => ?_, fun late owed => ?_, fun late quiet => ?_⟩⟩
  · rw [exec_trainingTimeout_late s live down active failed late, if_pos third]
  · rw [exec_trainingTimeout_late s live down active failed late, if_neg (Nat.not_le.2 earlier)]
  · rw [exec_flit s live row, takeFlit_inactive s inactive]
  · rw [exec_flit s live row, takeFlit_bad s active bad]
    rfl
  · intro y q k ahead
    have taken (listed : byteAt g 0 < 3) : s.takeFlit p' flit (State.takePayload p') = k.actOnFlit p' g (State.takePayload p') :=
      takeFlit_good s active good opened listed
    rw [exec_flit s live row]
    refine ⟨fun nak => ?_, fun idle place => ?_, fun type gap place => ?_, fun data inOrder => ?_, fun data behind => ?_⟩
    · rw [taken (by omega), actOnFlit_nak k nak]
    · rw [taken (by omega), actOnFlit_idle k idle place]
    · rw [taken (by omega), actOnFlit_gap k type gap place]
    · rw [taken (by omega), actOnFlit_data k data inOrder]
    · rw [taken (by omega), actOnFlit_behind k data behind]
  · rw [exec_moderationTimer_found s live found, if_pos early]
  · rw [exec_moderationTimer_found s live found, if_neg (by rw [late]; decide), if_pos owed]
  · rw [exec_moderationTimer_found s live found, if_neg (by rw [late]; decide), if_neg (by rw [quiet]; decide)]

end Sys2Proof.Machine
end

section
/-! PROOFS. Packets of a Nahel port: credit and form, RD and WR through the host windows, coherence and management messages (R417 to R421,
R425, R485). -/
namespace Sys2Proof.Machine

section
variable (s : State)

/-! Credit and form (R417, R418) -/

/-- The packet of a class that arrives takes a credit of it. -/
def State.takeCls (s : State) (q c : Nat) : State := s.setNl q fun n => { n with rxCred := n.rxCred.modify c (· - 1) }

theorem State.takeCls_compat (q c : Nat) : (s.takeCls q c).compat = s.compat := by
  rw [State.compat, State.on, State.takeCls, State.setNl_f, ← State.on, ← State.compat]

section
variable {q type : Nat} {k : Packet} {go : State → State}

theorem takePacket_inactive (st : s.nlState q ≠ nlActive) : s.takePacket q type k go = s := by
  rw [State.takePacket, if_pos st]

variable (st : s.nlState q = nlActive)
include st

/-- A packet whose class holds no credit is counted, and nothing else (R417). -/
theorem takePacket_unpaid {c : Nat} (cls : rxClass type k.np = some c) (empty : (s.nl q).rxCred.getD c 0 = 0) :
    s.takePacket q type k go = s.addF F.NL_TXN_ERR_MALFORMED q 1 := by
  rw [State.takePacket, if_neg (not_not.2 st)]
  simp only [cls, empty, beq_self_eq_true, if_true]

/-- A packet of a wrong form is counted, its credit goes back, and it is answered where its type asks for a CPL (R418). -/
theorem takePacket_malformed {c : Nat} (cls : rxClass type k.np = some c) (paid : (s.nl q).rxCred.getD c 0 ≠ 0) (bad : packetOk type k = false) :
    s.takePacket q type k go =
      (let m := ((s.takeCls q c).addF F.NL_TXN_ERR_MALFORMED q 1).nlFree q (some c)
       if asksCpl type k then m.sendCpl q k .invalidArg [] else m) := by
  rw [State.takePacket, if_neg (not_not.2 st)]
  simp only [cls, beq_eq_false_iff_ne.2 paid, bad, Bool.false_eq_true, Bool.not_false, if_false, if_true]
  rfl

/-- A packet in order does what its type says (R418), outside compatibility mode whatever its generation (R426). -/
theorem takePacket_taken {c : Nat} (cls : rxClass type k.np = some c) (paid : (s.nl q).rxCred.getD c 0 ≠ 0) (good : packetOk type k = true)
    (plain : s.compat = false) : s.takePacket q type k go = go (s.takeCls q c) := by
  have plain' := (s.takeCls_compat q c).trans plain
  rw [State.takeCls] at plain'
  rw [State.takePacket, if_neg (not_not.2 st)]
  simp only [cls, beq_eq_false_iff_ne.2 paid, good, plain', Bool.false_and, Bool.false_eq_true, Bool.not_true, if_false]
  rfl

/-- CREDIT needs no credit of its own, and is not bound to a generation. -/
theorem takePacket_credit (good : packetOk 7 k = true) : s.takePacket q 7 k go = go s := by
  rw [State.takePacket, if_neg (not_not.2 st)]
  simp only [rxClass, good, Bool.false_eq_true, Bool.not_true, if_false]
  simp

end

/-- Each row of a packet takes the packet of its type. -/
theorem exec_packet (live : s.live = true) {p : BitVec 1} {k : Packet} {cmd : Instr} {type : Nat}
    (row : (cmd, type) ∈ [(Instr.rdPacket p k, 1), (.wrPacket p k, 2), (.cohPacket p k, 4), (.intrReceived p k, 5), (.mgmtPacket p k, 6),
      (.credit p k, 7)]) : exec cmd s = .next (s.after (s.packetIn p.toNat type k)) := by
  simp only [List.mem_cons, List.not_mem_nil, or_false, Prod.mk.injEq] at row
  rcases row with ⟨rfl, rfl⟩ | ⟨rfl, rfl⟩ | ⟨rfl, rfl⟩ | ⟨rfl, rfl⟩ | ⟨rfl, rfl⟩ | ⟨rfl, rfl⟩
  · rw [exec_rdPacket, execRdPacket, gated_live _ _ live]
  · rw [exec_wrPacket, execWrPacket, gated_live _ _ live]
  · rw [exec_cohPacket, execCohPacket, gated_live _ _ live]
  · rw [exec_intrReceived, execIntrReceived, gated_live _ _ live]
    rfl
  · rw [exec_mgmtPacket, execMgmtPacket, gated_live _ _ live]
  · rw [exec_credit, execCredit, gated_live _ _ live]
    rfl

/-! RD and WR (R419 to R421) -/

/-- One packet that waits on either port, and need not wait longer, is performed (R114). -/
theorem State.serveWaiting_one {p : BitVec 1} {r : HostReq} (head : (s.nl p.toNat).inq = [r]) (other : (s.nl (1 - p.toNat)).inq = [])
    (free : s.hostWaits r = false) :
    s.serveWaiting = (s.setNl p.toNat fun n => { n with inq := n.inq.drop 1 }).performHost p.toNat r := by
  have port : p.toNat = 0 ∨ p.toNat = 1 := by have := p.isLt; omega
  rcases port with zero | one
  · rw [zero] at head other ⊢
    change s.nl0.inq = [r] at head
    change s.nl1.inq = [] at other
    have heads : s.hostHeads = [(0, r)] := by simp [State.hostHeads, State.nl, head, other, free]
    rw [State.serveWaiting, head, other, State.serveHosts.eq_def]
    simp only [List.length_singleton, List.length_nil, heads]
    rfl
  · rw [one] at head other ⊢
    change s.nl1.inq = [r] at head
    change s.nl0.inq = [] at other
    have heads : s.hostHeads = [(1, r)] := by simp [State.hostHeads, State.nl, head, other, free]
    rw [State.serveWaiting, head, other, State.serveHosts.eq_def]
    simp only [List.length_singleton, List.length_nil, heads]
    rfl

/-- R419: the access that a RD or WR asks for, as it arrives. -/
def State.hostReq (s : State) (q type : Nat) (k : Packet) : HostReq :=
  ⟨type, s.draw.2, s.windowOk (16 * q + k.win.toNat) (pktAddr k) (accessLen type k) (type == 1) (type == 2), k⟩

theorem State.setNl_nl_other {q q' : Nat} (f : NlPort → NlPort) (hq : q = 0 ∧ q' ≠ 0 ∨ q ≠ 0 ∧ q' = 0) : (s.setNl q f).nl q' = s.nl q' := by
  unfold State.setNl State.nl
  rcases hq with ⟨a, b⟩ | ⟨a, b⟩ <;> simp only [a, b, if_true, if_false]

/-- With nothing waiting, an access outside cask space whose bank is free is performed as it arrives. -/
theorem State.takeAccess_atOnce {p : BitVec 1} {type : Nat} {k : Packet} (outside : devWindow (pktAddr k) ≠ some 2) (none0 : s.nl0.inq = [])
    (none1 : s.nl1.inq = []) (free : (s.draw.1.setNl p.toNat fun x => { x with inq := x.inq ++ [s.hostReq p.toNat type k] }).hostWaits
      (s.hostReq p.toNat type k) = false) :
    s.takeAccess p.toNat type k = ((s.draw.1.setNl p.toNat fun x => { x with inq := x.inq ++ [s.hostReq p.toNat type k] }).setNl p.toNat
      fun n => { n with inq := n.inq.drop 1 }).performHost p.toNat (s.hostReq p.toNat type k) := by
  have nothing (q : Nat) : (s.draw.1.nl q).inq = [] := by
    unfold State.nl
    split
    · exact none0
    · exact none1
  have unfolded : s.takeAccess p.toNat type k =
      (s.draw.1.setNl p.toNat fun x => { x with inq := x.inq ++ [s.hostReq p.toNat type k] }).serveWaiting := by
    rw [State.takeAccess]
    exact if_neg outside
  rw [unfolded, State.serveWaiting_one _ (p := p) _ _ free]
  · rw [State.setNl_nl_self]
    simp only [nothing, List.nil_append]
  · rw [State.setNl_nl_other _ _ (by have := p.isLt; omega), nothing]

section
variable {q : Nat} {r : HostReq}

theorem performHost_recovery (st : s.bootState = bootRecovery) :
    s.performHost q r = (s.sendCpl q r.pkt .denied []).nlFree q (rxClass r.type r.pkt.np) := by
  rw [State.performHost, if_pos st]

variable (st : s.bootState ≠ bootRecovery)
include st

theorem performHost_fenced (fenced : s.chipFenced = true) :
    s.performHost q r = (s.answerHost q r.type r.pkt .fenced []).nlFree q (rxClass r.type r.pkt.np) := by
  rw [State.performHost, if_neg st, if_pos fenced]

variable (open_ : s.chipFenced = false)
include open_

theorem performHost_denied (outside : r.passed = false) : s.performHost q r =
    ((s.addF F.NL_TXN_ERR_DENIED q 1).answerHost q r.type r.pkt .denied []).nlFree q (rxClass r.type r.pkt.np) := by
  simp only [State.performHost, if_neg st, open_, outside, Bool.not_false, Bool.false_eq_true, if_true, if_false]

variable (inside : r.passed = true)
include inside

theorem performHost_registers (window : devWindow (pktAddr r.pkt) = some 0) :
    s.performHost q r = (s.hostReg q r.type r.pkt).nlFree q (rxClass r.type r.pkt.np) := by
  simp only [State.performHost, if_neg st, open_, inside, window, Bool.not_true, Bool.false_eq_true, if_false]

theorem performHost_memory (window : devWindow (pktAddr r.pkt) = some 1) :
    s.performHost q r = (s.hostMem q r.type r.pkt).nlFree q (rxClass r.type r.pkt.np) := by
  simp only [State.performHost, if_neg st, open_, inside, window, Bool.not_true, Bool.false_eq_true, if_false]

end

section
variable {q : Nat} {k : Packet}

/-- An access of the registers that is 4 or 8 bytes wide (R9, R421). -/
theorem hostReg_read (wide : rdLen k = 4 ∨ rdLen k = 8) : s.hostReg q 1 k =
    (s.regRead (srcOf q) (pktAddr k) (rdLen k == 8)).1.answerHost q 1 k .ok
      (leBytes (rdLen k) (s.regRead (srcOf q) (pktAddr k) (rdLen k == 8)).2) := by
  have len : accessLen 1 k = rdLen k := rfl
  rw [State.hostReg, len, if_neg (by omega), if_pos rfl]

theorem hostReg_write (wide : k.body.length = 4 ∨ k.body.length = 8) : s.hostReg q 2 k =
    (s.regWrite (srcOf q) (pktAddr k) (k.body.length == 8) (leNat k.body)).answerHost q 2 k .ok [] := by
  have len : accessLen 2 k = k.body.length := rfl
  rw [State.hostReg, len, if_neg (by omega), if_neg (by decide)]

theorem hostMem_read : s.hostMem q 1 k =
    (s.load (pktAddr k) (rdLen k)).1.answerHost q 1 k (s.load (pktAddr k) (rdLen k)).2.2 (s.load (pktAddr k) (rdLen k)).2.1 := rfl

theorem hostMem_write : s.hostMem q 2 k =
    ((s.noteParts (pktAddr k) k.body.length).store (pktAddr k) k.body).answerHost q 2 k .ok [] := rfl

end

/-- What an access that passes the checks of its window has met (R420). -/
theorem State.windowOk_passes {w a len : Nat} {rd wr : Bool} (h : s.windowOk w a len rd wr = true) :
    s.on F.NL_WIN_CFG_VALID w = true ∧ s.fAddr F.NL_WIN_BASE_BASE w ≤ a ∧
      a + len ≤ s.fAddr F.NL_WIN_BASE_BASE w + s.f F.NL_WIN_CFG_SIZE_64K w * 65536 ∧
      (rd = true → s.on F.NL_WIN_CFG_READ w = true) ∧ (wr = true → s.on F.NL_WIN_CFG_WRITE w = true) := by
  simp only [State.windowOk, Bool.and_eq_true, decide_eq_true_eq, Bool.or_eq_true, Bool.not_eq_true'] at h
  obtain ⟨⟨⟨⟨⟨⟨⟨valid, low⟩, high⟩, read⟩, write⟩, -⟩, -⟩, -⟩ := h
  refine ⟨valid, low, high, fun asked => ?_, fun asked => ?_⟩
  · rw [asked] at read
    exact read.resolve_left (by decide)
  · rw [asked] at write
    exact write.resolve_left (by decide)

/-! Coherence messages (R420, R425, R442) -/

section
variable {q : Nat} {k : Packet}

theorem takeCoh_malformed (bad : cohFits k = false) : s.takeCoh q k = s.addF F.NL_TXN_ERR_MALFORMED q 1 := by
  simp only [State.takeCoh, bad, Bool.not_false, if_true]

theorem takeCoh_fenced (good : cohFits k = true) (fenced : s.chipFenced = true) : s.takeCoh q k = s.cohRefuse q k .fenced := by
  simp only [State.takeCoh, good, fenced, Bool.not_true, Bool.false_eq_true, if_false, if_true]

theorem takeCoh_denied (good : cohFits k = true) (open_ : s.chipFenced = false)
    (outside : s.windowOk (16 * q + k.win.toNat) (pktAddr k) 64 (cohNeeds (byteAt k.body 0)).1 (cohNeeds (byteAt k.body 0)).2 = false) :
    s.takeCoh q k = (s.addF F.NL_TXN_ERR_DENIED q 1).cohRefuse q k .denied := by
  simp only [State.takeCoh, good, open_, outside, Bool.not_true, Bool.not_false, Bool.true_or, Bool.false_eq_true, if_false, if_true]

/-! Management messages (R485, R490) -/

theorem takeMgmt_malformed (bad : k.body.length < 9 ∨ allZero k.body 1 7 = false) :
    s.takeMgmt q k = s.mgmtCpl q k.tag.toNat .invalidArg [] := by
  rw [State.takeMgmt]
  apply if_pos
  simpa using bad

variable (long : 9 ≤ k.body.length) (clear : allZero k.body 1 7 = true)
include long clear

/-- A MGMT body in order is long enough and its reserved bytes are 0. -/
theorem mgmtGuard : (decide (k.body.length < 9) || !allZero k.body 1 7) = false := by simp [clear, long]

theorem takeMgmt_spdm (cls : byteAt k.body 0 = 1) : s.takeMgmt q k = s.spdmMessage (.nahel (q == 1)) k.tag.toNat (k.body.drop 8) := by
  simp only [State.takeMgmt, mgmtGuard long clear, cls, Bool.false_eq_true, if_false, if_true]

theorem takeMgmt_unlisted (one : byteAt k.body 0 ≠ 1) (two : byteAt k.body 0 ≠ 2) :
    s.takeMgmt q k = s.mgmtCpl q k.tag.toNat .invalidArg [] := by
  simp only [State.takeMgmt, mgmtGuard long clear, one, two, Bool.false_eq_true, if_false, ne_eq, not_false_eq_true, if_true]

variable (cls : byteAt k.body 0 = 2)
include cls

theorem takeMgmt_status (msg : byteAt k.body 8 = 1) : s.takeMgmt q k = s.rcvStatus q k.tag.toNat := by
  simp only [State.takeMgmt, mgmtGuard long clear, cls, msg, Bool.false_eq_true, if_false, OfNat.ofNat_ne_one, ne_eq, not_true]

theorem takeMgmt_write (msg : byteAt k.body 8 = 2) (room : 16 ≤ k.body.length) :
    s.takeMgmt q k = s.rcvWrite q k.tag.toNat (leAt k.body 12 4) (k.body.drop 16) := by
  simp only [State.takeMgmt, mgmtGuard long clear, cls, msg, Bool.false_eq_true, if_false, OfNat.ofNat_ne_one, ne_eq, not_true,
    if_neg (Nat.not_lt.2 room)]

theorem takeMgmt_run (msg : byteAt k.body 8 = 3) (room : 13 ≤ k.body.length) (zero : allZero k.body 9 3 = true) :
    s.takeMgmt q k = s.rcvRun q k.tag.toNat (bit (byteAt k.body 12) 0) := by
  simp only [State.takeMgmt, mgmtGuard long clear, cls, msg, Bool.false_eq_true, if_false, OfNat.ofNat_ne_one, ne_eq, not_true, zero,
    Bool.not_true, Bool.or_false, decide_eq_true_eq, if_neg (Nat.not_lt.2 room)]

end
end

/-- Settles O55: each packet by its credit, its form and its type; accesses by the window of their address, messages by their bytes. -/
theorem nahelPacketsAreServed : Obligations.NahelPacketsAreServed := by
  unfold Obligations.NahelPacketsAreServed
  intro s p k live p'
  refine ⟨fun cmd type row => ⟨fun inactive => ?_, fun c active cls empty => ?_, fun c active cls paid => ⟨fun bad => ?_, fun good plain => ?_⟩,
      fun active credit good => ?_⟩,
    fun type outside none0 none1 => State.takeAccess_atOnce s (p := p) outside none0 none1, fun r asked => ?_,
    fun w a len rd wr => State.windowOk_passes s, takeCoh_malformed s, takeCoh_fenced s, takeCoh_denied s, takeMgmt_malformed s,
    fun long clear => ⟨takeMgmt_spdm s long clear, takeMgmt_status s long clear, takeMgmt_write s long clear, takeMgmt_run s long clear,
      takeMgmt_unlisted s long clear⟩⟩
  · rw [exec_packet s live row, State.packetIn, takePacket_inactive s inactive]
  · rw [exec_packet s live row, State.packetIn, takePacket_unpaid s active cls empty]
  · rw [exec_packet s live row, State.packetIn, takePacket_malformed s active cls paid bad]
    rfl
  · rw [exec_packet s live row, State.packetIn, takePacket_taken s active cls paid good plain]
    refine ⟨?_, ?_, ?_, ?_⟩
    · rintro (rfl | rfl) <;> rfl
    · rintro rfl
      rfl
    · rintro rfl
      rfl
    · rintro rfl
      rfl
  · subst credit
    rw [exec_packet s live row, State.packetIn, takePacket_credit s active good]
    rfl
  · obtain ⟨type, n, ok, k'⟩ := r
    cases asked
    intro back
    refine ⟨performHost_recovery s, fun st => performHost_fenced s st, fun st open_ => ⟨performHost_denied s st open_,
      fun inside window => ⟨?_, ?_⟩, fun inside window => ⟨?_, ?_⟩⟩⟩
    · rintro rfl wide
      rw [performHost_registers s st open_ inside window, hostReg_read s wide]
    · rintro rfl wide
      rw [performHost_registers s st open_ inside window, hostReg_write s wide]
    · rintro rfl
      rw [performHost_memory s st open_ inside window, hostMem_read s]
    · rintro rfl
      rw [performHost_memory s st open_ inside window, hostMem_write s]

end Sys2Proof.Machine
end

section
/-! PROOFS. Recovery and update messages, fuse burns, the SPDM responder and the MCTP control commands (R481, R485 to R487, R490 to R493,
R496). -/
namespace Sys2Proof.Machine

section
variable (s : State)

/-! The checks of an image, and the ROM's decision (R483, R484) -/

theorem fwCheck_le (b : Bytes) (x : Fuses) : fwCheck b x ≤ 6 := by
  unfold fwCheck
  repeat' split
  all_goals decide

theorem State.bootImage_bad {b : Bytes} {source : Nat} (bad : fwCheck b s.sec.fuses ≠ 0) : s.bootImage b source =
    s.setFs 0 [(F.SEC_BOOT_STAT_STATE, bootRecovery), (F.SEC_BOOT_STAT_RESULT, fwCheck b s.sec.fuses)] := by
  rw [State.bootImage]
  exact if_pos bad

theorem recoveryFields_reg (r : Nat) :
    ∀ x ∈ [(F.SEC_BOOT_STAT_STATE, bootRecovery), (F.SEC_BOOT_STAT_RESULT, r)], x.1.reg = .secBootStat := by
  simp [F.SEC_BOOT_STAT_STATE, F.SEC_BOOT_STAT_RESULT]

/-- An image that fails a check leaves the ROM in recovery, with the check's RESULT. -/
theorem State.bootImage_bad_state {b : Bytes} {source : Nat} (bad : fwCheck b s.sec.fuses ≠ 0) :
    (s.bootImage b source).bootState = bootRecovery := by
  rw [State.bootImage_bad s bad, State.bootState]
  exact State.f_setFs_of_mem s 0 .secBootStat (recoveryFields_reg _) rfl List.mem_cons_self

theorem State.bootImage_bad_result {b : Bytes} {source : Nat} (bad : fwCheck b s.sec.fuses ≠ 0) :
    (s.bootImage b source).f F.SEC_BOOT_STAT_RESULT 0 = fwCheck b s.sec.fuses := by
  have small := fwCheck_le b s.sec.fuses
  rw [State.bootImage_bad s bad,
    State.f_setFs_of_mem s 0 .secBootStat (recoveryFields_reg _) rfl (List.mem_cons_of_mem _ List.mem_cons_self)]
  simp only [F.SEC_BOOT_STAT_RESULT]
  omega

/-- An image that passes its checks runs as firmware. -/
theorem State.bootImage_good_state {b : Bytes} {source : Nat} (good : fwCheck b s.sec.fuses = 0) :
    (s.bootImage b source).bootState = bootFirmware := by
  rw [State.bootImage]
  simp only [good, ne_eq, not_true, if_false]
  rw [State.bootState, State.setFlt_f, State.setSec_f, State.f_setF_of_ne _ _ (by decide)]
  refine State.f_setFs_of_mem _ 0 .secBootStat ?_ rfl List.mem_cons_self
  simp [F.SEC_BOOT_STAT_STATE, F.SEC_BOOT_STAT_RESULT, F.SEC_BOOT_STAT_SOURCE, F.SEC_BOOT_STAT_KEY_SLOT, F.SEC_BOOT_STAT_SVN]

/-! STATUS, WRITE and RUN (R485 to R487) -/

section
variable {p tag : Nat}

theorem rcvStatus_inactive (st : s.nlState p ≠ nlActive) : s.rcvStatus p tag = s := if_pos st
theorem rcvWrite_inactive (st : s.nlState p ≠ nlActive) (off : Nat) (d : Bytes) : s.rcvWrite p tag off d = s := if_pos st
theorem rcvRun_inactive (st : s.nlState p ≠ nlActive) (persist : Bool) : s.rcvRun p tag persist = s := if_pos st

variable (st : s.nlState p = nlActive)
include st

theorem rcvStatus_denied (denied : s.rcvDenied p = true) : s.rcvStatus p tag = s.mgmtCpl p tag .denied [] := by
  rw [State.rcvStatus, if_neg (not_not.2 st), if_pos denied]
theorem rcvWrite_denied (denied : s.rcvDenied p = true) (off : Nat) (d : Bytes) :
    s.rcvWrite p tag off d = s.mgmtCpl p tag .denied [] := by
  rw [State.rcvWrite, if_neg (not_not.2 st), if_pos denied]
theorem rcvRun_denied (denied : s.rcvDenied p = true) (persist : Bool) : s.rcvRun p tag persist = s.mgmtCpl p tag .denied [] := by
  rw [State.rcvRun, if_neg (not_not.2 st), if_pos denied]

variable (heard : s.rcvDenied p = false)
include heard

theorem rcvStatus_answers : s.rcvStatus p tag = s.mgmtCpl p tag .ok (leBytes 8 (s.reg .secBootStat 0) ++ leBytes 4 s.rcvCount) := by
  rw [State.rcvStatus, if_neg (not_not.2 st), if_neg (by rw [heard]; exact Bool.false_ne_true)]

/-- R485, R486: the sizes and places that a WRITE may have, and the session that one past the first needs. -/
def State.writeFits (s : State) (off n : Nat) : Prop :=
  off % 64 = 0 ∧ n % 64 = 0 ∧ 64 ≤ n ∧ n ≤ 4096 ∧ off + n ≤ 2 ^ 24 ∧ (off = 0 ∨ s.sec.session ≠ none)

omit st heard in
theorem not_writeFits_iff (off n : Nat) : ¬ s.writeFits off n ↔ (off % 64 ≠ 0 ∨ n % 64 ≠ 0 ∨ n < 64 ∨ 4096 < n ∨ 2 ^ 24 < off + n ∨
    (off ≠ 0 ∧ s.sec.session = none)) := by
  rw [State.writeFits]
  by_cases none : s.sec.session = none
  · simp only [none, ne_eq, not_true, or_false, and_true]
    omega
  · simp only [none, ne_eq, not_false_eq_true, or_true, and_true, and_false, or_false]
    omega

theorem rcvWrite_refused {off : Nat} {d : Bytes} (bad : ¬ s.writeFits off d.length) :
    s.rcvWrite p tag off d = s.mgmtCpl p tag .invalidArg [] := by
  rw [State.rcvWrite, if_neg (not_not.2 st), if_neg (by rw [heard]; exact Bool.false_ne_true)]
  exact if_pos ((not_writeFits_iff s off d.length).1 bad)

/-- The session that a WRITE joins: a new one at offset 0 (R486). -/
def State.rcvOld (s : State) (p off : Nat) : RcvSession := if off = 0 then ⟨p, [], 0⟩ else s.sec.session.getD ⟨p, [], 0⟩

/-- The bytes of a session with those of a WRITE put at its offset. -/
def RcvSession.written (x : RcvSession) (off : Nat) (d : Bytes) : SMap Byte :=
  ((List.range d.length).zip d).foldl (fun (m : SMap Byte) x => SMap.put 0#8 m (off + x.1) x.2) x.bytes

theorem rcvWrite_taken {off : Nat} {d : Bytes} (good : s.writeFits off d.length) : s.rcvWrite p tag off d =
    ((s.setSec fun x => { x with session := some ⟨p, (s.rcvOld p off).written off d, (s.rcvOld p off).count + d.length⟩ }).setF
      F.SEC_BOOT_STAT_RCV_PORT 0 p).mgmtCpl p tag .ok [] := by
  rw [State.rcvWrite, if_neg (not_not.2 st), if_neg (by rw [heard]; exact Bool.false_ne_true)]
  exact if_neg fun h => (not_writeFits_iff s off d.length).2 h good

/-- R486: the image that RUN runs; without a session, one of zeros, which fails its checks. -/
def State.rcvImage (s : State) : Bytes := match s.sec.session with | some x => x.image | none => zeros 64

variable {persist : Bool}

theorem rcvRun_boots (rom : s.bootState = bootRecovery) (good : fwCheck s.rcvImage s.sec.fuses = 0) :
    s.rcvRun p tag persist = (s.bootImage s.rcvImage 1).mgmtCpl p tag .ok [] := by
  rw [State.rcvRun, if_neg (not_not.2 st), if_neg (by rw [heard]; exact Bool.false_ne_true)]
  exact (if_pos rom).trans (if_pos (State.bootImage_good_state s good))

theorem rcvRun_fails (rom : s.bootState = bootRecovery) (bad : fwCheck s.rcvImage s.sec.fuses ≠ 0) : s.rcvRun p tag persist =
    (s.bootImage s.rcvImage 1).mgmtCpl p tag .invalidArg [BitVec.ofNat 8 (fwCheck s.rcvImage s.sec.fuses)] := by
  have stays : (s.bootImage s.rcvImage 1).bootState ≠ bootFirmware := by rw [State.bootImage_bad_state s bad]; decide
  rw [State.rcvRun, if_neg (not_not.2 st), if_neg (by rw [heard]; exact Bool.false_ne_true)]
  rw [← State.bootImage_bad_result s (source := 1) bad]
  exact (if_pos rom).trans (if_neg stays)

variable (firmware : s.bootState ≠ bootRecovery)
include firmware

theorem rcvRun_transient : s.rcvRun p tag false = s.mgmtCpl p tag .invalidArg [] := by
  rw [State.rcvRun, if_neg (not_not.2 st), if_neg (by rw [heard]; exact Bool.false_ne_true)]
  exact (if_neg firmware).trans (if_pos rfl)

theorem rcvRun_unfit (bad : fwCheck s.rcvImage s.sec.fuses ≠ 0) :
    s.rcvRun p tag true = s.mgmtCpl p tag .invalidArg [BitVec.ofNat 8 (fwCheck s.rcvImage s.sec.fuses)] := by
  rw [State.rcvRun, if_neg (not_not.2 st), if_neg (by rw [heard]; exact Bool.false_ne_true)]
  exact ((if_neg firmware).trans (if_neg Bool.false_ne_true)).trans (if_pos bad)

theorem rcvRun_programs (good : fwCheck s.rcvImage s.sec.fuses = 0) : s.rcvRun p tag true = (s.setSec fun x =>
    { x with nor := norProgram x.nor (slice s.rcvImage 0 (leAt s.rcvImage 8 4)), session := none }).mgmtCpl p tag .ok [] := by
  rw [State.rcvRun, if_neg (not_not.2 st), if_neg (by rw [heard]; exact Bool.false_ne_true)]
  exact ((if_neg firmware).trans (if_neg Bool.false_ne_true)).trans (if_neg (not_not.2 good))

end

section
variable (live : s.live = true) {p : BitVec 1} {tag : BitVec 16}
include live

theorem exec_status_live : exec (.status p tag) s = .next (s.after (s.rcvStatus p.toNat tag.toNat)) := by
  rw [exec_status, execStatus, gated_live _ _ live]

theorem exec_recoveryWrite_live {off : BitVec 32} {d : Bytes} :
    exec (.recoveryWrite p tag off d) s = .next (s.after (s.rcvWrite p.toNat tag.toNat off.toNat d)) := by
  rw [exec_recoveryWrite, execRecoveryWrite, gated_live _ _ live]

theorem exec_run_live {persist : Bool} : exec (.run p tag persist) s = .next (s.after (s.rcvRun p.toNat tag.toNat persist)) := by
  rw [exec_run, execRun, gated_live _ _ live]

/-! The end of a burn (R487, R496) -/

theorem exec_fuseBurnEnd_idle (bits : s.sec.burn = []) (rev : s.sec.burnRev = 0) : exec .fuseBurnEnd s = .next (s.after s) := by
  rw [exec_fuseBurnEnd, execFuseBurnEnd, gated_live _ _ live]
  simp only [bits, rev, and_self, if_true]

omit live in
/-- The burn done: the fuses that it named are 1, and nothing burns any longer. -/
def State.burned (s : State) : State := s.setSec fun y =>
  { y with burn := [], burnRev := 0,
           fuses := { y.fuses with rollback := BitVec.ofNat 64 (burnBits y.fuses.rollback.toNat y.burn),
                                   revoke := y.fuses.revoke ||| BitVec.ofNat 4 y.burnRev } }

omit live in
/-- RESULT and GO say that the burn is over, and the summary tells of it (R496, R525). -/
def State.burnReported (s : State) : State := (s.setFs 0 [(F.SEC_FUSE_PROG_RESULT, 0), (F.SEC_FUSE_PROG_GO, 0)]).event F.TOP_INT_STAT_FUSE

theorem exec_fuseBurnEnd_burned (burning : s.sec.burn ≠ [] ∨ s.sec.burnRev ≠ 0) :
    exec .fuseBurnEnd s = .next (s.after s.burned.burnReported) := by
  rw [exec_fuseBurnEnd, execFuseBurnEnd, gated_live _ _ live]
  dsimp only
  rw [if_neg (by tauto)]
  rfl

omit live

theorem burnReported_sec : s.burnReported.sec = s.sec := by rw [State.burnReported, State.event_sec, State.setFs_sec]
theorem burnReported_mem : s.burnReported.mem = s.mem := by rw [State.burnReported, State.event_mem, State.setFs_mem]

/-- The fields of SEC_FUSE_PROG and of TOP_INT_STAT after the report. -/
theorem burnReported_field {x : Fld} (m : (x, 0) ∈ [(F.SEC_FUSE_PROG_RESULT, 0), (F.SEC_FUSE_PROG_GO, 0)]) : s.burnReported.f x 0 = 0 := by
  have regs : ∀ y ∈ [(F.SEC_FUSE_PROG_RESULT, 0), (F.SEC_FUSE_PROG_GO, 0)], y.1.reg = .secFuseProg := by
    simp [F.SEC_FUSE_PROG_RESULT, F.SEC_FUSE_PROG_GO]
  rw [State.burnReported, State.event, State.f_setF_of_ne _ _ (by rw [regs (x, 0) m]; decide), State.f_setFs_of_mem s 0 _ regs rfl m,
    Nat.zero_mod]

theorem burnReported_summary : s.burnReported.f F.TOP_INT_STAT_FUSE 0 = 1 := by
  rw [State.burnReported, State.event]
  exact State.f_setF_self _ F.TOP_INT_STAT_FUSE 0 1 (by decide) (by decide)

end

/-! SPDM (R490 to R492) -/

/-- R490: the transport of an SPDM request is up. -/
def State.spdmUp (s : State) (t : Transport) : Bool :=
  match t with
  | .nahel q => s.nlState q.toNat == nlActive
  | .i3c => s.sec.i3cAddr != 0#7

section
variable {t : Transport} {tag least : Nat} {needId : Bool} {next : Nat → Nat} {answer : Bytes}

theorem State.spdmTake_eq : s.spdmTake t tag needId least next answer =
    if !s.spdmUp t then s
    else if needId && !s.on F.SEC_BOOT_STAT_IDENT_OK 0 then s.spdmSend t tag (spdmError spdmUnspecified)
    else if SMap.get 0 s.sec.spdm (transportKey t) < least then s.spdmSend t tag (spdmError spdmUnexpected)
    else (s.setSec fun x => { x with spdm := SMap.put 0 x.spdm (transportKey t) (next (SMap.get 0 s.sec.spdm (transportKey t))) }).spdmSend
      t tag answer := rfl

theorem spdmTake_down (down : s.spdmUp t = false) : s.spdmTake t tag needId least next answer = s := by
  rw [State.spdmTake_eq, down, if_pos (by decide)]

theorem spdmTake_unidentified (up : s.spdmUp t = true) (needs : needId = true) (failed : s.on F.SEC_BOOT_STAT_IDENT_OK 0 = false) :
    s.spdmTake t tag needId least next answer = s.spdmSend t tag (spdmError spdmUnspecified) := by
  rw [State.spdmTake_eq, up, needs, failed, if_neg (by decide), if_pos (by decide)]

variable (up : s.spdmUp t = true) (known : needId = false ∨ s.on F.SEC_BOOT_STAT_IDENT_OK 0 = true)
include up known

theorem spdmTake_unexpected (early : SMap.get 0 s.sec.spdm (transportKey t) < least) :
    s.spdmTake t tag needId least next answer = s.spdmSend t tag (spdmError spdmUnexpected) := by
  rw [State.spdmTake_eq, up, if_neg (by decide), if_neg (by rcases known with h | h <;> simp [h]), if_pos early]

theorem spdmTake_answered (far : least ≤ SMap.get 0 s.sec.spdm (transportKey t)) : s.spdmTake t tag needId least next answer =
    (s.setSec fun x => { x with spdm := SMap.put 0 x.spdm (transportKey t) (next (SMap.get 0 s.sec.spdm (transportKey t))) }).spdmSend
      t tag answer := by
  rw [State.spdmTake_eq, up, if_neg (by decide), if_neg (by rcases known with h | h <;> simp [h]), if_neg (Nat.not_lt.2 far)]

end

/-! MCTP control commands (R493) -/

theorem mctpAnswer_silent {code : Nat} {asked own : Bytes} (h : s.sec.i3cAddr = 0#7) : s.mctpAnswer code asked own = s := if_pos h

theorem mctpAnswer_sent {code : Nat} {asked own : Bytes} (h : s.sec.i3cAddr ≠ 0#7) : s.mctpAnswer code asked own =
    s.setSec fun x => { x with i3cOut := x.i3cOut ++ pieces 64 (spdmStd code asked ++ own) } := if_neg h

theorem exec_mctp (live : s.live = true) {ix : Byte} {cmd : Instr} {code : Nat} {asked own : Bytes}
    (row : (cmd, code, asked, own) ∈ [(Instr.getEndpointId, 2, ([] : Bytes), [s.sec.eid]), (.getMctpVersionSupport ix, 4, [ix], []),
      (.getMessageTypeSupport, 5, [], [5#8])]) : exec cmd s = .next (s.after (s.mctpAnswer code asked own)) := by
  simp only [List.mem_cons, List.not_mem_nil, or_false, Prod.mk.injEq] at row
  rcases row with ⟨rfl, rfl, rfl, rfl⟩ | ⟨rfl, rfl, rfl, rfl⟩ | ⟨rfl, rfl, rfl, rfl⟩
  · rw [exec_getEndpointId, execGetEndpointId, gated_live _ _ live]
  · rw [exec_getMctpVersionSupport, execGetMctpVersionSupport, gated_live _ _ live]
  · rw [exec_getMessageTypeSupport, execGetMessageTypeSupport, gated_live _ _ live]

end

/-- Settles O56: messages by port, permission and stage of boot; requests of the responder by transport, identity and connection. -/
theorem recoveryFusesAndAttestation : Obligations.RecoveryFusesAndAttestation := by
  unfold Obligations.RecoveryFusesAndAttestation
  intro s p tag off d persist t body slot o l ix addr eid live p' g
  refine ⟨fun cmd row => ?_, fun active heard => ⟨?_, ⟨fun bad => ?_, fun good => ?_⟩, fun rom good => ⟨?_, State.bootImage_good_state s good⟩,
      fun rom bad => ⟨?_, State.bootImage_bad_state s bad, State.bootImage_bad_result s bad⟩, fun firmware transient => ?_,
      fun firmware persists bad => ?_, fun firmware persists good => ?_⟩,
    exec_fuseBurnEnd_idle s live, fun burning => ⟨_, exec_fuseBurnEnd_burned s live burning, ?_, ?_, ?_, ?_, ?_, ?_, burnReported_summary _, ?_⟩,
    fun cmd needId least af ans row => ?_, ?_, ?_, fun cmd code asked own row => ⟨fun silent => ?_, fun sent => ?_⟩, fun silent => ?_,
    fun sent => ?_⟩
  · simp only [List.mem_cons, List.not_mem_nil, or_false] at row
    rcases row with rfl | rfl | rfl
    · rw [exec_status_live s live]
      exact ⟨fun inactive => by rw [rcvStatus_inactive s inactive], fun active denied => by rw [rcvStatus_denied s active denied]⟩
    · rw [exec_recoveryWrite_live s live]
      exact ⟨fun inactive => by rw [rcvWrite_inactive s inactive], fun active denied => by rw [rcvWrite_denied s active denied]⟩
    · rw [exec_run_live s live]
      exact ⟨fun inactive => by rw [rcvRun_inactive s inactive], fun active denied => by rw [rcvRun_denied s active denied]⟩
  · rw [exec_status_live s live, rcvStatus_answers s active heard]
  · rw [exec_recoveryWrite_live s live, rcvWrite_refused s active heard fun fits => bad (by rwa [← BitVec.toNat_inj])]
  · rw [exec_recoveryWrite_live s live, rcvWrite_taken s active heard (by rwa [← BitVec.toNat_inj] at good)]
    rfl
  · rw [exec_run_live s live, rcvRun_boots s active heard rom good]
    rfl
  · rw [exec_run_live s live, rcvRun_fails s active heard rom bad]
    rfl
  · rw [transient, exec_run_live s live, rcvRun_transient s active heard firmware]
  · rw [persists, exec_run_live s live, rcvRun_unfit s active heard firmware bad]
    rfl
  · rw [persists, exec_run_live s live, rcvRun_programs s active heard firmware good]
    rfl
  · rw [burnReported_sec, State.burned, State.setSec_sec]
  · rw [burnReported_sec, State.burned, State.setSec_sec]
  · rw [burnReported_sec, State.burned, State.setSec_sec]
  · rw [burnReported_sec, State.burned, State.setSec_sec]
  · exact burnReported_field _ List.mem_cons_self
  · exact burnReported_field _ (List.mem_cons_of_mem _ List.mem_cons_self)
  · rw [burnReported_mem, State.burned, State.setSec_mem]
  · have taken : exec cmd s = .next (s.after (s.spdmTake t g needId least af ans)) := by
      simp only [List.mem_cons, List.not_mem_nil, or_false, Prod.mk.injEq] at row
      rcases row with ⟨rfl, rfl, rfl, rfl, rfl⟩ | ⟨rfl, rfl, rfl, rfl, rfl⟩ | ⟨rfl, rfl, rfl, rfl, rfl⟩ | ⟨rfl, rfl, rfl, rfl, rfl⟩ |
        ⟨rfl, rfl, rfl, rfl, rfl⟩ | ⟨rfl, rfl, rfl, rfl, rfl⟩
      · rw [exec_getVersion, execGetVersion, gated_live _ _ live, State.spdmVersion]
      · rw [exec_getCapabilities, execGetCapabilities, gated_live _ _ live, State.spdmCapabilities]
      · rw [exec_negotiateAlgorithms, execNegotiateAlgorithms, gated_live _ _ live, State.spdmAlgorithms]
      · rw [exec_getDigests, execGetDigests, gated_live _ _ live, State.spdmDigests]
      · rw [exec_getCertificate, execGetCertificate, gated_live _ _ live, State.spdmCertificate]
      · rw [exec_challenge, execChallenge, gated_live _ _ live, State.spdmChallenge]
    rw [taken]
    exact ⟨fun down => by rw [spdmTake_down s down], fun up needs failed => by rw [spdmTake_unidentified s up needs failed],
      fun up known => ⟨fun early => by rw [spdmTake_unexpected s up known early], fun far => by rw [spdmTake_answered s up known far]⟩⟩
  · rw [exec_getMeasurements, execGetMeasurements, gated_live _ _ live]
  · rw [exec_entdaa, execEntdaa, gated_live _ _ live]
  · rw [exec_mctp s live row, mctpAnswer_silent s silent]
  · rw [exec_mctp s live row, mctpAnswer_sent s sent]
  · rw [exec_setEndpointId, execSetEndpointId, gated_live _ _ live, if_pos silent]
  · have addressed : (s.setSec fun x => { x with eid := eid }).sec.i3cAddr ≠ 0#7 := sent
    rw [exec_setEndpointId, execSetEndpointId, gated_live _ _ live, if_neg sent, mctpAnswer_sent _ addressed]
    rfl

end Sys2Proof.Machine
end

section
/-! PROOFS. Watchdogs, the course of a reset, self-tests, stack retraining, injection and the end of a checkpoint run (R433, R435, R436,
R440, R441, R444 to R446, R448, R449, R454, R459). -/
namespace Sys2Proof.Machine

section
variable (s : State)

/-! Context faults whose resets count (R440, R446) -/

section
variable {c cause slot : Nat} {q : Option Nat} {code : Code}

/-- A running reset that covers the context takes the fault's class into its record, and the context stays (R22, R446). -/
theorem hangFault_covered {v : ResetRun} (covered : s.coverOf c = some v) :
    s.hangFault c cause q slot code = s.logCause v.record (causeClass cause) := by
  rw [State.hangFault]
  simp only [covered, Option.isSome_some, if_true, State.teardown]

/-- A first fault counts, and tears the context down. -/
theorem hangFault_first (uncovered : s.coverOf c = none) (first : s.repeats 1 c = false) :
    s.hangFault c cause q slot code = (s.noteReset 1 c).teardown c cause q slot code false := by
  rw [State.hangFault]
  simp only [uncovered, first, Option.isSome_none, Bool.false_eq_true, false_and, if_false]

end

/-! Watchdogs (R435, R436) -/

/-- R435: the context watchdog's time is set, requests that it watches wait in a context that may run, and none has moved for it. -/
def State.ctxLate (s : State) (c : Nat) : Prop :=
  s.f F.FLT_WDOG_CTX_MS 0 ≠ 0 ∧ (s.ctxState c = ctxEnabled ∨ s.ctxState c = ctxSuspending) ∧
    (s.ctx c).reqs.all Req.unwatched = false ∧ s.due (s.ctx c).progress (1000 * s.f F.FLT_WDOG_CTX_MS 0) = true

theorem not_ctxLate_iff (c : Nat) : ¬ s.ctxLate c ↔ (s.f F.FLT_WDOG_CTX_MS 0 = 0 ∨ (s.ctxState c ≠ ctxEnabled ∧ s.ctxState c ≠ ctxSuspending) ∨
    (s.ctx c).reqs.all Req.unwatched = true ∨ (!s.due (s.ctx c).progress (1000 * s.f F.FLT_WDOG_CTX_MS 0)) = true) := by
  rw [State.ctxLate, Bool.not_eq_true', ← Bool.not_eq_true, ← Bool.not_eq_true]
  tauto

/-- R435: the request that a watchdog of the context finds: the oldest that it watches. -/
def State.hung (s : State) (c : Nat) : Option Req := (s.openReqs c).find? fun r => !r.unwatched && !s.keeps r

/-- The fault of the context watchdog: the request that hangs is the one that faulted, and ends with TIMEOUT (R354). -/
def State.ctxHangs (s : State) (c : Nat) : State :=
  match s.hung c with
  | some r => s.hangFault c causeWatchdog (some r.slot) r.slot .timeout
  | none => s.hangFault c causeWatchdog none 0 .ok

theorem ctxHangs_some {c : Nat} {r : Req} (found : s.hung c = some r) :
    s.ctxHangs c = s.hangFault c causeWatchdog (some r.slot) r.slot .timeout := by rw [State.ctxHangs, found]

theorem ctxHangs_none {c : Nat} (empty : s.hung c = none) : s.ctxHangs c = s.hangFault c causeWatchdog none 0 .ok := by
  rw [State.ctxHangs, empty]

theorem ctxHangs_covered {c : Nat} {v : ResetRun} (covered : s.coverOf c = some v) :
    s.ctxHangs c = s.logCause v.record (causeClass causeWatchdog) := by
  cases found : s.hung c with
  | none => rw [ctxHangs_none s found, hangFault_covered s covered]
  | some r => rw [ctxHangs_some s found, hangFault_covered s covered]

/-- R433, R435: the partition watchdog's time is set, and the partition, awake, holds work that has not moved for it. -/
def State.partLate (s : State) (n : Nat) : Prop :=
  s.f F.FLT_WDOG_PART_MS 0 ≠ 0 ∧ s.trlState n ≠ trlEmpty ∧ s.partHolds n = true ∧ s.partAwake n = true ∧
    ∀ c ∈ s.partCtxs n, (s.ctx c).reqs.all Req.unwatched = true ∨ s.due (s.ctx c).progress (1000 * s.f F.FLT_WDOG_PART_MS 0) = true

theorem not_partLate_iff (n : Nat) : ¬ s.partLate n ↔ (s.f F.FLT_WDOG_PART_MS 0 = 0 ∨ s.trlState n = trlEmpty ∨ (!s.partHolds n) = true ∨
    (!(s.partCtxs n).all fun c => (s.ctx c).reqs.all Req.unwatched || s.due (s.ctx c).progress (1000 * s.f F.FLT_WDOG_PART_MS 0)) = true ∨
    (!s.partAwake n) = true) := by
  have quiet : ((s.partCtxs n).all fun c => (s.ctx c).reqs.all Req.unwatched || s.due (s.ctx c).progress (1000 * s.f F.FLT_WDOG_PART_MS 0)) =
      true ↔ ∀ c ∈ s.partCtxs n,
        (s.ctx c).reqs.all Req.unwatched = true ∨ s.due (s.ctx c).progress (1000 * s.f F.FLT_WDOG_PART_MS 0) = true := by
    simp only [List.all_eq_true (l := s.partCtxs n), Bool.or_eq_true]
  rw [State.partLate, ← quiet, Bool.not_eq_true', Bool.not_eq_true', Bool.not_eq_true', ← Bool.not_eq_true, ← Bool.not_eq_true,
    ← Bool.not_eq_true]
  tauto

/-- R436: firmware runs and has not kicked the chip watchdog for its time. -/
def State.chipLate (s : State) : Prop := s.bootState = bootFirmware ∧
  s.due s.flt.kickedAt (1000 * if s.f F.FLT_WDOG_CHIP_MS 0 = 0 then 100 else s.f F.FLT_WDOG_CHIP_MS 0) = true

theorem not_chipLate_iff : ¬ s.chipLate ↔ (s.bootState ≠ bootFirmware ∨
    (!s.due s.flt.kickedAt (1000 * if s.f F.FLT_WDOG_CHIP_MS 0 = 0 then 100 else s.f F.FLT_WDOG_CHIP_MS 0)) = true) := by
  rw [State.chipLate, Bool.not_eq_true', ← Bool.not_eq_true]
  tauto

section
variable (live : s.live = true)
include live

section
variable {c : BitVec 12}

theorem exec_contextWatchdog_early (early : ¬ s.ctxLate c.toNat) : exec (.contextWatchdog c) s = .next (s.after s) := by
  rw [exec_contextWatchdog, execContextWatchdog, gated_live _ _ live]
  dsimp only
  rw [if_pos ((not_ctxLate_iff s c.toNat).1 early)]

theorem exec_contextWatchdog_late (late : s.ctxLate c.toNat) : exec (.contextWatchdog c) s = .next (s.after (s.ctxHangs c.toNat)) := by
  rw [exec_contextWatchdog, execContextWatchdog, gated_live _ _ live]
  dsimp only
  rw [if_neg fun h => (not_ctxLate_iff s c.toNat).2 h late]
  rfl

end

theorem exec_tileWatchdog_hangs {cell : BitVec 9} {m : Nat} (set : s.f F.FLT_WDOG_TILE_US 0 ≠ 0) (in_ : s.tileOut (cell.toNat / 8) = false)
    (held : s.tileHolder (cell.toNat / 8) = some m) (work : s.partHolds m = true) (awake : s.depth (2 + cell.toNat / 8 / 16) = 0) :
    exec (.tileWatchdog cell) s = .next (s.after (s.raise (.engine (BitVec.ofNat 7 (cell.toNat / 8))) 6 false 0)) := by
  rw [exec_tileWatchdog, execTileWatchdog, gated_live _ _ live]
  simp only [set, in_, held, work, awake, Bool.false_eq_true, or_self, if_false, beq_self_eq_true, Bool.and_self, if_true]

theorem exec_tileWatchdog_idle {cell : BitVec 9} (idle : s.f F.FLT_WDOG_TILE_US 0 = 0 ∨ s.tileOut (cell.toNat / 8) = true ∨
    s.tileHolder (cell.toNat / 8) = none ∨ s.depth (2 + cell.toNat / 8 / 16) ≠ 0) : exec (.tileWatchdog cell) s = .next (s.after s) := by
  rw [exec_tileWatchdog, execTileWatchdog, gated_live _ _ live]
  rcases idle with off | out | free | asleep
  · simp only [off, true_or, if_true]
  · simp only [out, or_true, if_true]
  · simp only [free, ite_self]
  · dsimp only
    split
    · rfl
    · split
      · simp only [beq_eq_false_iff_ne.2 asleep, Bool.and_false, Bool.false_eq_true, if_false]
      · rfl

theorem exec_partitionWatchdog_late {n : BitVec 3} (late : s.partLate n.toNat) :
    exec (.partitionWatchdog n) s = .next (s.after (s.raise (.part n) 0x0C false 0)) := by
  rw [exec_partitionWatchdog, execPartitionWatchdog, gated_live _ _ live]
  dsimp only
  rw [if_neg fun h => (not_partLate_iff s n.toNat).2 h late]

theorem exec_partitionWatchdog_early {n : BitVec 3} (early : ¬ s.partLate n.toNat) : exec (.partitionWatchdog n) s = .next (s.after s) := by
  rw [exec_partitionWatchdog, execPartitionWatchdog, gated_live _ _ live]
  dsimp only
  rw [if_pos ((not_partLate_iff s n.toNat).1 early)]

theorem exec_chipWatchdog_early (early : ¬ s.chipLate) : exec .chipWatchdog s = .next (s.after s) := by
  rw [exec_chipWatchdog, execChipWatchdog, gated_live _ _ live]
  dsimp only
  rw [if_pos ((not_chipLate_iff s).1 early)]

theorem exec_chipWatchdog_late (late : s.chipLate) : exec .chipWatchdog s = .next (s.after (
    if s.chipFenced then s.powerCycle ⟨0x0F, 0, false, 0⟩ else s.raise .chip 0x0F false 0)) := by
  rw [exec_chipWatchdog, execChipWatchdog, gated_live _ _ live]
  dsimp only
  rw [if_neg fun h => (not_chipLate_iff s).2 h late]

/-! The course of a reset (R440, R441, R445) -/

theorem exec_fenceDrainEnd_live {d : Domain} : exec (.fenceDrainEnd d) s = .next (s.after (s.fenceDrainEnd d).serveWaiting) := by
  rw [exec_fenceDrainEnd, execFenceDrainEnd, gated_live _ _ live]

theorem exec_unfence_live {d : Domain} : exec (.unfence d) s = .next (s.after (s.unfence d).serveWaiting) := by
  rw [exec_unfence, execUnfence, gated_live _ _ live]

theorem exec_resetBoundPassed_none {d : Domain} (absent : (s.flt.resets.find? fun r => r.dom == d) = none) :
    exec (.resetBoundPassed d) s = .next (s.after s) := by
  rw [exec_resetBoundPassed, execResetBoundPassed, gated_live _ _ live]
  simp only [absent]

theorem exec_resetBoundPassed_early {d : Domain} {r : ResetRun} (run : (s.flt.resets.find? fun r => r.dom == d) = some r)
    (early : s.due r.started (resetBound d) = false) : exec (.resetBoundPassed d) s = .next (s.after s) := by
  rw [exec_resetBoundPassed, execResetBoundPassed, gated_live _ _ live]
  simp only [run, early, Bool.not_false, true_or, if_true]

/-- R440: the class whose reset passed its bound; an escalated one keeps the first. -/
def State.firstClass (s : State) (n : Nat) : Nat :=
  if s.f F.FLT_LOG_CLASS (2 * n) = 0x10 then s.f F.FLT_LOG_CAUSE (2 * n) else s.f F.FLT_LOG_CLASS (2 * n)

theorem exec_resetBoundPassed_late {d : Domain} {r : ResetRun} (run : (s.flt.resets.find? fun r => r.dom == d) = some r)
    (late : s.due r.started (resetBound d) = true) (bounded : d ≠ .chip ∨ s.bootState ≠ bootRecovery) :
    exec (.resetBoundPassed d) s = .next (s.after
      ((s.setFlt fun x => { x with resets := x.resets.filter fun y => y.dom != d }).escalate d (s.firstClass r.record))) := by
  rw [exec_resetBoundPassed, execResetBoundPassed, gated_live _ _ live]
  have waits : ¬ ((!s.due r.started (resetBound d)) = true ∨ (d = .chip ∧ s.bootState = bootRecovery)) := by
    rw [late]
    rintro (h | ⟨chip, rom⟩)
    · cases h
    · exact bounded.elim (fun h => h chip) fun h => h rom
  simp only [run, if_neg waits]
  rfl

end

section
variable {d : Domain}

section
variable (absent : (s.flt.resets.find? fun r => r.dom == d) = none)
include absent

theorem fenceDrainEnd_none : s.fenceDrainEnd d = s := by simp only [State.fenceDrainEnd, absent]
theorem unfence_none : s.unfence d = s := by simp only [State.unfence, absent]

end

variable {r : ResetRun} (run : (s.flt.resets.find? fun r => r.dom == d) = some r)
include run

theorem fenceDrainEnd_runs (draining : r.draining = true)
    (expired : s.domHolds d = false ∨ s.due r.started (s.f F.FLT_CFG_FENCE_DRAIN_US 0) = true) : s.fenceDrainEnd d = s.runReset d := by
  simp only [State.fenceDrainEnd, run, draining]
  rw [if_neg]
  rcases expired with h | h <;> simp [h]

theorem fenceDrainEnd_waits (draining : r.draining = true) (holds : s.domHolds d = true)
    (early : s.due r.started (s.f F.FLT_CFG_FENCE_DRAIN_US 0) = false) : s.fenceDrainEnd d = s := by
  simp only [State.fenceDrainEnd, run, draining, holds, early, Bool.not_false, and_self, or_true, if_true]

theorem unfence_draining (draining : r.draining = true) : s.unfence d = s := by
  simp only [State.unfence, run, draining, if_true]

variable (done : r.draining = false)
include done

theorem unfence_engine {e : BitVec 7} (engine : d = .engine e) : s.unfence d = s.endRun r := by
  subst engine
  simp only [State.unfence, run, done, Bool.false_eq_true, if_false]

theorem unfence_part {m : BitVec 3} (part : d = .part m) (whole : s.partOut m.toNat = false) (kept : r.reload = false) :
    s.unfence d = ((s.endRun r).answerResets).retake m.toNat := by
  subst part
  simp only [State.unfence, run, done, whole, kept, Bool.false_eq_true, if_false]

theorem unfence_chip (chip : d = .chip) : s.unfence d = if s.bootState = bootFirmware then s.endRun r else s := by
  subst chip
  simp only [State.unfence, run, done, Bool.false_eq_true, if_false]

end

theorem powerCycle_pcycLow (w : Why) : (s.powerCycle w).pins.pcycLow = true := by rw [State.powerCycle, State.setPins_pins]

theorem escalate_chip (cause : Nat) : s.escalate .chip cause = s.powerCycle ⟨0x10, cause, false, 0⟩ := rfl

end

end Sys2Proof.Machine
end

section
/-! PROOFS. Self-tests, stack retraining, injection and the end of a checkpoint run; the statement on watchdogs and resets (R433, R435, R436,
R440, R441, R444 to R446, R448, R449, R454, R459). -/
namespace Sys2Proof.Machine

section
variable (s : State)

/-! The units that a self-test finds out (R445) -/

theorem setBit_lt {w i n : Nat} (v : Bool) (hi : i < n) (h : w < 2 ^ n) : setBit w i v < 2 ^ n := setBits_lt w i i _ n le_rfl hi h

theorem testBit_setBit (w i k : Nat) : (setBit w i true).testBit k = (decide (k = i) || w.testBit k) := by
  rw [setBit, testBit_setBits _ _ _ _ _ le_rfl]
  by_cases e : k = i
  · subst e
    simp
  · rw [if_neg (by omega), decide_eq_false e, Bool.false_or]

/-- Taking a press unit out sets its bit of FLT_OUT_PRESS, and no other. -/
theorem State.takeOut_pressOutBit {u i : Nat} (hu : u < 512) (hi : i < 512) :
    (s.takeOut true u).pressOutBit i = (decide (i = u) || s.pressOutBit i) := by
  rw [State.pressOutBit, State.pressOutBit, State.takeOut, if_pos rfl, bit, bit]
  by_cases word : i / 64 = u / 64
  · rw [word, State.reg_setReg_self, Nat.mod_eq_of_lt (setBit_lt true (by omega) (s.reg_lt _ _)), testBit_setBit,
      show decide (i % 64 = u % 64) = decide (i = u) from decide_eq_decide.2 (by omega)]
  · rw [State.reg_setReg_of_other s _ (show u / 64 < 8 by omega) (show i / 64 < 8 by omega) (.inr word), decide_eq_false (by omega),
      Bool.false_or]

/-- The units of a list taken out. -/
def State.takeOutAll (s : State) (l : List Nat) : State := l.foldl (fun s u => s.takeOut true u) s

theorem State.takeOutAll_pressOutBit {l : List Nat} (hl : ∀ u ∈ l, u < 512) {i : Nat} (hi : i < 512) :
    (s.takeOutAll l).pressOutBit i = (l.contains i || s.pressOutBit i) := by
  induction l generalizing s with
  | nil => rfl
  | cons u l ih =>
    change ((s.takeOut true u).takeOutAll l).pressOutBit i = _
    rw [ih _ fun v m => hl v (List.mem_cons_of_mem _ m), State.takeOut_pressOutBit s (hl u List.mem_cons_self) hi, List.contains_cons,
      Bool.or_left_comm, ← Bool.or_assoc]
    rfl

/-- Taking units out changes registers alone. -/
theorem State.takeOutAll_frame (l : List Nat) : s.takeOutAll l = { s with regs := (s.takeOutAll l).regs } := by
  induction l generalizing s with
  | nil => rfl
  | cons u l ih =>
    change (s.takeOut true u).takeOutAll l = { s with regs := ((s.takeOut true u).takeOutAll l).regs }
    rw [ih]
    rfl

/-- Every register but FLT_OUT_PRESS stays. -/
theorem State.takeOutAll_reg {l : List Nat} (hl : ∀ u ∈ l, u < 512) {q : Reg} {k : Nat} (hk : k < q.count) (other : q ≠ .fltOutPress) :
    (s.takeOutAll l).reg q k = s.reg q k := by
  induction l generalizing s with
  | nil => rfl
  | cons u l ih =>
    change ((s.takeOut true u).takeOutAll l).reg q k = _
    rw [ih _ fun v m => hl v (List.mem_cons_of_mem _ m), State.takeOut, if_pos rfl,
      State.reg_setReg_of_other s _ (show u / 64 < 8 by have := hl u List.mem_cons_self; omega) hk (.inl other)]

/-- The registers FLT_OUT_PRESS of some words cleared. -/
def State.clearOuts (s : State) (l : List Nat) : State := l.foldl (fun s j => s.setReg .fltOutPress j 0) s

theorem State.clearOuts_frame (l : List Nat) : s.clearOuts l = { s with regs := (s.clearOuts l).regs } := by
  induction l generalizing s with
  | nil => rfl
  | cons j l ih =>
    change (s.setReg .fltOutPress j 0).clearOuts l = { s with regs := ((s.setReg .fltOutPress j 0).clearOuts l).regs }
    rw [ih]
    rfl

theorem State.clearOuts_reg {l : List Nat} (hl : ∀ j ∈ l, j < 8) {q : Reg} {k : Nat} (hk : k < q.count) (other : q ≠ .fltOutPress) :
    (s.clearOuts l).reg q k = s.reg q k := by
  induction l generalizing s with
  | nil => rfl
  | cons j l ih =>
    change ((s.setReg .fltOutPress j 0).clearOuts l).reg q k = _
    rw [ih _ fun v m => hl v (List.mem_cons_of_mem _ m), State.reg_setReg_of_other s _ (show j < 8 from hl j List.mem_cons_self) hk (.inl other)]

theorem State.clearOuts_zero {l : List Nat} (hl : ∀ j ∈ l, j < 8) {j : Nat} (hj : j < 8) (m : j ∈ l ∨ s.reg .fltOutPress j = 0) :
    (s.clearOuts l).reg .fltOutPress j = 0 := by
  induction l generalizing s with
  | nil => exact m.resolve_left (by simp)
  | cons k l ih =>
    change ((s.setReg .fltOutPress k 0).clearOuts l).reg .fltOutPress j = 0
    refine ih _ (fun v m => hl v (List.mem_cons_of_mem _ m)) ?_
    by_cases e : j = k
    · subst e
      exact .inr (State.reg_setReg_self s .fltOutPress j 0)
    · rw [State.reg_setReg_of_other s 0 (show k < 8 from hl k List.mem_cons_self) hj (.inr e)]
      exact m.imp_left fun h => (List.mem_cons.1 h).resolve_left e

/-- R445, R459: the end of a self-test: the units that failed are out, the others are not. -/
def State.testEnded (s : State) (tiles : Word) (press : List Nat) : State :=
  ((((s.setF F.FLT_RESET_SELFTEST 0 0).setFlt fun x => { x with selftest := false }).setReg .fltOutTile 0 tiles.toNat).clearOuts
    (List.range 8)).takeOutAll (press.filter (· < 512))

section
variable (tiles : Word) (press : List Nat)

theorem units_lt : ∀ u ∈ press.filter (· < 512), u < 512 := fun _ m => of_decide_eq_true (List.mem_filter.1 m).2
theorem words_lt : ∀ j ∈ List.range 8, j < 8 := fun _ => List.mem_range.1

theorem testEnded_selftest : (s.testEnded tiles press).flt.selftest = false := by
  rw [State.testEnded, State.takeOutAll_frame, State.clearOuts_frame]
  rfl

theorem testEnded_mem : (s.testEnded tiles press).mem = s.mem := by
  rw [State.testEnded, State.takeOutAll_frame, State.clearOuts_frame]
  rfl

theorem testEnded_tiles : (s.testEnded tiles press).reg .fltOutTile 0 = tiles.toNat := by
  rw [State.testEnded, State.takeOutAll_reg _ (units_lt press) (by decide) (by decide), State.clearOuts_reg _ words_lt (by decide) (by decide),
    State.reg_setReg_self, Nat.mod_eq_of_lt tiles.isLt]

theorem testEnded_reset : (s.testEnded tiles press).f F.FLT_RESET_SELFTEST 0 = 0 := by
  have same : (s.testEnded tiles press).reg .fltReset 0 = (s.setF F.FLT_RESET_SELFTEST 0 0).reg .fltReset 0 := by
    rw [State.testEnded, State.takeOutAll_reg _ (units_lt press) (by decide) (by decide), State.clearOuts_reg _ words_lt (by decide) (by decide),
      State.reg_setReg_of_other _ _ (by decide) (by decide) (.inl (by decide)), State.setFlt_reg]
  have cleared := State.f_setF_self s F.FLT_RESET_SELFTEST 0 0 (by decide) (by decide)
  rw [State.f] at cleared ⊢
  rw [show F.FLT_RESET_SELFTEST.reg = .fltReset from rfl] at cleared ⊢
  rw [same, cleared, Nat.zero_mod]

theorem testEnded_press {i : Nat} (hi : i < 512) : (s.testEnded tiles press).pressOutBit i = press.contains i := by
  have word : i / 64 < 8 := by omega
  rw [State.testEnded, State.takeOutAll_pressOutBit _ (units_lt press) hi, State.pressOutBit,
    State.clearOuts_zero _ words_lt word (.inl (List.mem_range.2 word)), bit, Nat.zero_testBit, Bool.or_false, Bool.eq_iff_iff,
    List.contains_iff_mem, List.contains_iff_mem, List.mem_filter]
  exact and_iff_left (decide_eq_true hi)

end

section
variable (live : s.live = true)
include live

theorem exec_selftestEnd_idle {tiles : Word} {press : List Nat} (idle : s.flt.selftest = false) :
    exec (.selftestEnd tiles press) s = .next (s.after s) := by
  rw [exec_selftestEnd, execSelftestEnd, gated_live _ _ live]
  simp only [idle, Bool.not_false, if_true]

theorem exec_selftestEnd_runs {tiles : Word} {press : List Nat} (runs : s.flt.selftest = true) :
    exec (.selftestEnd tiles press) s = .next (s.after (s.testEnded tiles press)) := by
  rw [exec_selftestEnd, execSelftestEnd, gated_live _ _ live]
  simp only [runs, Bool.not_true, Bool.false_eq_true, if_false]
  rfl

/-! Stacks (R433) -/

theorem exec_stackRetrain_again {n : BitVec 3} (waits : s.flt.retrain.contains n.toNat = true) :
    exec (.stackRetrain n) s = .next (s.after s) := by
  rw [exec_stackRetrain, execStackRetrain, gated_live _ _ live]
  simp only [waits, if_true]

theorem exec_stackRetrain_starts {n : BitVec 3} (runs : s.flt.retrain.contains n.toNat = false) : exec (.stackRetrain n) s = .next (s.after
    ((s.logFault 0x0B 2 0 (0x180 + n.toNat) 0 false).1.setFlt fun x => { x with retrain := x.retrain ++ [n.toNat] })) := by
  rw [exec_stackRetrain, execStackRetrain, gated_live _ _ live]
  simp only [runs, Bool.false_eq_true, if_false]

theorem exec_stackRetrainEnd_live {n : BitVec 3} {ok : Bool} :
    exec (.stackRetrainEnd n ok) s = .next (s.after (s.stackRetrainEnd n ok).serveWaiting) := by
  rw [exec_stackRetrainEnd, execStackRetrainEnd, gated_live _ _ live]

end

theorem stackRetrainEnd_idle {n : BitVec 3} {ok : Bool} (runs : s.flt.retrain.contains n.toNat = false) : s.stackRetrainEnd n ok = s := by
  simp only [State.stackRetrainEnd, runs, Bool.not_false, if_true]

section
variable {n : BitVec 3} (waits : s.flt.retrain.contains n.toNat = true)
include waits

theorem stackRetrainEnd_ok : s.stackRetrainEnd n true = s.setFlt fun x =>
    { x with retrain := x.retrain.filter (· != n.toNat), fails := SMap.put 0 x.fails n.toNat 0 } := by
  simp only [State.stackRetrainEnd, waits, Bool.not_true, Bool.false_eq_true, if_false, if_true]

theorem stackRetrainEnd_fails (few : SMap.get 0 s.flt.fails n.toNat < 2) : s.stackRetrainEnd n false = s.setFlt fun x =>
    { x with fails := SMap.put 0 x.fails n.toNat (SMap.get 0 s.flt.fails n.toNat + 1) } := by
  simp only [State.stackRetrainEnd, waits, Bool.not_true, Bool.false_eq_true, if_false]
  rw [if_neg (by omega)]

/-- R433: the third failure: the stack waits no longer, its failures start anew, and STACK_FAIL resets the chip. -/
def State.stackFailed (s : State) (k : Nat) : State :=
  (s.setFlt fun x => { x with fails := SMap.put 0 x.fails k (SMap.get 0 s.flt.fails k + 1) }).setFlt fun x =>
    { x with retrain := x.retrain.filter (· != k), fails := SMap.put 0 x.fails k 0 }

theorem stackRetrainEnd_third (third : 2 ≤ SMap.get 0 s.flt.fails n.toNat) :
    s.stackRetrainEnd n false = (s.stackFailed n.toNat).raise .chip 0x0D false (0x180 + n.toNat) := by
  simp only [State.stackRetrainEnd, waits, Bool.not_true, Bool.false_eq_true, if_false]
  rw [if_pos (by omega)]
  rfl

omit waits in
theorem stackFailed_retrain (k : Nat) : (s.stackFailed k).flt.retrain.contains k = false := by
  rw [State.stackFailed, State.setFlt_flt, State.setFlt_flt]
  simp

omit waits in
theorem stackFailed_mem (k : Nat) : (s.stackFailed k).mem = s.mem := by rw [State.stackFailed, State.setFlt_mem, State.setFlt_mem]

end

/-! Injection (R448, R449) -/

/-- R448: an entry is enabled, has a period, and the period has passed. -/
def State.injectDue (s : State) (k : Nat) : Prop :=
  s.on F.FLT_INJ_ENABLE k = true ∧ s.f F.FLT_INJ_PERIOD_S k ≠ 0 ∧
    s.due (SMap.get 0 s.flt.injectAt k) (1000000 * s.f F.FLT_INJ_PERIOD_S k) = true

/-- R448: the period of an entry starts anew. -/
def State.injectNoted (s : State) (k : Nat) : State := s.setFlt fun x => { x with injectAt := SMap.put 0 x.injectAt k s.now }

theorem not_injectDue_iff (k : Nat) : ¬ s.injectDue k ↔ ((!s.on F.FLT_INJ_ENABLE k) = true ∨ s.f F.FLT_INJ_PERIOD_S k = 0 ∨
    (!s.due (SMap.get 0 s.flt.injectAt k) (1000000 * s.f F.FLT_INJ_PERIOD_S k)) = true) := by
  rw [State.injectDue, Bool.not_eq_true', Bool.not_eq_true', ← Bool.not_eq_true, ← Bool.not_eq_true]
  tauto

section
variable (live : s.live = true) {j : BitVec 3}
include live

theorem exec_injection_early (early : ¬ s.injectDue j.toNat) : exec (.injection j) s = .next (s.after s) := by
  rw [exec_injection, execInjection, gated_live _ _ live]
  dsimp only
  rw [if_pos ((not_injectDue_iff s j.toNat).1 early)]

variable (due : s.injectDue j.toNat)
include due

section
variable (cls : s.f F.FLT_INJ_CLASS j.toNat = 1) (calm : s.flt.resets = [])
include cls calm

theorem exec_injection_stack (stack : 64 ≤ s.f F.FLT_INJ_TARGET j.toNat) :
    exec (.injection j) s = .next (s.after ((s.injectNoted j.toNat).injectBit (s.f F.FLT_INJ_TARGET j.toNat - 64))) := by
  rw [exec_injection, execInjection, gated_live _ _ live]
  dsimp only
  rw [if_neg fun h => (not_injectDue_iff s j.toNat).2 h due]
  simp only [State.setFlt_f, cls, State.setFlt_flt, calm, List.any_nil, Bool.false_eq_true, if_false, stack, if_true]
  rfl

theorem exec_injection_tile (tile : s.f F.FLT_INJ_TARGET j.toNat < 64) : exec (.injection j) s = .next (s.after
    ((s.injectNoted j.toNat).draw.1.injectBit (Config.arbiterPick (s.injectNoted j.toNat).draw.2 8 % 8))) := by
  rw [exec_injection, execInjection, gated_live _ _ live]
  dsimp only
  rw [if_neg fun h => (not_injectDue_iff s j.toNat).2 h due]
  simp only [State.setFlt_f, cls, State.setFlt_flt, calm, List.any_nil, Bool.false_eq_true, if_false, if_neg (Nat.not_le.2 tile)]
  rfl

end

theorem exec_injection_link (cls : s.f F.FLT_INJ_CLASS j.toNat = 8) (open_ : s.chipFenced = false) : exec (.injection j) s = .next (s.after
    ((s.injectNoted j.toNat).setFlt fun x => { x with forceBad := x.forceBad ++ [s.f F.FLT_INJ_TARGET j.toNat] })) := by
  have unfenced : (s.injectNoted j.toNat).chipFenced = false := open_
  rw [State.injectNoted] at unfenced
  rw [exec_injection, execInjection, gated_live _ _ live]
  dsimp only
  rw [if_neg fun h => (not_injectDue_iff s j.toNat).2 h due]
  simp only [State.setFlt_f, cls, unfenced, Bool.false_eq_true, if_false]
  rfl

section
variable (cls : s.f F.FLT_INJ_CLASS j.toNat = 6 ∨ s.f F.FLT_INJ_CLASS j.toNat = 7)
include cls

/-- Classes 6 and 7 reset their engine, where FLT_CFG lets injection disrupt (R448). -/
theorem exec_injection_kept (keeps : s.on F.FLT_CFG_INJECT_DISRUPT 0 = false) :
    exec (.injection j) s = .next (s.after (s.injectNoted j.toNat)) := by
  have keeps' : (s.setFlt fun x => { x with injectAt := SMap.put 0 x.injectAt j.toNat s.now }).on F.FLT_CFG_INJECT_DISRUPT 0 = false := by
    rw [State.on, State.setFlt_f]
    exact keeps
  rw [exec_injection, execInjection, gated_live _ _ live]
  dsimp only
  rw [if_neg fun h => (not_injectDue_iff s j.toNat).2 h due]
  rcases cls with six | seven
  · simp only [State.setFlt_f, six, keeps', Bool.not_false, if_true]
    rfl
  · simp only [State.setFlt_f, seven, keeps', Bool.not_false, if_true]
    rfl

theorem exec_injection_engine (disrupts : s.on F.FLT_CFG_INJECT_DISRUPT 0 = true) (calm : s.flt.resets = []) :
    exec (.injection j) s = .next (s.after ((s.injectNoted j.toNat).raise (.engine (BitVec.ofNat 7 (s.f F.FLT_INJ_TARGET j.toNat)))
      (s.f F.FLT_INJ_CLASS j.toNat) true 0)) := by
  have disrupts' : (s.setFlt fun x => { x with injectAt := SMap.put 0 x.injectAt j.toNat s.now }).on F.FLT_CFG_INJECT_DISRUPT 0 = true := by
    rw [State.on, State.setFlt_f]
    exact disrupts
  rw [exec_injection, execInjection, gated_live _ _ live]
  dsimp only
  rw [if_neg fun h => (not_injectDue_iff s j.toNat).2 h due]
  rcases cls with six | seven
  · simp only [State.setFlt_f, six, disrupts', State.setFlt_flt, calm, List.any_nil, Bool.not_true, Bool.false_eq_true, if_false]
    rfl
  · simp only [State.setFlt_f, seven, disrupts', State.setFlt_flt, calm, List.any_nil, Bool.not_true, Bool.false_eq_true, if_false]
    rfl

end
end
end

/-- Settles O57: watchdogs by what is late, resets by the run of their domain, and the rest by the state of the unit that they name. -/
theorem watchdogsResetsAndRepairs : Obligations.WatchdogsResetsAndRepairs := by
  unfold Obligations.WatchdogsResetsAndRepairs
  intro s c cell n d tiles press ok j live c'
  refine ⟨?watchedContexts, ⟨fun m => exec_tileWatchdog_hangs s live, exec_tileWatchdog_idle s live⟩,
    ⟨exec_partitionWatchdog_late s live, exec_partitionWatchdog_early s live⟩, ?watchedChip, ?noReset, fun r run => ?reset,
    exec_selftestEnd_idle s live, ?selftest, exec_stackRetrain_again s live, exec_stackRetrain_starts s live, ?noRetrain, ?retrain,
    ?pll, ?injection, ?noCheckpoint, ?checkpoint⟩
  case watchedContexts =>
    refine ⟨exec_contextWatchdog_early s live, fun v late covered => ?_, fun r late uncovered first found => ?_,
      fun late uncovered first none => ?_⟩
    · rw [exec_contextWatchdog_late s live late, ctxHangs_covered s covered]
    · rw [exec_contextWatchdog_late s live late, ctxHangs_some s found, hangFault_first s uncovered first]
    · rw [exec_contextWatchdog_late s live late, ctxHangs_none s none, hangFault_first s uncovered first]
  case watchedChip =>
    refine ⟨exec_chipWatchdog_early s live, fun late fenced => ?_, fun late open_ => ?_⟩
    · rw [exec_chipWatchdog_late s live late, if_pos fenced]
    · rw [exec_chipWatchdog_late s live late, if_neg (by rw [open_]; exact Bool.false_ne_true)]
  case noReset =>
    intro none
    rw [exec_fenceDrainEnd_live s live, exec_unfence_live s live, fenceDrainEnd_none s none, unfence_none s none]
    exact ⟨rfl, rfl, exec_resetBoundPassed_none s live none⟩
  case reset =>
    rw [exec_fenceDrainEnd_live s live, exec_unfence_live s live]
    refine ⟨fun draining over_ => ?_, fun draining holds early => ?_, fun draining => ?_, fun done engine => ?_, fun m done part whole kept => ?_,
      fun done chip firmware => ?_, fun done chip rom => ?_, exec_resetBoundPassed_early s live run, exec_resetBoundPassed_late s live run,
      fun cause => ⟨escalate_chip s cause, powerCycle_pcycLow s _⟩⟩
    · rw [fenceDrainEnd_runs s run draining over_]
    · rw [fenceDrainEnd_waits s run draining holds early]
    · rw [unfence_draining s run draining]
    · obtain ⟨e, engine⟩ := engine
      rw [unfence_engine s run done engine]
    · rw [unfence_part s run done part whole kept]
    · rw [unfence_chip s run done chip, if_pos firmware]
    · rw [unfence_chip s run done chip, if_neg rom]
  case selftest =>
    exact fun runs => ⟨_, exec_selftestEnd_runs s live runs, testEnded_selftest s tiles press, testEnded_tiles s tiles press,
      testEnded_reset s tiles press, testEnded_mem s tiles press, fun i hi => testEnded_press s tiles press hi⟩
  case noRetrain =>
    intro runs
    rw [exec_stackRetrainEnd_live s live, stackRetrainEnd_idle s runs]
  case retrain =>
    rw [exec_stackRetrainEnd_live s live]
    refine fun waits => ⟨?_, ?_, ?_⟩
    · rintro rfl
      rw [stackRetrainEnd_ok s waits]
    · rintro rfl few
      rw [stackRetrainEnd_fails s waits few]
    · rintro rfl third
      exact ⟨s.stackFailed n.toNat, by rw [stackRetrainEnd_third s waits third], stackFailed_retrain s _, stackFailed_mem s _⟩
  case pll =>
    rw [exec_pllLockLoss, execPllLockLoss, gated_live _ _ live]
  case injection =>
    exact ⟨exec_injection_early s live, exec_injection_stack s live, exec_injection_tile s live, exec_injection_link s live,
      exec_injection_kept s live, exec_injection_engine s live⟩
  case noCheckpoint =>
    intro none
    rw [exec_checkpointRunEnd, execCheckpointRunEnd, gated_live _ _ live]
    simp only [none]
  case checkpoint =>
    intro r run
    rw [exec_checkpointRunEnd, execCheckpointRunEnd, gated_live _ _ live]
    simp only [run]
    exact ⟨fun one => by rw [if_pos one], fun other => by rw [if_neg other]⟩

end Sys2Proof.Machine
end

section
/-! PROOFS. Pins, supplies, references and the always-on clock (R484, R504, R511, R540, R543, R547, R549, R550). -/
namespace Sys2Proof.Machine

theorem always_eq (s : State) (f : State → State) : always s f = .next (s.after (f s)) := rfl

section
variable (s : State)

/-! PWR_GOOD and the always-on supply (R504, R540, R547) -/

/-- PWR_GOOD told high again. -/
def State.pwrGood (s : State) : State := s.setPins fun p => { p with pwrBad := false }

theorem exec_pwrGoodRise_high (high : s.pins.pwrBad = false) : exec .pwrGoodRise s = .next (s.after s) := by
  rw [exec_pwrGoodRise, execPwrGoodRise, always_eq]
  simp only [high, Bool.not_false, if_true]

theorem exec_pwrGoodRise_held (low : s.pins.pwrBad = true) (held : s.pins.tripLow = true ∨ s.pins.pcycLow = true) :
    exec .pwrGoodRise s = .next (s.after s.pwrGood) := by
  rw [exec_pwrGoodRise, execPwrGoodRise, always_eq]
  dsimp only
  rw [low, Bool.not_true, if_neg Bool.false_ne_true, State.setPins_pins, if_pos held]
  rfl

theorem exec_pwrGoodRise_boots (low : s.pins.pwrBad = true) (trip : s.pins.tripLow = false) (pcyc : s.pins.pcycLow = false) :
    exec .pwrGoodRise s = .next (s.after s.pwrGood.coldReset.tryBoot) := by
  rw [exec_pwrGoodRise, execPwrGoodRise, always_eq]
  simp only [low, Bool.not_true, Bool.false_eq_true, if_false, State.setPins_pins, trip, pcyc, or_self]
  rfl

theorem exec_powerRemoved_high (high : s.pins.pwrBad = false) : exec .powerRemoved s = .next (s.after s) := by
  rw [exec_powerRemoved, execPowerRemoved, always_eq]
  simp only [high, Bool.not_false, if_true]

theorem exec_powerRemoved_low (low : s.pins.pwrBad = true) : exec .powerRemoved s = .next (s.after
    ((s.setFlt fun x => { x with resets := [] }).setPins fun p => { p with tripLow := false, pcycLow := false }).chipClear) := by
  rw [exec_powerRemoved, execPowerRemoved, always_eq]
  simp only [low, Bool.not_true, Bool.false_eq_true, if_false]

/-- A chip reset leaves memory with no byte listed (R439). -/
theorem State.chipClear_mem : s.chipClear.mem = [] := rfl

/-- The node as the always-on supply is first applied (R504, R549). -/
def State.supplied (s : State) : State :=
  { s.chipClear with regs := [], flt := default,
                     pins := { s.chipClear.pins with tripLow := false, pcycLow := false, pwrBad := true, resetLow := true } }

theorem exec_aonSupplyOn_clears : exec .aonSupplyOn s = .next (s.after s.supplied) := rfl

/-! References and the always-on clock (R504, R543) -/

theorem exec_aonClkReturn_present (present : s.pins.aonLost = false) : exec .aonClkReturn s = .next (s.after s) := by
  rw [exec_aonClkReturn, execAonClkReturn, always_eq]
  simp only [present, Bool.not_false, if_true]

theorem exec_aonClkReturn_boots (lost : s.pins.aonLost = true) (power : s.pins.pwrBad = false) (trip : s.pins.tripLow = false)
    (pcyc : s.pins.pcycLow = false) :
    exec .aonClkReturn s = .next (s.after (s.setPins fun p => { p with aonLost := false }).coldReset.tryBoot) := by
  rw [exec_aonClkReturn, execAonClkReturn, always_eq]
  simp only [lost, Bool.not_true, Bool.false_eq_true, if_false, State.setPins_pins, power, trip, pcyc, or_self]

theorem exec_referenceLoss_again (lost : s.pins.coreLost = true) : exec (.referenceLoss .core) s = .next (s.after s) := by
  rw [exec_referenceLoss, execReferenceLoss, always_eq]
  simp only [lost, if_true]

theorem exec_referenceLoss_core (present : s.pins.coreLost = false) (live : s.live = true) : exec (.referenceLoss .core) s =
    .next (s.after ((s.raise .chip 0x0E false 0).setPins fun p => { p with coreLost := true })) := by
  rw [exec_referenceLoss, execReferenceLoss, always_eq]
  simp only [present, live, Bool.false_eq_true, if_false, if_true]

theorem exec_referenceLoss_sdsA (live : s.live = true) (present : s.sdsDown 0 = false) :
    exec (.referenceLoss .sdsA) s = .next (s.after ((s.failEdge 0).setSds 0 true)) := by
  rw [exec_referenceLoss, execReferenceLoss, always_eq]
  simp only [present, live, Bool.false_eq_true, if_false, if_true]

theorem exec_referenceLoss_sdsB (live : s.live = true) (present : s.sdsDown 1 = false) :
    exec (.referenceLoss .sdsB) s = .next (s.after ((s.failEdge 1).setSds 1 true)) := by
  rw [exec_referenceLoss, execReferenceLoss, always_eq]
  simp only [present, live, Bool.false_eq_true, if_false, if_true]

theorem exec_clkTimeTick_lost (lost : s.pins.aonLost = true) : exec .clkTimeTick s = .next (s.after s) := by
  rw [exec_clkTimeTick, execClkTimeTick, always_eq, if_pos lost]

theorem exec_clkTimeTick_counts (present : s.pins.aonLost = false) :
    exec .clkTimeTick s = .next (s.after (s.setF F.CLK_TIME_US 0 ((s.now + 1) % 2 ^ 64))) := by
  rw [exec_clkTimeTick, execClkTimeTick, always_eq, if_neg (by rw [present]; exact Bool.false_ne_true)]

/-! RESET_N and the boot (R484, R549, R550) -/

theorem exec_resetNAssert_held (held : s.pins.tripLow = true ∨ s.pins.pcycLow = true ∨ s.pins.resetLow = true) :
    exec .resetNAssert s = .next (s.after s) := by
  rw [exec_resetNAssert, execResetNAssert, always_eq, if_pos held]

/-- The chip reset of the pin, and its record (R434, R549). -/
def State.pinReset (s : State) : State × Nat :=
  ((s.setPins fun p => { p with resetLow := true }).coldReset).logFault 0 3 4 0 0 false

theorem exec_resetNAssert_resets (trip : s.pins.tripLow = false) (pcyc : s.pins.pcycLow = false) (high : s.pins.resetLow = false)
    (power : s.pins.pwrBad = false) : exec .resetNAssert s = .next (s.after (s.pinReset.1.setFlt fun x =>
      { x with resets := [⟨.chip, false, s.pinReset.1.now, s.pinReset.2, false⟩] })) := by
  rw [exec_resetNAssert, execResetNAssert, always_eq]
  simp only [trip, pcyc, high, power, Bool.false_eq_true, or_self, if_false, State.setPins_pins]
  rfl

theorem exec_resetNRelease_released {force : Bool} (high : s.pins.resetLow = false) (running : s.bootState ≠ bootRom) :
    exec (.resetNRelease force) s = .next (s.after s) := by
  rw [exec_resetNRelease, execResetNRelease, always_eq]
  simp only [high, running, Bool.not_false, ne_eq, not_false_eq_true, and_self, if_true]

theorem exec_resetNRelease_boots {force : Bool} (held : s.pins.resetLow = true ∨ s.bootState = bootRom) (power : s.pins.pwrBad = false) :
    exec (.resetNRelease force) s = .next (s.after
      ((s.setPins fun p => { p with resetLow := false, strap := force }).setF F.TOP_STRAP_FORCE_RCV 0 force.toNat).tryBoot) := by
  have latched : (s.setPins fun p => { p with resetLow := false, strap := if p.pwrBad then p.strap else force }) =
      s.setPins fun p => { p with resetLow := false, strap := force } := by
    simp only [State.setPins, power, Bool.false_eq_true, if_false]
  have acts : ¬ ((!s.pins.resetLow) = true ∧ s.bootState ≠ bootRom) := by
    rintro ⟨high, running⟩
    rcases held with low | rom
    · rw [low] at high
      cases high
    · exact running rom
  rw [exec_resetNRelease, execResetNRelease, always_eq]
  dsimp only
  rw [if_neg acts, latched, State.setPins_pins, if_neg (by rw [power]; exact Bool.false_ne_true)]

theorem tryBoot_stopped (stopped : s.live = false) : s.tryBoot = s := by
  rw [State.tryBoot, stopped, if_neg (by simp)]

theorem tryBoot_rom (live : s.live = true) (rom : s.bootState = bootRom) : s.tryBoot = s.boot := if_pos ⟨live, rom⟩

/-! Trips (R511) -/

section
variable {r : BitVec 4}

theorem exec_thermalTrip_trips (power : s.pins.pwrBad = false) (region : r.toNat < 15)
    (hot : s.live = false ∨ tripPoint r.toNat ≤ s.temp r.toNat) : exec (.thermalTrip r) s = .next (s.after
      ((s.setF F.PWR_THERM_STAT_TRIPPED 0 1).setPins fun p => { p with tripLow := true })) := by
  have trips : ¬ (15 ≤ r.toNat ∨ s.pins.pwrBad = true ∨ (s.live = true ∧ s.temp r.toNat < tripPoint r.toNat)) := by
    rw [power]
    rintro (none | low | ⟨live, cool⟩)
    · omega
    · cases low
    · rcases hot with stopped | hot
      · rw [stopped] at live
        cases live
      · omega
  rw [exec_thermalTrip, execThermalTrip, always_eq]
  dsimp only
  rw [if_neg trips]

theorem exec_thermalTrip_cool (cool : 15 ≤ r.toNat ∨ s.pins.pwrBad = true ∨ (s.live = true ∧ s.temp r.toNat < tripPoint r.toNat)) :
    exec (.thermalTrip r) s = .next (s.after s) := by
  rw [exec_thermalTrip, execThermalTrip, always_eq]
  dsimp only
  rw [if_pos cool]

end
end

end Sys2Proof.Machine
end

section
/-! PROOFS. Domains that gate, stop and wake, the governor and the temperatures (R499 to R501, R506, R507, R509, R510). -/
namespace Sys2Proof.Machine

section
variable (s : State)

/-- R499, R501: a domain that may sleep, is not waking and has no work. -/
def State.domStill (s : State) (d : Nat) : Prop := s.maySleep d = true ∧ s.on F.CLK_DOM_WAKING d = false ∧ s.domBusy d = false

/-- R499: a still domain in RUN has been idle for its GATE time. -/
def State.gateDue (s : State) (d : Nat) : Prop :=
  s.domStill d ∧ s.depth d = 0 ∧ 1 ≤ s.maxDepth d ∧ s.due (s.dom d).idleAt (s.idleTimes d).1 = true

/-- R499, R500: a still domain in GATE has been idle for its STOP time more, and no program or erase runs in a group. -/
def State.stopDue (s : State) (d : Nat) : Prop :=
  s.domStill d ∧ s.depth d = 1 ∧ 2 ≤ s.maxDepth d ∧ s.due (s.dom d).idleAt ((s.idleTimes d).1 + (s.idleTimes d).2) = true ∧
    (d < 40 ∨ s.groupQuiet d = true)

theorem gateDue_iff (d : Nat) : s.gateDue d ↔ (s.maySleep d = true ∧ s.depth d = 0 ∧ (!s.on F.CLK_DOM_WAKING d) = true ∧
    (!s.domBusy d) = true ∧ 1 ≤ s.maxDepth d ∧ s.due (s.dom d).idleAt (s.idleTimes d).1 = true) := by
  rw [State.gateDue, State.domStill, Bool.not_eq_true', Bool.not_eq_true']
  tauto

theorem stopDue_iff (d : Nat) : s.stopDue d ↔ (s.maySleep d = true ∧ s.depth d = 1 ∧ (!s.on F.CLK_DOM_WAKING d) = true ∧
    (!s.domBusy d) = true ∧ 2 ≤ s.maxDepth d ∧ s.due (s.dom d).idleAt ((s.idleTimes d).1 + (s.idleTimes d).2) = true ∧
    (d < 40 ∨ s.groupQuiet d = true)) := by
  rw [State.stopDue, State.domStill, Bool.not_eq_true', Bool.not_eq_true']
  tauto

section
variable (live : s.live = true)
include live

section
variable {d : BitVec 6}

theorem exec_domainGate_gates (due : s.gateDue d.toNat) : exec (.domainGate d) s = .next (s.after (s.setF F.CLK_DOM_STATE d.toNat 1)) := by
  rw [exec_domainGate, execDomainGate, gated_live _ _ live]
  dsimp only
  rw [if_pos ((gateDue_iff s _).1 due)]

theorem exec_domainGate_stays (early : ¬ s.gateDue d.toNat) : exec (.domainGate d) s = .next (s.after s) := by
  rw [exec_domainGate, execDomainGate, gated_live _ _ live]
  dsimp only
  rw [if_neg (mt (gateDue_iff s _).2 early)]

theorem exec_domainStop_stops (due : s.stopDue d.toNat) : exec (.domainStop d) s = .next (s.after (s.setF F.CLK_DOM_STATE d.toNat 2)) := by
  rw [exec_domainStop, execDomainStop, gated_live _ _ live]
  dsimp only
  rw [if_pos ((stopDue_iff s _).1 due)]

theorem exec_domainStop_stays (early : ¬ s.stopDue d.toNat) : exec (.domainStop d) s = .next (s.after s) := by
  rw [exec_domainStop, execDomainStop, gated_live _ _ live]
  dsimp only
  rw [if_neg (mt (stopDue_iff s _).2 early)]

end

/-! Wakes (R501, R507) -/

section
variable (calm : ((List.range 44).all fun d => s.depth d == 0 || !s.domBusy d) = true)

omit live in
include calm in
/-- No domain sleeps while it has work, so that none asks for a wake. -/
theorem nothingLate : ((List.range 44).filter fun d => s.depth d != 0 && s.domBusy d) = [] := by
  rw [List.filter_eq_nil_iff]
  intro d m
  have still := List.all_eq_true.1 calm d m
  cases zero : s.depth d == 0 <;> cases busy : s.domBusy d <;> simp_all

include calm

theorem exec_wakeStart_empty (none : s.pwr.wakeQ = []) : exec .wakeStart s = .next (s.after s) := by
  rw [exec_wakeStart, execWakeStart, gated_live _ _ live]
  simp only [nothingLate s calm, List.flatMap_nil, dedupNat, sortBy, List.foldl_nil, List.reverse_nil, none]

section
variable {x : Nat} {rest : List Nat} (queue : s.pwr.wakeQ = x :: rest) (first : s.pwr.lastWake = none)
include queue first

theorem exec_wakeStart_holds (holds : s.holdsWake x (Config.wakeUj s.free x) = true) :
    exec .wakeStart s = .next (s.after s.draw.1.noteLimited) := by
  have holds : s.draw.1.holdsWake x (Config.wakeUj s.draw.2 x) = true := holds
  rw [exec_wakeStart, execWakeStart, gated_live _ _ live]
  simp only [nothingLate s calm, List.flatMap_nil, dedupNat, sortBy, List.foldl_nil, List.reverse_nil, queue, first, Bool.not_true,
    Bool.false_eq_true, if_false, holds, if_true]

theorem exec_wakeStart_starts (goes : s.holdsWake x (Config.wakeUj s.free x) = false) :
    exec .wakeStart s = .next (s.after (((s.draw.1.setF F.CLK_DOM_WAKING x 1).addF F.CLK_DOM_WAKES x 1).setPwr fun p =>
      { p with wakeQ := rest, lastWake := some s.now,
               wakes := (p.wakes.filter fun w => decide (s.now < w.1 + 10)) ++ [(s.now, Config.wakeUj s.free x)] })) := by
  have goes : s.draw.1.holdsWake x (Config.wakeUj s.draw.2 x) = false := goes
  rw [exec_wakeStart, execWakeStart, gated_live _ _ live]
  simp only [nothingLate s calm, List.flatMap_nil, dedupNat, sortBy, List.foldl_nil, List.reverse_nil, queue, first, Bool.not_true,
    Bool.false_eq_true, if_false, goes]
  rfl

end
end

section
variable {d : BitVec 6}

theorem exec_wakeEnd_awake (awake : s.on F.CLK_DOM_WAKING d.toNat = false) : exec (.wakeEnd d) s = .next (s.after s) := by
  rw [exec_wakeEnd, execWakeEnd, gated_live _ _ live]
  dsimp only
  rw [if_pos (Or.inl (by rw [awake, Bool.not_false]))]

/-- A domain in RUN after a wake that was held up for `wait` µs (R501). -/
def State.awoken (s : State) (d wait : Nat) : State :=
  ((s.addF F.CLK_DOM_HOLD_US d wait).setFs d [(F.CLK_DOM_STATE, 0), (F.CLK_DOM_WAKING, 0)]).setDom d fun _ => ⟨s.now, none, none⟩

omit live in
theorem State.awoken_mem (k wait : Nat) : (s.awoken k wait).mem = s.mem := by
  rw [State.awoken, State.setDom, State.setPwr_mem, State.setFs_mem, State.addF_mem]

omit live in
theorem State.f_awoken (k wait : Nat) {y : Fld} (m : (y, 0) ∈ [(F.CLK_DOM_STATE, 0), (F.CLK_DOM_WAKING, 0)]) :
    (s.awoken k wait).f y k = 0 := by
  rw [State.awoken, State.setDom, State.setPwr_f, State.f_setFs_of_mem _ _ .clkDom (by decide) (by decide) m, Nat.zero_mod]

omit live in
theorem State.dom_awoken (k wait : Nat) : (s.awoken k wait).dom k = ⟨s.now, none, none⟩ := SMap.get_put_self ..

theorem exec_wakeEnd_runs (waking : s.on F.CLK_DOM_WAKING d.toNat = true) (low : d.toNat < 14) :
    ∃ wait, exec (.wakeEnd d) s = .next (s.after (s.awoken d.toNat wait)) := by
  have ends : ¬ ((!s.on F.CLK_DOM_WAKING d.toNat) = true ∨
      (14 ≤ d.toNat ∧ d.toNat < 22 ∧ s.depth d.toNat = 2 ∧ s.depth (d.toNat - 8) ≠ 0)) := by
    rw [waking]
    rintro (asleep | ⟨die, -⟩)
    · cases asleep
    · omega
  have noCellar : ¬ (40 ≤ d.toNat ∧ s.depth d.toNat = 2) := by omega
  rw [exec_wakeEnd, execWakeEnd, gated_live _ _ live]
  dsimp only
  rw [if_neg ends, decide_eq_false noCellar, if_neg Bool.false_ne_true]
  exact ⟨_, rfl⟩

end

/-! Temperatures and throttling (R509, R510) -/

theorem exec_temperatureReading_none {r : BitVec 4} {v : Int} (none : 15 ≤ r.toNat) :
    exec (.temperatureReading r v) s = .next (s.after s) := by
  rw [exec_temperatureReading, execTemperatureReading, gated_live _ _ live]
  dsimp only
  rw [if_pos none]

theorem exec_temperatureReading_keeps {r : BitVec 4} {v : Int} (region : r.toNat < 15) :
    exec (.temperatureReading r v) s = .next (s.after (s.setFs r.toNat [(F.PWR_TEMP_TEMP, toTwos 12 v),
      (F.PWR_TEMP_PEAK, toTwos 12 (max (signed 12 (s.f F.PWR_TEMP_PEAK r.toNat)) (signed 12 (toTwos 12 v))))])) := by
  rw [exec_temperatureReading, execTemperatureReading, gated_live _ _ live]
  dsimp only
  rw [if_neg (Nat.not_le.2 region)]

theorem exec_throttleStep_early (early : s.due s.pwr.throttleAt 100 = false) : exec .throttleStep s = .next (s.after s) := by
  rw [exec_throttleStep, execThrottleStep, gated_live _ _ live, early, Bool.not_false, if_pos rfl]

theorem exec_throttleStep_steps (due : s.due s.pwr.throttleAt 100 = true) : exec .throttleStep s = .next (s.after
    ((List.range 15).foldl State.throttle (s.setPwr fun p => { p with throttleAt := s.now }))) := by
  rw [exec_throttleStep, execThrottleStep, gated_live _ _ live, due, Bool.not_true, if_neg Bool.false_ne_true]

end

/-! The governor (R506) -/

theorem foldl_min_le (l : List Int) (a : Int) : l.foldl min a ≤ a := by
  induction l generalizing a with
  | nil => exact le_rfl
  | cons b l ih => exact (ih _).trans (min_le_left a b)

/-- R506: the governor's base, taken anew in each µs. -/
def State.govStepped (s : State) : State :=
  if s.pwr.stepAt = s.now then s
  else s.setPwr fun p => { p with current := s.f F.PWR_GOV_STAT_CURRENT_A 0, stepAt := s.now,
                                  draws := (p.draws ++ [s.f F.PWR_GOV_STAT_CURRENT_A 0]).drop (p.draws.length - 9) }

/-- R506: what the slew allows above the base. -/
def State.govSlew (s : State) : Nat := s.pwr.current + max 1 (s.f F.PWR_GOV_SLEW_A_US 0)

theorem govStepped_same (same : s.pwr.stepAt = s.now) : s.govStepped = s := if_pos same

theorem govStepped_next (next : s.pwr.stepAt ≠ s.now) : s.govStepped =
    s.setPwr fun p => { p with current := s.f F.PWR_GOV_STAT_CURRENT_A 0, stepAt := s.now,
                               draws := (p.draws ++ [s.f F.PWR_GOV_STAT_CURRENT_A 0]).drop (p.draws.length - 9) } := if_neg next

theorem govStepped_mem : s.govStepped.mem = s.mem := by
  rw [State.govStepped]
  split
  · rfl
  · exact State.setPwr_mem ..

theorem govSlew_stepped_same (same : s.pwr.stepAt = s.now) : s.govStepped.govSlew = s.pwr.current + max 1 (s.f F.PWR_GOV_SLEW_A_US 0) := by
  rw [govStepped_same s same, State.govSlew]

theorem govSlew_stepped_next (next : s.pwr.stepAt ≠ s.now) :
    s.govStepped.govSlew = s.f F.PWR_GOV_STAT_CURRENT_A 0 + max 1 (s.f F.PWR_GOV_SLEW_A_US 0) := by
  rw [govStepped_next s next, State.govSlew, State.setPwr_f, State.setPwr_pwr]

/-- R506, R507: the most that the slew and the energy bound allow. -/
def State.govMost (s : State) : Int := (s.currentRoom.map (·.1)).foldl min (s.govSlew : Int)

/-- R506, R507: the least that the ballast holds the current to. -/
def State.govLeast (s : State) : Int :=
  if s.on F.PWR_GOV_BALLAST 0 then
    min s.govMost ((s.currentRoom.map (·.2)).foldl max ((s.pwr.current : Int) - ((max 1 (s.f F.PWR_GOV_SLEW_A_US 0) : Nat) : Int)))
  else 0

/-- R506: the estimate is above the most. -/
def State.govLimited (s : State) (a : Nat) : Bool := decide (s.govMost < (a : Int))

/-- R506: the estimate is below the least. -/
def State.govHeld (s : State) (a : Nat) : Bool := !s.govLimited a && decide ((a : Int) < s.govLeast)

/-- R506: the estimate held between the least and the most. -/
def State.govCurrent (s : State) (a : Nat) : Nat :=
  if s.govLimited a then s.govMost.toNat else if s.govHeld a then s.govLeast.toNat else a

theorem govMost_le : s.govMost ≤ s.govSlew := foldl_min_le _ _

theorem govLeast_le : s.govLeast ≤ s.govSlew := by
  have most := govMost_le s
  rw [State.govLeast]
  split
  · exact (min_le_left _ _).trans most
  · exact Int.natCast_nonneg _

theorem govCurrent_le (a : Nat) : s.govCurrent a ≤ s.govSlew := by
  have most := govMost_le s
  have least := govLeast_le s
  rw [State.govCurrent]
  split_ifs with limited held
  · omega
  · omega
  · have within : ¬ s.govMost < (a : Int) := by simpa [State.govLimited] using limited
    omega

/-- A field beside a count that is raised reads as before. -/
theorem f_addF_beside {x y : Fld} {i n : Nat} (same : y.reg = x.reg) (order : x.lo ≤ x.hi) (fits : x.hi < 64)
    (apart : y.hi < x.lo ∨ x.hi < y.lo) : (s.addF x i n).f y i = s.f y i := State.f_setF_beside s _ same order fits apart

theorem noteLimited_mem : s.noteLimited.mem = s.mem := by
  rw [State.noteLimited]
  split
  · rfl
  · rw [State.setPwr_mem, State.addF_mem]

theorem noteLimited_current : s.noteLimited.f F.PWR_GOV_STAT_CURRENT_A 0 = s.f F.PWR_GOV_STAT_CURRENT_A 0 := by
  rw [State.noteLimited]
  split
  · rfl
  · rw [State.setPwr_f]
    exact f_addF_beside s rfl (by decide) (by decide) (by decide)

/-- R515: the µs counts in BALLAST_US, once. -/
def State.noteBallast (s : State) (now : Nat) (held : Bool) : State :=
  if held && s.pwr.ballastAt != some now then
    (s.addF F.PWR_GOV_STAT_BALLAST_US 0 1).setPwr fun p => { p with ballastAt := some now }
  else s

theorem noteBallast_mem (now : Nat) (held : Bool) : (s.noteBallast now held).mem = s.mem := by
  rw [State.noteBallast]
  split
  · rw [State.setPwr_mem, State.addF_mem]
  · rfl

theorem noteBallast_current (now : Nat) (held : Bool) :
    (s.noteBallast now held).f F.PWR_GOV_STAT_CURRENT_A 0 = s.f F.PWR_GOV_STAT_CURRENT_A 0 := by
  rw [State.noteBallast]
  split
  · rw [State.setPwr_f]
    exact f_addF_beside s rfl (by decide) (by decide) (by decide)
  · rfl

/-- R515: what the µs counts in LIMITED_US and BALLAST_US. -/
def State.govCounted (s : State) (now : Nat) (limited held : Bool) : State :=
  (if limited then s.noteLimited else s).noteBallast now held

theorem govCounted_mem (now : Nat) (limited held : Bool) : (s.govCounted now limited held).mem = s.mem := by
  rw [State.govCounted, noteBallast_mem]
  split
  · exact noteLimited_mem s
  · rfl

theorem govCounted_current (now : Nat) (limited held : Bool) :
    (s.govCounted now limited held).f F.PWR_GOV_STAT_CURRENT_A 0 = s.f F.PWR_GOV_STAT_CURRENT_A 0 := by
  rw [State.govCounted, noteBallast_current]
  split
  · exact noteLimited_current s
  · rfl

/-- CURRENT_A and DUTY as the governor shows them (R506, R515). -/
def State.govShown (s : State) (x duty : Nat) : State := s.setFs 0 [(F.PWR_GOV_STAT_CURRENT_A, x), (F.PWR_GOV_STAT_DUTY, duty)]

theorem govShown_current_le (x duty : Nat) : (s.govShown x duty).f F.PWR_GOV_STAT_CURRENT_A 0 ≤ x := by
  rw [State.govShown, State.f_setFs_of_mem _ _ .pwrGovStat (by simp [F.PWR_GOV_STAT_CURRENT_A, F.PWR_GOV_STAT_DUTY]) rfl List.mem_cons_self]
  exact Nat.mod_le _ _

theorem exec_currentEstimate_shows (live : s.live = true) (amps : BitVec 12) : ∃ duty, exec (.currentEstimate amps) s = .next (s.after
    ((s.govStepped.govShown (s.govStepped.govCurrent amps.toNat) duty).govCounted s.now
      (s.govStepped.govLimited amps.toNat) (s.govStepped.govHeld amps.toNat))) := by
  rw [exec_currentEstimate, execCurrentEstimate, gated_live _ _ live]
  exact ⟨_, rfl⟩

/-- R506: the current that CURRENT_ESTIMATE shows is at most the base and the slew. -/
theorem exec_currentEstimate_slew (live : s.live = true) (amps : BitVec 12) : ∃ t, exec (.currentEstimate amps) s = .next (s.after t) ∧
    t.mem = s.mem ∧ t.f F.PWR_GOV_STAT_CURRENT_A 0 ≤ s.govStepped.govSlew := by
  obtain ⟨duty, shows⟩ := exec_currentEstimate_shows s live amps
  refine ⟨_, shows, ?_, ?_⟩
  · rw [govCounted_mem, State.govShown, State.setFs_mem, govStepped_mem]
  · rw [govCounted_current]
    exact (govShown_current_le ..).trans (govCurrent_le ..)

end

/-- Settles O58: pins and supplies act in any state, the rest while the clocks run; each clause is one case of its command's row. -/
theorem pinsClocksAndPower : Obligations.PinsClocksAndPower := by
  unfold Obligations.PinsClocksAndPower
  intro s force d r v amps
  refine ⟨rfl, rfl, exec_pwrGoodRise_high s,
    fun low => ⟨exec_pwrGoodRise_held s low, exec_pwrGoodRise_boots s low⟩,
    exec_aonClkReturn_present s, exec_aonClkReturn_boots s,
    exec_referenceLoss_again s, exec_referenceLoss_core s,
    fun live => ⟨exec_referenceLoss_sdsA s live, exec_referenceLoss_sdsB s live⟩,
    rfl, rfl, rfl,
    exec_resetNAssert_held s, exec_resetNAssert_resets s,
    exec_resetNRelease_released s, exec_resetNRelease_boots s,
    exec_powerRemoved_high s, exec_powerRemoved_low s,
    ⟨s.supplied, exec_aonSupplyOn_clears s, rfl, rfl, rfl, rfl, rfl, rfl, rfl⟩,
    tryBoot_stopped s, tryBoot_rom s, State.chipClear_mem s,
    exec_clkTimeTick_lost s, exec_clkTimeTick_counts s,
    exec_thermalTrip_trips s, exec_thermalTrip_cool s,
    fun live => ⟨⟨exec_domainGate_gates s live, exec_domainGate_stays s live, exec_domainStop_stops s live, exec_domainStop_stays s live⟩,
      fun calm => ⟨exec_wakeStart_empty s live calm,
        fun x rest queue first => ⟨exec_wakeStart_holds s live calm queue first, exec_wakeStart_starts s live calm queue first⟩⟩,
      exec_wakeEnd_awake s live, fun waking low => ?_,
      exec_temperatureReading_none s live, exec_temperatureReading_keeps s live,
      exec_throttleStep_early s live, exec_throttleStep_steps s live, ?_⟩⟩
  · obtain ⟨wait, runs⟩ := exec_wakeEnd_runs s live waking low
    refine ⟨_, runs, State.f_awoken s _ _ List.mem_cons_self, ?_, ?_, State.awoken_mem ..⟩
    · rw [State.on, State.f_awoken s _ _ (List.mem_cons_of_mem _ List.mem_cons_self)]
      rfl
    · rw [State.dom_awoken]
  · obtain ⟨t, shows, mem, le⟩ := exec_currentEstimate_slew s live amps
    exact ⟨t, shows, mem, fun same => govSlew_stepped_same s same ▸ le, fun next => govSlew_stepped_next s next ▸ le⟩

end Sys2Proof.Machine
end
